-- ==== Sys2Proof/Word.lean ====
section
/-! DEFINITION. The widths the part's lines and cards use, and most-significant-byte-first numbers (R190). -/

namespace Sys2Proof

/-- One byte of a host frame, a link frame or a card area. -/
abbrev Byte := BitVec 8

/-- Card numbers are 32-bit unsigned values (Conventions). -/
abbrev CardNo := BitVec 32

/-- The 32-bit keyed check value of a purse image, opaque (R2). -/
abbrev Stamp := BitVec 32

end Sys2Proof
end

