-- ==== Sys2Proof/Syntax.lean ====
section
/-! DEFINITION. The commands of the block: one constructor of `Instr` per row of spec/opcode_table.json, with what
the event or request carries. Host requests carry their tag and the raw bytes of their body; link frames carry their
source and their body fields at the widths of R192; a FETCH answer carries the raw bytes of the area (R193, R194). -/

namespace Sys2Proof

/-- Side U is the entry end of the aisle, side P the exit end (Terms). -/
inductive Side where
  | U | P
  deriving DecidableEq, Repr

/-- INBOUND is a passage from the unpaid side to the paid side (Conventions). -/
inductive Direction where
  | inbound | outbound
  deriving DecidableEq, Repr

/-- The two places of the aisle claim (R117). -/
inductive SlotId where
  | one | two
  deriving DecidableEq, Repr

/-- The three areas of card memory (01, Card areas). -/
inductive Area where
  | header | imageA | imageB
  deriving DecidableEq, Repr

/-- The error classes of a frame received in an answer window (R8). -/
inductive AnswerError where
  | framing | parity | check | overrun
  deriving DecidableEq, Repr

/-- The two leaf position switches (R134). -/
inductive Switch where
  | opened | closed
  deriving DecidableEq, Repr

/-- The levels of the part's level inputs (12, Signal summary): true is asserted, high, occupied or active. -/
structure Pins where
  fire : Bool
  strap1 : Bool
  strap2 : Bool
  mouthU : Bool
  leaf : Bool
  mouthP : Bool
  openSwitch : Bool
  closedSwitch : Bool
  deriving DecidableEq, Repr

/-- The commands: the rows of spec/opcode_table.json. -/
inductive Instr where
  -- resets
  | powerOn (pins : Pins)
  | warmReset (fire : Bool)
  -- pins and the passage
  | fireInputChange (level : Bool)
  | mouthOccupied (mouth : Side)
  | leafOccupied
  | leafClear
  | mouthClear (mouth : Side)
  | openSwitchReached
  | closedSwitchReached
  -- reader lines
  | pollTimer (side : Side)
  | summonAnswer (side : Side) (card : CardNo) (collided : Bool)
  | fetchAnswer (side : Side) (area : Area) (content : List Byte)
  | storeAnswer (side : Side) (area : Area)
  | answerWindowClose (side : Side) (seen : Option AnswerError)
  | dialogueDeadlineExpiry (side : Side)
  | aisleWaitExpiry (side : Side)
  | slotGrant
  | stopHoldExpiry (side : Side)
  | creditExpiry (slot : SlotId)
  | travelTimeout
  | sounderExpiry
  -- time and aging
  | secondTick
  | lapseMarkExpiry (card : CardNo)
  | sightingLifetimeExpiry (card : CardNo)
  | inDoubtLifetimeExpiry (card : CardNo)
  -- aisle link
  | lineTransmissionStart (dest : Option Byte)
  | linkRxIdleTimeout
  | linkToken (src : Byte)
  | linkJoinInvite (src : Byte)
  | linkJoinReply (src : Byte)
  | linkSighting (src : Byte) (card : CardNo) (readTxc : BitVec 16) (readStamp : Stamp) (writtenTxc : BitVec 16)
      (writtenStamp : Stamp)
  | linkLapse (src : Byte) (card : CardNo) (txc : BitVec 16) (stamp : Stamp) (side : Byte)
  | linkRegrant (src : Byte) (card : CardNo) (txc : BitVec 16) (stamp : Stamp)
  | linkDenyAdd (src : Byte) (card : CardNo)
  | linkEmergency (src : Byte) (code : Byte)
  | linkFrameDiscarded
  | linkFrameSent
  | silenceTimeout
  | passWindowExpiry
  | inviteWindowExpiry
  | loneHolderWaitEnd
  | refreshDeadline (addr : Byte)
  | holdDeadline (addr : Byte)
  -- host line
  | hostRxIdleTimeout
  | hostFrameBadCrc
  | unknownKind (tag : Byte) (kind : Byte)
  | hostFrameSent
  | drainComplete
  | syncLineComplete
  | gateResetComplete
  -- host requests (R181)
  | identify (tag : Byte) (body : List Byte)
  | status (tag : Byte) (body : List Byte)
  | setTime (tag : Byte) (body : List Byte)
  | getTime (tag : Byte) (body : List Byte)
  | suspend (tag : Byte) (body : List Byte)
  | resume (tag : Byte) (body : List Byte)
  | reset (tag : Byte) (body : List Byte)
  | setStation (tag : Byte) (body : List Byte)
  | setZoneCount (tag : Byte) (body : List Byte)
  | loadZoneRow (tag : Byte) (body : List Byte)
  | loadBandSet (tag : Byte) (body : List Byte)
  | setClass (tag : Byte) (body : List Byte)
  | setParameters (tag : Byte) (body : List Byte)
  | selectScheme (tag : Byte) (body : List Byte)
  | retireScheme (tag : Byte) (body : List Byte)
  | denyAdd (tag : Byte) (body : List Byte)
  | denyRemove (tag : Byte) (body : List Byte)
  | denyClear (tag : Byte) (body : List Byte)
  | denyQuery (tag : Byte) (body : List Byte)
  | sightingQuery (tag : Byte) (body : List Byte)
  | syncLine (tag : Byte) (body : List Byte)
  | journalPeek (tag : Byte) (body : List Byte)
  | journalDrop (tag : Byte) (body : List Byte)
  | staffPass (tag : Byte) (body : List Byte)
  | holdOpen (tag : Byte) (body : List Byte)
  | holdRelease (tag : Byte) (body : List Byte)
  | gateReset (tag : Byte) (body : List Byte)
  | alarmClear (tag : Byte) (body : List Byte)
  | setEmergency (tag : Byte) (body : List Byte)
  | clearEmergency (tag : Byte) (body : List Byte)
  -- further line and pin events
  | hostFramingError
  | linkFramingError
  | switchLost (switch : Switch)
  | speedStrapChange (strap1 : Bool) (strap2 : Bool)
  deriving DecidableEq, Repr

end Sys2Proof
end

