-- ==== Sys2Proof/Config.lean ====
section
/-! DEFINITION. The free values of the manual and the constants it fixes for every part. -/

namespace Sys2Proof

/-- FREE VALUE (log 5). The stamp correct for a scheme slot over the header's card number followed by image bytes
0 to 35 (R193). The manual treats the keyed function as opaque (before R3), so nothing here says what it is. -/
opaque Config.stampOf (slot : Nat) (covered : List Byte) : Stamp

/-- FREE VALUE (log 9). Whether a credit handed over in leaf FAULT is cleared, with its lapse request, before the
Screening Unit takes the same tap's commit: R121 gives the two no fixed order. -/
opaque Config.creditFirst (draw : Nat) : Bool

/-- Dialogue deadline, 300 ms (R10, R15). -/
def Config.dialogueMs : Nat := 300
/-- STOP hold, 2 s (R24). -/
def Config.stopHoldMs : Nat := 2000
/-- Leaf travel, 1.5 s (R134). -/
def Config.travelMs : Nat := 1500
/-- Response and invitation windows, 2 ms (R103). -/
def Config.windowMs : Nat := 2
/-- Lone holder's wait, 5 ms (R105). -/
def Config.loneMs : Nat := 5
/-- Refresh of a member's ASSERT, 10 s (R143). -/
def Config.refreshMs : Nat := 10000
/-- Attempts of one exchange (R8). -/
def Config.attempts : Nat := 3
/-- The largest counter value (R64). -/
def Config.maxTime : Nat := 4294967295
/-- Deny list capacity (R72). -/
def Config.denyCap : Nat := 16384
/-- LOCAL and PEER deny entries (R72). -/
def Config.localCap : Nat := 512
/-- Sighting table capacity (R76). -/
def Config.sightingCap : Nat := 1024
/-- IN_DOUBT entries (R76, R87). -/
def Config.inDoubtCap : Nat := 64
/-- Outbound queue capacity (R112). -/
def Config.queueCap : Nat := 64
/-- Amounts on the card are held at 65,535 (R56, R62). -/
def Config.maxAmount : Nat := 65535

end Sys2Proof
end

