-- ==== Sys2Proof/Machine/State.lean ====
section
/-! DEFINITION. The state of the G20, block by block, as plain data, and the state right after power-on. Each type's
docstring names the rules that give its fields; INVENTORY.md lists them one by one. Quantities the manual derives from
other state (local count, own contribution, leaf command, readiness, lamps) have no field: they are computed. -/

namespace Sys2Proof.Machine

/-! ## Cards and taps -/

/-- The standing of a card, in its header (R1). -/
inductive CardStatus where
  | active | blocked
  deriving DecidableEq, Repr

/-- The header fields (R1, R193). -/
structure Header where
  card : CardNo
  cls : Nat
  status : CardStatus
  expiry : Nat
  deriving DecidableEq, Repr

/-- Whether a journey is open (R2). -/
inductive Journey where
  | outside | inSystem
  deriving DecidableEq, Repr

/-- The zones of a station: one, or two for a border station (R2). -/
structure Zones where
  first : Nat
  second : Option Nat
  deriving DecidableEq, Repr

/-- The last exit of a card; absent means never exited (R2, R193). -/
structure LastExit where
  station : Nat
  time : Nat
  deriving DecidableEq, Repr

/-- A purse image, every field of R2. -/
structure Image where
  txc : Nat
  balance : Int
  journey : Journey
  entryStation : Nat
  entryZones : Zones
  entryTime : Nat
  originZones : Zones
  chainStart : Nat
  chainPaid : Nat
  chainLegs : Nat
  lastExit : Option LastExit
  graceUsed : Bool
  capDay : Nat
  spent : Nat
  scheme : Nat
  stamp : Stamp
  deriving DecidableEq, Repr

/-- The two image slots of a card (R5). -/
inductive ImageSlot where
  | A | B
  deriving DecidableEq, Repr

/-- An image area as fetched: its bytes, and the image it holds if that image is valid (R2, R3). -/
structure AreaRead where
  bytes : List Byte
  valid : Option Image
  deriving DecidableEq, Repr

/-- The image read of a tap: its slot and its fields (R5, R26). -/
structure ImageRead where
  slot : ImageSlot
  image : Image
  deriving DecidableEq, Repr

/-- NORMAL or FREE_EXIT (R30). -/
inductive Path where
  | normal | freeExit
  deriving DecidableEq, Repr

/-- The result of sighting screening (R34). -/
inductive ScreenResult where
  | clear | clone | regrant | recovered
  deriving DecidableEq, Repr

/-- The decisions that write an image (R35 to R40). -/
inductive CommitKind where
  | entry | graceEntry | penaltyEntry | exit | missingEntryExit | freeExit
  deriving DecidableEq, Repr

/-- The decision of check 11 with its charge (R26). -/
structure Decision where
  kind : CommitKind
  charge : Nat
  deriving DecidableEq, Repr

/-- The refusal reasons, in the order of the table of R42. -/
inductive RefusalReason where
  | multipleCards | journalFull | aisleBusy | emergency | cardUnreadable | blocked | classUnknown | expired | denied
  | stampBad | cardInconsistent | cardExhausted | clone | passback | insufficient | writeFailed
  deriving DecidableEq, Repr

/-- An outcome fixed before a blocking write (R20): a refusal, or a commit whose look found the clone mark (R17). -/
inductive Verdict where
  | refused (reason : RefusalReason)
  | committedClone
  deriving DecidableEq, Repr

/-- The tap context (R26). The class stands in the header read, the write slot is the other slot of the image read. -/
structure TapContext where
  side : Side
  card : Option CardNo
  path : Option Path
  slot : Option SlotId
  tapTime : Option Nat
  header : Option Header
  areaA : Option AreaRead
  areaB : Option AreaRead
  image : Option ImageRead
  screening : Option ScreenResult
  decision : Option Decision
  newImage : Option Image
  storeSent : Bool
  storeRetried : Bool
  cloneSeen : Bool
  verdict : Option Verdict
  deriving DecidableEq, Repr

/-! ## Reader ports -/

/-- The port states (01, Port states). -/
inductive PortState where
  | disabled | idle | detected | waitAisle | reading | screening | writing | confirming | done
  deriving DecidableEq, Repr

/-- What the port asks of the card (R7, R8, R194). -/
inductive CardRequest where
  | summon
  | fetch (area : Area)
  | store (area : Area) (content : List Byte)
  deriving DecidableEq, Repr

/-- An exchange in flight (R8): its request, whether an error-class frame arrived in the open window, and whether one
arrived in an earlier window of the same exchange (R9, R12). -/
structure Exchange where
  request : CardRequest
  windowError : Bool
  earlierError : Bool
  deriving DecidableEq, Repr

/-- The dialogue deadline (R15), on the interval clock. -/
inductive Deadline where
  | stopped
  | running (until_ : Nat)
  | paused (left : Nat)
  deriving DecidableEq, Repr

/-- A reader port: dialogue state, exchange and its attempt count, deadline, aisle wait, tap context, STOP hold. -/
structure Port where
  state : PortState
  exchange : Option Exchange
  attempts : Nat
  deadline : Deadline
  aisleWait : Option Nat
  ctx : Option TapContext
  stopHold : Option Nat
  deriving DecidableEq, Repr

/-- A port at power-on (R25). -/
def Port.initial : Port :=
  { state := .disabled, exchange := none, attempts := 0, deadline := .stopped, aisleWait := none, ctx := none,
    stopHold := none }

/-! ## Screening Unit -/

/-- What a tap of a denied card does (R72). -/
inductive DenyAction where
  | refuse | refuseAndBlock
  deriving DecidableEq, Repr

/-- Who listed a card: CENTRAL, LOCAL (`own`) or PEER; a PEER entry carries the gate whose finding it was (R72). -/
inductive DenyOrigin where
  | central | own | peer (addr : Nat)
  deriving DecidableEq, Repr

/-- A deny entry (R72); `made` orders entries of equal time added (R74). -/
structure DenyEntry where
  card : CardNo
  origin : DenyOrigin
  action : DenyAction
  added : Nat
  made : Nat
  deriving DecidableEq, Repr

/-- An image as the sighting table knows it (R75). -/
structure SImage where
  txc : Nat
  stamp : Stamp
  deriving DecidableEq, Repr

/-- Who reported a COMMITTED image: LOCAL (`own`) or PEER (R75). -/
inductive SightOrigin where
  | own | peer (addr : Nat)
  deriving DecidableEq, Repr

/-- A lapse mark: side and deadline, a counter value, kept unbounded (R75, R89; DESIGN CHOICE, log 42). -/
structure LapseMark where
  side : Side
  deadline : Nat
  deriving DecidableEq, Repr

/-- What a COMMITTED entry carries beside its image, kept by a PENDING_LOCAL entry whose new flag is clear (R75). -/
structure Standing where
  origin : SightOrigin
  lapse : Option LapseMark
  regranted : Bool
  deriving DecidableEq, Repr

/-- A held peer update (R75, R93). -/
structure HeldUpdate where
  src : Nat
  read : SImage
  written : SImage
  marking : Bool
  deriving DecidableEq, Repr

/-- What a PENDING_LOCAL entry carries (R75). The new flag is set exactly when `prior` is absent. -/
structure PendingTap where
  side : Side
  prior : Option Standing
  stored : Option SImage
  cloneMark : Bool
  held : Option HeldUpdate
  deriving DecidableEq, Repr

/-- The three states of a sighting entry with what each carries (R75). An IN_DOUBT entry's origin is LOCAL (R87). -/
inductive SightState where
  | committed (standing : Standing)
  | pendingLocal (tap : PendingTap)
  | inDoubt (stored : SImage) (serial : Nat)
  deriving DecidableEq, Repr

/-- A sighting entry (R75); `touched` orders entries of equal last update time (R76). -/
structure Sighting where
  card : CardNo
  baseline : SImage
  state : SightState
  updated : Nat
  touched : Nat
  deriving DecidableEq, Repr

/-- The Screening Unit: deny list ascending by card number, sighting table, and the order counter of the two ties. -/
structure Screening where
  deny : List DenyEntry
  sightings : List Sighting
  order : Nat
  deriving DecidableEq, Repr

/-! ## Aisle Link Controller -/

/-- The frames the Screening Unit queues (R112), with their fields (R100). -/
inductive LinkMsg where
  | sighting (card : CardNo) (read written : SImage)
  | lapse (card : CardNo) (image : SImage) (side : Side)
  | regrant (card : CardNo) (image : SImage)
  | denyAdd (card : CardNo)
  deriving DecidableEq, Repr

/-- The kinds of queued frames (R112). -/
inductive MsgKind where
  | sighting | lapse | regrant | denyAdd
  deriving DecidableEq, Repr

/-- A queued frame, the tags of the SYNC_LINEs that marked it (R114), and whether it is in transmission (R112). -/
structure QItem where
  msg : LinkMsg
  marks : List Byte
  inTx : Bool
  deriving DecidableEq, Repr

/-- An outstanding SYNC_LINE: its tag and how many of its marked frames were dropped (R114). -/
structure Sync where
  tag : Byte
  dropped : Nat
  deriving DecidableEq, Repr

/-- Why the link is OFFLINE (R101). -/
inductive OfflineReason where
  | noAddress | conflict
  deriving DecidableEq, Repr

/-- Link states (R101). -/
inductive LinkState where
  | offline (reason : OfflineReason)
  | listening
  | member
  deriving DecidableEq, Repr

/-- The emergency contribution of a member row (R143), its deadline on the interval clock. -/
inductive Contribution where
  | none
  | asserted (refresh : Nat)
  | held (hold : Nat)
  deriving DecidableEq, Repr

/-- A row of the member table (R102). -/
structure MemberRow where
  present : Bool
  lastHeard : Option Nat
  contribution : Contribution
  deriving DecidableEq, Repr

/-- Token states (R103). INVITING keeps the address and whether its window has closed while a frame is still being
received (R106); PASSING keeps the successor and the number of the try (R105). -/
inductive TokenState where
  | waiting
  | sending
  | inviting (addr : Nat) (closed : Bool)
  | passing (successor : Nat) (tries : Nat)
  deriving DecidableEq, Repr

/-- The frame on its way on the link (R104 to R107). `data` is the queued frame marked `inTx`. -/
inductive LinkTx where
  | data
  | emergency (assert : Bool)
  | invite (addr : Nat)
  | token (addr : Nat)
  | joinReply (addr : Nat)
  deriving DecidableEq, Repr

/-- The Aisle Link Controller (R97 to R116). `due`: the holder waits to send the next frame of its turn, which is chosen
at its first bit (R103, R104). `txBegun`: the first bit of the frame in `tx` is out, so the part drives the line (R97;
when that happens is a DESIGN CHOICE, log 19). -/
structure Link where
  addr : Nat
  state : LinkState
  rows : List MemberRow
  token : TokenState
  turn : Nat
  pointer : Nat
  sent : Nat
  emergencySent : Bool
  inviteDue : Bool
  due : Bool
  tx : Option LinkTx
  txBegun : Bool
  rxBegun : Bool
  loneWait : Option Nat
  silence : Option Nat
  window : Option Nat
  deassertPending : Bool
  queue : List QItem
  syncs : List Sync
  deriving DecidableEq, Repr

/-- A row at power-on (R116). -/
def MemberRow.blank : MemberRow := { present := false, lastHeard := none, contribution := .none }

/-- The Aisle Link Controller at power-on (R116). -/
def Link.initial : Link :=
  { addr := 0, state := .offline .noAddress, rows := List.replicate 16 MemberRow.blank, token := .waiting, turn := 0,
    pointer := 1, sent := 0, emergencySent := false, inviteDue := false, due := false, tx := none, txBegun := false,
    rxBegun := false, loneWait := none, silence := none, window := none, deassertPending := false, queue := [], syncs := [] }

/-! ## Passage Controller -/

/-- Who holds a slot of the claim (R117). -/
inductive Holder where
  | context (side : Side)
  | credit
  deriving DecidableEq, Repr

/-- The aisle claim (R117). -/
structure Claim where
  direction : Option Direction
  slot1 : Option Holder
  slot2 : Option Holder
  waitU : Bool
  waitP : Bool
  lastGranted : Direction
  deriving DecidableEq, Repr

/-- The origin of a credit (R121). -/
inductive CreditOrigin where
  | tap (serial : Nat) (card : CardNo)
  | grace | regrant | recovered | staff
  deriving DecidableEq, Repr

/-- UNASSIGNED with its deadline on the interval clock, or ASSIGNED (R121). -/
inductive CreditState where
  | unassigned (until_ : Nat)
  | assigned
  deriving DecidableEq, Repr

/-- A passage credit (R121), named by the slot it holds. -/
structure Credit where
  slot : SlotId
  direction : Direction
  origin : CreditOrigin
  state : CreditState
  deriving DecidableEq, Repr

/-- The stages of an occupant (R124). -/
inductive Stage where
  | mouth | leaf | far
  deriving DecidableEq, Repr

/-- An occupant (R124); its credit is named by the slot the credit holds. -/
structure Occupant where
  direction : Direction
  stage : Stage
  credit : Option SlotId
  deriving DecidableEq, Repr

/-- The alarm kinds (R130). -/
inductive AlarmKind where
  | tailgate | forced | reverse | intrusion
  deriving DecidableEq, Repr

/-- The four alarm latches (R130). -/
structure Latches where
  tailgate : Bool
  forced : Bool
  reverse : Bool
  intrusion : Bool
  deriving DecidableEq, Repr

/-- Leaf states (R134). -/
inductive LeafState where
  | closed | opening | opened | heldOpen | closing | fault
  deriving DecidableEq, Repr

/-- The travel that failed (R135). -/
inductive Travel where
  | opening | closing
  deriving DecidableEq, Repr

/-- The Passage Controller (R117 to R140). -/
structure Passage where
  claim : Claim
  credits : List Credit
  occupants : List Occupant
  leaf : LeafState
  travel : Option Nat
  holdOpen : Bool
  latches : Latches
  lastAlarm : Option (AlarmKind × Option Side)
  lastFault : Option Travel
  sounder : Option Nat
  gateReset : Option Byte
  deriving DecidableEq, Repr

/-- The claim at power-on (R140). -/
def Claim.initial : Claim :=
  { direction := none, slot1 := none, slot2 := none, waitU := false, waitP := false, lastGranted := .outbound }

/-- Latches clear (R140). -/
def Latches.clear : Latches := { tailgate := false, forced := false, reverse := false, intrusion := false }

/-! ## Emergency Unit -/

/-- The Emergency Unit: fire input as last taken, host flag, line emergency state (true is ACTIVE) (08). -/
structure Emergency where
  fire : Bool
  hostFlag : Bool
  line : Bool
  deriving DecidableEq, Repr

/-! ## Fare Journal -/

/-- Record kinds, in the order of R195. -/
inductive RecKind where
  | entry | graceEntry | penaltyEntry | exit | missingEntryExit | freeExit
  | cardBlocked | inDoubt | resolved | refusal | exitGrace | regrant | doubleRegrant | staffPass | cloneLate
  | unusedCredit | alarm | gateFault | emergencyStart | emergencyEnd | shareDropped | membership
  deriving DecidableEq, Repr

/-- The two classes of records (R151). -/
inductive RecClass where
  | revenue | event
  deriving DecidableEq, Repr

/-- The qualifying names of R151. -/
inductive Reason where
  | clone | denied
  | refusal (reason : RefusalReason)
  | expired | gateFault | emergency
  | alarm (kind : AlarmKind)
  | opening | closing
  | fire | host | peerAssert | peerDeassert | peerRefresh | peerHold | peerLost | reset
  | dropped (kind : MsgKind)
  | heard | lost | joined | addressConflict
  deriving DecidableEq, Repr

/-- How a blocking write or an in-doubt write ended (R150). -/
inductive WriteOutcome where
  | committed | voided | abandoned
  deriving DecidableEq, Repr

/-- What the producer of a record gives: every field of R150 but serial and time. -/
structure RecBody where
  kind : RecKind
  side : Option Side := none
  card : Option CardNo := none
  txc : Option Nat := none
  fare : Option Nat := none
  balance : Option Int := none
  reason : Option Reason := none
  related : Option Nat := none
  outcome : Option WriteOutcome := none
  peer : Option Nat := none
  deriving DecidableEq, Repr

/-- A journal record (R150). -/
structure Record where
  serial : Nat
  time : Nat
  body : RecBody
  deriving DecidableEq, Repr

/-- The Fare Journal: records oldest first, next serial, halted flag (09). Its levels stand with the parameters. A
serial is an unbounded number (DESIGN CHOICE, log 29). -/
structure Journal where
  records : List Record
  nextSerial : Nat
  halted : Bool
  deriving DecidableEq, Repr

/-! ## Time Base -/

/-- The Time Base (R64, R65, R67). -/
structure TimeBase where
  now : Nat
  set : Bool
  offset : Int
  boundary : Nat
  deriving DecidableEq, Repr

/-! ## Service Controller -/

/-- Service states (R164). -/
inductive ServiceState where
  | outOfService | suspended | inService | suspending
  deriving DecidableEq, Repr

/-- Aisle modes (R41). -/
inductive AisleMode where
  | bidirectional | entryOnly | exitOnly
  deriving DecidableEq, Repr

/-- The station settings of the Service Controller (R170). -/
structure Station where
  number : Nat
  zones : Zones
  mode : AisleMode
  deriving DecidableEq, Repr

/-- A band (R52). -/
structure Band where
  start : Nat
  multiplier : Nat
  deriving DecidableEq, Repr

/-- A class record (R53, R173). -/
structure ClassRec where
  valid : Bool
  discount : Nat
  cap : Nat
  overdraft : Nat
  entryMin : Nat
  deriving DecidableEq, Repr

/-- The class records 0 to 7 (R173). -/
structure ClassTable where
  c0 : ClassRec
  c1 : ClassRec
  c2 : ClassRec
  c3 : ClassRec
  c4 : ClassRec
  c5 : ClassRec
  c6 : ClassRec
  c7 : ClassRec
  deriving DecidableEq, Repr

/-- The weekend mask, Monday to Sunday (R52). -/
structure WeekMask where
  mon : Bool
  tue : Bool
  wed : Bool
  thu : Bool
  fri : Bool
  sat : Bool
  sun : Bool
  deriving DecidableEq, Repr

/-- The parameters (R174). -/
structure Params where
  grace : Nat
  transferWindow : Nat
  maxLegs : Nat
  tMax : Nat
  surcharge : Nat
  penalty : Nat
  creditLifetime : Nat
  aisleWait : Nat
  regrantWindow : Nat
  sightingLifetime : Nat
  inDoubtLifetime : Nat
  noticeLevel : Nat
  haltLevel : Nat
  resumeLevel : Nat
  sounderDuration : Nat
  emergencyHold : Nat
  weekend : WeekMask
  deriving DecidableEq, Repr

/-- The states of a scheme slot (R3). -/
inductive SchemeState where
  | empty | accepted | current | retired
  deriving DecidableEq, Repr

/-- The four scheme slots (R3). -/
structure Schemes where
  s1 : SchemeState
  s2 : SchemeState
  s3 : SchemeState
  s4 : SchemeState
  deriving DecidableEq, Repr

/-- The Service Controller (10). `rows` holds the matrix rows loaded since N was last set, by row number. -/
structure Service where
  state : ServiceState
  zoneCount : Option Nat
  rows : List (Nat × List Nat)
  weekday : Option (List Band)
  weekendSet : Option (List Band)
  classes : ClassTable
  station : Option Station
  params : Params
  schemes : Schemes
  suspends : List Byte
  deriving DecidableEq, Repr

/-- The readiness items that are missing (R165); true is missing. -/
structure Missing where
  time : Bool
  station : Bool
  zones : Bool
  bands : Bool
  classes : Bool
  scheme : Bool
  deriving DecidableEq, Repr

/-- A class record at power-on (R173). -/
def ClassRec.invalid : ClassRec := { valid := false, discount := 0, cap := 0, overdraft := 0, entryMin := 0 }

/-- The class table at power-on (R173). -/
def ClassTable.initial : ClassTable :=
  { c0 := .invalid, c1 := .invalid, c2 := .invalid, c3 := .invalid, c4 := .invalid, c5 := .invalid, c6 := .invalid,
    c7 := .invalid }

/-- The power-on defaults of R174. -/
def Params.default : Params :=
  { grace := 120, transferWindow := 1800, maxLegs := 3, tMax := 10800, surcharge := 500, penalty := 800,
    creditLifetime := 8, aisleWait := 3, regrantWindow := 90, sightingLifetime := 7200, inDoubtLifetime := 900,
    noticeLevel := 1024, haltLevel := 1920, resumeLevel := 1536, sounderDuration := 5, emergencyHold := 60,
    weekend := { mon := false, tue := false, wed := false, thu := false, fri := false, sat := true, sun := true } }

/-- The Service Controller at power-on (R176), with the scheme slots that persist (R4). -/
def Service.initial (schemes : Schemes) : Service :=
  { state := .outOfService, zoneCount := none, rows := [], weekday := none, weekendSet := none, classes := .initial,
    station := none, params := .default, schemes := schemes, suspends := [] }

/-! ## Host Link Controller -/

/-- The outcome names of a tap result (R45). -/
inductive TapOutcome where
  | committed (kind : CommitKind)
  | free | exitGrace | regrant | recovered | inDoubt | clone
  | refused (reason : RefusalReason)
  deriving DecidableEq, Repr

/-- A side's latest tap result (R45). -/
structure TapResult where
  outcome : TapOutcome
  card : Option CardNo
  fare : Option Nat
  balance : Option Int
  deriving DecidableEq, Repr

/-- The kinds of clone findings (R188). -/
inductive FindingKind where
  | clone | cloneLate | doubleRegrant
  deriving DecidableEq, Repr

/-- A clone finding (R188). -/
structure Finding where
  card : CardNo
  kind : FindingKind
  deriving DecidableEq, Repr

/-- The ten notice kinds, in the order of R185 (R191). -/
inductive NoticeKind where
  | emergencyChange | alarm | gateFault | cloneDetected | journalHalt | tapResultU | tapResultP | journalLevel
  | membershipChange | serviceState
  deriving DecidableEq, Repr

/-- The refusal codes, in the order of R180. -/
inductive RefusalCode where
  | busy | tagInUse | unknownKind | badLength | notSuspended | range | notReady | tableFull | notFound | schemeState
  | aisleBusy | gateState | mismatch | cancelled
  deriving DecidableEq, Repr

/-- The request kinds, in the order of the catalogue of R181 (R191). -/
inductive ReqKind where
  | identify | status | setTime | getTime | suspend | resume | reset | setStation | setZoneCount | loadZoneRow
  | loadBandSet | setClass | setParameters | selectScheme | retireScheme | denyAdd | denyRemove | denyClear
  | denyQuery | sightingQuery | syncLine | journalPeek | journalDrop | staffPass | holdOpen | holdRelease | gateReset
  | alarmClear | setEmergency | clearEmergency
  | unknown (kind : Byte)
  deriving DecidableEq, Repr

/-- A credit as STATUS shows it (R183): its deadline as the time left. -/
structure CreditView where
  direction : Direction
  origin : CreditOrigin
  assigned : Bool
  left : Option Nat
  deriving DecidableEq, Repr

/-- An occupant as STATUS shows it (R183). -/
structure OccupantView where
  direction : Direction
  stage : Stage
  holdsCredit : Bool
  deriving DecidableEq, Repr

/-- The kind of a contribution without its deadline (R102). -/
inductive ContributionKind where
  | none | asserted | held
  deriving DecidableEq, Repr

/-- A member row as STATUS shows it (R183). -/
structure RowView where
  present : Bool
  lastHeard : Option Nat
  contribution : ContributionKind
  deriving DecidableEq, Repr

/-- A token state by name (R103). -/
inductive TokenName where
  | waiting | sending | inviting | passing
  deriving DecidableEq, Repr

/-- Number of sighting entries by state (R95). -/
structure SightCounts where
  committed : Nat
  pendingLocal : Nat
  inDoubt : Nat
  deriving DecidableEq, Repr

/-- The journal's counters as replies give them (R160, R183). -/
structure JournalView where
  count : Nat
  oldest : Option Nat
  next : Nat
  halted : Bool
  deriving DecidableEq, Repr

/-- The STATUS reply, by owning block (R183). -/
structure StatusBody where
  service : ServiceState
  missing : Missing
  suspends : Nat
  now : Nat
  timeSet : Bool
  portU : PortState
  portP : PortState
  tapU : Option TapResult
  tapP : Option TapResult
  outstanding : Nat
  claim : Claim
  credits : List CreditView
  occupants : List OccupantView
  commandOpen : Bool
  leaf : LeafState
  holdOpen : Bool
  latches : Latches
  sounderRuns : Bool
  fire : Bool
  hostFlag : Bool
  own : Bool
  line : Bool
  addr : Nat
  link : LinkState
  token : TokenName
  rows : List RowView
  queued : Nat
  denyCount : Nat
  localCount : Nat
  sightings : SightCounts
  journal : JournalView
  noticeLevel : Nat
  haltLevel : Nat
  resumeLevel : Nat
  deriving DecidableEq, Repr

/-- The GET_TIME reply (R66). -/
structure TimeBody where
  now : Nat
  set : Bool
  offset : Int
  boundary : Nat
  serviceDay : Nat
  dayOfWeek : Nat
  minuteOfDay : Nat
  deriving DecidableEq, Repr

/-- The body of a reply: its status, and the fields the owning rule names (R180, R191). -/
inductive ReplyBody where
  | refused (code : RefusalCode)
  | notReady (missing : Missing)
  | range (field : Nat)
  | mismatch (count : Nat) (oldest : Option Nat) (next : Nat)
  | ok
  | offline
  | fault
  | identify (speed : Nat) (schemes : Schemes)
  | status (body : StatusBody)
  | setTime (before after : Nat)
  | time (body : TimeBody)
  | serviceState (state : ServiceState)
  | loaded (state : ServiceState) (missing : Missing)
  | schemes (slots : Schemes)
  | denyCounts (entries locals : Nat)
  | denyRemoved (origin : DenyOrigin) (entries locals : Nat)
  | denyCleared (removed entries locals : Nat)
  | denyEntry (origin : DenyOrigin) (action : DenyAction) (added : Nat) (entries locals : Nat)
  | sighting (entry : Sighting) (heldUpdate : Bool) (counts : SightCounts)
  | synced (dropped : Nat)
  | peeked (journal : JournalView) (records : List Record)
  | removed (removed : Nat) (journal : JournalView)
  | gate (leaf : LeafState)
  | latches (latches : Latches)
  | emergency (hostFlag own line : Bool)
  deriving DecidableEq, Repr

/-- A reply waiting or being sent (R180); a link refusal does not stand in the window (R179). -/
structure Reply where
  tag : Byte
  kind : ReqKind
  body : ReplyBody
  linkRefusal : Bool
  deriving DecidableEq, Repr

/-- The body of a notice, a snapshot (R186). -/
inductive NoticeBody where
  | emergencyChange (fire hostFlag own line : Bool) (rows : List (Nat × ContributionKind))
  | alarm (latches : Latches) (last : Option (AlarmKind × Option Side))
  | gateFault (leaf : LeafState) (last : Option Travel)
  | cloneDetected (finding : Option Finding) (count : Nat)
  | journalHalt (journal : JournalView)
  | tapResult (side : Side) (result : Option TapResult)
  | journalLevel (count : Nat) (level : Nat) (oldest : Option Nat)
  | membershipChange (addr : Nat) (link : LinkState) (rows : List (Bool × Option Nat))
  | serviceState (state : ServiceState) (missing : Missing)
  deriving DecidableEq, Repr

/-- A frame in transmission on the host line (R185). -/
inductive HostTx where
  | reply (reply : Reply)
  | notice (body : NoticeBody)
  deriving DecidableEq, Repr

/-- The Host Link Controller (11). `speed` is in hundreds of baud (R183). -/
structure HostLink where
  speed : Nat
  rxInFrame : Bool
  window : List Byte
  replies : List Reply
  tx : Option HostTx
  notices : List NoticeKind
  tapU : Option TapResult
  tapP : Option TapResult
  finding : Option Finding
  findings : Nat
  resetTaken : Bool
  deriving DecidableEq, Repr

/-- The Host Link Controller at power-on (R189). -/
def HostLink.initial (speed : Nat) : HostLink :=
  { speed := speed, rxInFrame := false, window := [], replies := [], tx := none, notices := [], tapU := none,
    tapP := none, finding := none, findings := 0, resetTaken := false }

/-! ## The whole part -/

/-- The state of the part. `clock` (interval clock, DESIGN CHOICE, log 1), `freeReads` (free value, log 9) and
`pending` (the queue of commands,
first in first out) are the model's own; every other field is the spec's. -/
structure State where
  pins : Pins
  clock : Nat
  freeReads : Nat
  portU : Port
  portP : Port
  screening : Screening
  link : Link
  passage : Passage
  emergency : Emergency
  journal : Journal
  time : TimeBase
  service : Service
  host : HostLink
  pending : List Instr
  deriving DecidableEq, Repr

/-- Why a step can stop with a fault. The manual stops the part on no event: leaf FAULT, the journal's halt and the
link's OFFLINE are states the part goes on in. So nothing raises a fault, and there is no constructor. -/
inductive Fault where
  deriving DecidableEq, Repr

/-- Why a step can be refused by the model. -/
inductive Refusal where
  /-- Raised by an arm of `exec` whose command has no meaning yet. Safe: the model stops where the part goes on. -/
  | notModelled (mnemonic : String)
  deriving DecidableEq, Repr

/-- The levels of the pins in `State.reset`: nothing asserted, straps low, leaves closed. DESIGN CHOICE (log 3). -/
def quietPins : Pins :=
  { fire := false, strap1 := false, strap2 := false, mouthU := false, leaf := false, mouthP := false,
    openSwitch := false, closedSwitch := true }

/-- The part right after power-on with the pins quiet and every scheme slot ACCEPTED (DESIGN CHOICE, log 3, 4): each
block at the
power-on value of its reset rule (R25, R48, R64, R65, R67, R96, R116, R140, R148, R163, R176, R189). -/
def State.reset : State :=
  { pins := quietPins, clock := 0, freeReads := 0, portU := .initial, portP := .initial,
    screening := { deny := [], sightings := [], order := 0 },
    link := .initial,
    passage :=
      { claim := .initial, credits := [], occupants := [], leaf := .closed, travel := none, holdOpen := false,
        latches := .clear, lastAlarm := none, lastFault := none, sounder := none, gateReset := none },
    emergency := { fire := false, hostFlag := false, line := false },
    journal := { records := [], nextSerial := 1, halted := false },
    time := { now := 0, set := false, offset := 0, boundary := 180 },
    service := .initial { s1 := .accepted, s2 := .accepted, s3 := .accepted, s4 := .accepted },
    host := .initial 1152,
    pending := [] }

end Sys2Proof.Machine
end

