-- ==== Sys2Proof/Machine/Flags.lean ====
section
/-! DEFINITION. Everything the manual derives from other state: local time, readiness, the own contribution, the leaf
command, what disables a port, the outputs (lamps, sounder, drives), and the views that replies and notices give. -/

namespace Sys2Proof.Machine

/-! ## Sides and directions -/

/-- The direction a side's reader serves: INBOUND at U, OUTBOUND at P (Conventions). -/
def dirOf : Side → Direction
  | .U => .inbound
  | .P => .outbound

/-- The side of a direction: U for INBOUND, P for OUTBOUND (R122). It is also the origin mouth of a body that moves
in that direction (07). -/
def sideOf : Direction → Side
  | .inbound => .U
  | .outbound => .P

/-- The other side. -/
def otherSide : Side → Side
  | .U => .P
  | .P => .U

/-- The far mouth of a body that moves in a direction (07). -/
def farMouth (d : Direction) : Side := otherSide (sideOf d)

/-- The port of a side. -/
def State.port (s : State) : Side → Port
  | .U => s.portU
  | .P => s.portP

/-- Whether a mouth zone is occupied. -/
def State.mouth (s : State) : Side → Bool
  | .U => s.pins.mouthU
  | .P => s.pins.mouthP

/-! ## Local time (R68, R69) -/

/-- Local seconds of a time. -/
def TimeBase.localSeconds (tb : TimeBase) (t : Nat) : Int := (t : Int) + 60 * tb.offset

/-- Minute of day of a time: calendar local time, from the floor remainder by 86,400 (R68). -/
def TimeBase.minuteOfDay (tb : TimeBase) (t : Nat) : Nat := (tb.localSeconds t % 86400 / 60).toNat

/-- Service day of a time, 0 before the first boundary (R69). -/
def TimeBase.serviceDay (tb : TimeBase) (t : Nat) : Nat :=
  ((tb.localSeconds t - 60 * (tb.boundary : Int)) / 86400).toNat

/-- Day of week of a service day: 0 is Monday (R69). -/
def dayOfWeek (day : Nat) : Nat := (day + 5) % 7

/-- Time elapsed since a time held on the card, 0 when that time is later (R27). -/
def elapsed (tapTime t : Nat) : Nat := tapTime - t

/-! ## Readiness (R165) -/

/-- The state of slot `n`, 1 to 4; a number outside has no slot and counts as EMPTY. -/
def Schemes.get (s : Schemes) : Nat → SchemeState
  | 1 => s.s1
  | 2 => s.s2
  | 3 => s.s3
  | 4 => s.s4
  | _ => .empty

/-- The four slots with slot `n` set. -/
def Schemes.put (s : Schemes) (n : Nat) (v : SchemeState) : Schemes :=
  match n with
  | 1 => { s with s1 := v }
  | 2 => { s with s2 := v }
  | 3 => { s with s3 := v }
  | 4 => { s with s4 := v }
  | _ => s

/-- The CURRENT slot, if any (R3). -/
def Schemes.current (s : Schemes) : Option Nat := [1, 2, 3, 4].find? fun n => s.get n == .current

/-- A CURRENT slot goes back to ACCEPTED: at power-on, and when another slot is selected (R4). -/
def SchemeState.deselect : SchemeState → SchemeState
  | .empty => .empty
  | .accepted => .accepted
  | .current => .accepted
  | .retired => .retired

/-- All four slots deselected (R4). -/
def Schemes.deselect (s : Schemes) : Schemes :=
  { s1 := s.s1.deselect, s2 := s.s2.deselect, s3 := s.s3.deselect, s4 := s.s4.deselect }

/-- The class record of class `k`; a class above 7 is never accepted (R1). -/
def ClassTable.get (c : ClassTable) : Nat → ClassRec
  | 0 => c.c0
  | 1 => c.c1
  | 2 => c.c2
  | 3 => c.c3
  | 4 => c.c4
  | 5 => c.c5
  | 6 => c.c6
  | 7 => c.c7
  | _ => .invalid

/-- The class table with the record of class `k` set. -/
def ClassTable.put (c : ClassTable) (k : Nat) (r : ClassRec) : ClassTable :=
  match k with
  | 0 => { c with c0 := r }
  | 1 => { c with c1 := r }
  | 2 => { c with c2 := r }
  | 3 => { c with c3 := r }
  | 4 => { c with c4 := r }
  | 5 => { c with c5 := r }
  | 6 => { c with c6 := r }
  | 7 => { c with c7 := r }
  | _ => c

/-- Whether the mask flags a day of week, Monday 0 to Sunday 6. -/
def WeekMask.flags (w : WeekMask) : Nat → Bool
  | 0 => w.mon
  | 1 => w.tue
  | 2 => w.wed
  | 3 => w.thu
  | 4 => w.fri
  | 5 => w.sat
  | 6 => w.sun
  | _ => false

/-- Whether the mask flags some day. -/
def WeekMask.any (w : WeekMask) : Bool := w.mon || w.tue || w.wed || w.thu || w.fri || w.sat || w.sun

/-- STATION is ready: settings loaded and their zones at most N (R165). -/
def Service.stationReady (v : Service) : Bool :=
  match v.station, v.zoneCount with
  | some st, some n => decide (st.zones.first ≤ n) && decide (st.zones.second.getD 0 ≤ n)
  | _, _ => false

/-- ZONES is ready: N set and every row 1 to N loaded since (R165). -/
def Service.zonesReady (v : Service) : Bool :=
  match v.zoneCount with
  | some n => (List.range n).all fun i => v.rows.any fun r => r.1 == i + 1
  | none => false

/-- BANDS is ready (R165). -/
def Service.bandsReady (v : Service) : Bool :=
  v.weekday.isSome && (!v.params.weekend.any || v.weekendSet.isSome)

/-- CLASSES is ready: some class record is valid (R165). -/
def Service.classesReady (v : Service) : Bool := (List.range 8).any fun k => (v.classes.get k).valid

/-- The readiness items that are missing (R165). -/
def State.missing (s : State) : Missing :=
  { time := !s.time.set, station := !s.service.stationReady, zones := !s.service.zonesReady,
    bands := !s.service.bandsReady, classes := !s.service.classesReady,
    scheme := s.service.schemes.current.isNone }

/-- Some item is missing. -/
def Missing.any (m : Missing) : Bool := m.time || m.station || m.zones || m.bands || m.classes || m.scheme

/-! ## Ports -/

/-- The aisle mode disables Port P in ENTRY_ONLY and Port U in EXIT_ONLY (R41). -/
def AisleMode.disables : AisleMode → Side → Bool
  | .bidirectional, _ => false
  | .entryOnly, .P => true
  | .entryOnly, .U => false
  | .exitOnly, .U => true
  | .exitOnly, .P => false

/-- A port is disabled while the service state is not IN_SERVICE or the aisle mode disables it (R23). -/
def State.disabled (s : State) (side : Side) : Bool :=
  s.service.state != .inService || s.service.station.elim false fun st => st.mode.disables side

/-- A port is idle for SUSPEND while it holds no tap context (R167). -/
def State.portsIdle (s : State) : Bool := s.portU.ctx.isNone && s.portP.ctx.isNone

/-! ## Emergency -/

/-- The own contribution: the fire input or the host emergency flag (R141). -/
def Emergency.own (e : Emergency) : Bool := e.fire || e.hostFlag

/-- A row counts towards ACTIVE while ASSERTED or HELD (R145). -/
def MemberRow.contributes (r : MemberRow) : Bool :=
  match r.contribution with
  | .none => false
  | .asserted _ => true
  | .held _ => true

/-- What the line emergency state is judged to be (R145). -/
def State.lineJudged (s : State) : Bool := s.emergency.own || s.link.rows.any MemberRow.contributes

/-! ## Aisle -/

/-- The leaf command is OPEN while the line emergency is ACTIVE, hold-open is in force or a credit stands (R133). -/
def State.commandOpen (s : State) : Bool := s.emergency.line || s.passage.holdOpen || !s.passage.credits.isEmpty

/-- Passage alarms but INTRUSION are suppressed in hold-open and emergency (R127). -/
def State.alarmsSuppressed (s : State) : Bool := s.passage.holdOpen || s.emergency.line

/-- Some latch is set. -/
def Latches.any (l : Latches) : Bool := l.tailgate || l.forced || l.reverse || l.intrusion

/-- The latch of a kind. -/
def Latches.get (l : Latches) : AlarmKind → Bool
  | .tailgate => l.tailgate
  | .forced => l.forced
  | .reverse => l.reverse
  | .intrusion => l.intrusion

/-- The latches with that of a kind set. -/
def Latches.setOn (l : Latches) : AlarmKind → Latches
  | .tailgate => { l with tailgate := true }
  | .forced => { l with forced := true }
  | .reverse => { l with reverse := true }
  | .intrusion => { l with intrusion := true }

/-- The latches that stay set after clearing the named ones (R132). -/
def Latches.clearing (l named : Latches) : Latches :=
  { tailgate := l.tailgate && !named.tailgate, forced := l.forced && !named.forced,
    reverse := l.reverse && !named.reverse, intrusion := l.intrusion && !named.intrusion }

/-- Whether a latching at `from_` is younger than a sounder duration. -/
def soundsFor (clock duration from_ : Nat) : Bool := decide (clock < from_ + 1000 * duration)

/-- The sounder runs while a latch is set and less than the duration has passed since the latest latching (R131). -/
def State.sounderRuns (s : State) : Bool :=
  s.passage.latches.any && s.passage.sounder.elim false (soundsFor s.clock s.service.params.sounderDuration)

/-- The open drive is on while OPENING, the close drive while CLOSING (R134). -/
def State.openDrive (s : State) : Bool := s.passage.leaf == .opening

/-- The close drive (R134). -/
def State.closeDrive (s : State) : Bool := s.passage.leaf == .closing

/-- The three lamps of a side (R24). -/
structure Lamps where
  wait : Bool
  go : Bool
  stop : Bool
  deriving DecidableEq, Repr

/-- WAIT is lit in these port states (R24). -/
def PortState.waitLamp : PortState → Bool
  | .disabled | .idle | .done => false
  | .detected | .waitAisle | .reading | .screening | .writing | .confirming => true

/-- A blocking write is under way: its context holds the verdict fixed before it (R20). -/
def Port.blocking (p : Port) : Bool := p.ctx.elim false fun c => c.verdict.isSome

/-- The lamps of a side; STOP stays lit through a blocking write (R24). -/
def State.lamps (s : State) (side : Side) : Lamps :=
  { wait := (s.port side).state.waitLamp,
    go := s.passage.credits.any (fun c => c.direction == dirOf side) || (side == .P && s.emergency.line),
    stop := (s.port side).stopHold.elim false (fun t => decide (s.clock < t)) || (s.port side).blocking
      || s.passage.claim.direction == some (dirOf (otherSide side)) || (s.port side).state == .disabled }

/-! ## Counts and views -/

/-- The serial of the oldest record, absent when the journal is empty. -/
def Journal.oldest (j : Journal) : Option Nat := j.records.head?.map Record.serial

/-- The journal's counters (R160). -/
def Journal.view (j : Journal) : JournalView :=
  { count := j.records.length, oldest := j.oldest, next := j.nextSerial, halted := j.halted }

/-- Whether a deny entry is LOCAL or PEER (R72). -/
def DenyEntry.isLocal (e : DenyEntry) : Bool :=
  match e.origin with
  | .central => false
  | .own => true
  | .peer _ => true

/-- The local count: LOCAL and PEER entries together (R72). -/
def Screening.localCount (c : Screening) : Nat := c.deny.countP DenyEntry.isLocal

/-- COMMITTED. -/
def Sighting.isCommitted (e : Sighting) : Bool :=
  match e.state with
  | .committed _ => true
  | .pendingLocal _ => false
  | .inDoubt _ _ => false

/-- PENDING_LOCAL. -/
def Sighting.isPending (e : Sighting) : Bool :=
  match e.state with
  | .committed _ => false
  | .pendingLocal _ => true
  | .inDoubt _ _ => false

/-- IN_DOUBT. -/
def Sighting.isInDoubt (e : Sighting) : Bool :=
  match e.state with
  | .committed _ => false
  | .pendingLocal _ => false
  | .inDoubt _ _ => true

/-- Numbers of sighting entries by state (R95). -/
def Screening.counts (c : Screening) : SightCounts :=
  { committed := c.sightings.countP Sighting.isCommitted, pendingLocal := c.sightings.countP Sighting.isPending,
    inDoubt := c.sightings.countP Sighting.isInDoubt }

/-- A credit as STATUS shows it (R183). -/
def Credit.view (clock : Nat) (c : Credit) : CreditView :=
  match c.state with
  | .unassigned t => { direction := c.direction, origin := c.origin, assigned := false, left := some (t - clock) }
  | .assigned => { direction := c.direction, origin := c.origin, assigned := true, left := none }

/-- An occupant as STATUS shows it (R183). -/
def Occupant.view (o : Occupant) : OccupantView :=
  { direction := o.direction, stage := o.stage, holdsCredit := o.credit.isSome }

/-- The name of a contribution. -/
def Contribution.kind : Contribution → ContributionKind
  | .none => .none
  | .asserted _ => .asserted
  | .held _ => .held

/-- A member row as STATUS shows it (R183). -/
def MemberRow.view (r : MemberRow) : RowView :=
  { present := r.present, lastHeard := r.lastHeard, contribution := r.contribution.kind }

/-- The name of a token state. -/
def TokenState.name : TokenState → TokenName
  | .waiting => .waiting
  | .sending => .sending
  | .inviting _ _ => .inviting
  | .passing _ _ => .passing

/-- The STATUS reply (R183). -/
def State.statusBody (s : State) : StatusBody :=
  { service := s.service.state, missing := s.missing, suspends := s.service.suspends.length,
    now := s.time.now, timeSet := s.time.set, portU := s.portU.state, portP := s.portP.state,
    tapU := s.host.tapU, tapP := s.host.tapP, outstanding := s.host.window.length,
    claim := s.passage.claim, credits := s.passage.credits.map (Credit.view s.clock),
    occupants := s.passage.occupants.map Occupant.view, commandOpen := s.commandOpen, leaf := s.passage.leaf,
    holdOpen := s.passage.holdOpen, latches := s.passage.latches, sounderRuns := s.sounderRuns,
    fire := s.emergency.fire, hostFlag := s.emergency.hostFlag, own := s.emergency.own, line := s.emergency.line,
    addr := s.link.addr, link := s.link.state, token := s.link.token.name, rows := s.link.rows.map MemberRow.view,
    queued := s.link.queue.length, denyCount := s.screening.deny.length, localCount := s.screening.localCount,
    sightings := s.screening.counts, journal := s.journal.view, noticeLevel := s.service.params.noticeLevel,
    haltLevel := s.service.params.haltLevel, resumeLevel := s.service.params.resumeLevel }

/-- The GET_TIME reply, from one reading of the counter (R66). -/
def TimeBase.body (tb : TimeBase) : TimeBody :=
  { now := tb.now, set := tb.set, offset := tb.offset, boundary := tb.boundary, serviceDay := tb.serviceDay tb.now,
    dayOfWeek := dayOfWeek (tb.serviceDay tb.now), minuteOfDay := tb.minuteOfDay tb.now }

/-- The host line speed in hundreds of baud, from the two straps (R177, R183). -/
def lineSpeed (p : Pins) : Nat :=
  match p.strap1, p.strap2 with
  | false, false => 1152
  | true, false => 4608
  | false, true => 9216
  | true, true => 1152

end Sys2Proof.Machine
end

