-- ==== Sys2Proof/Machine/Formats.lean ====
section
/-! DEFINITION. Field encodings, the check value, and the card areas (R190, R193). -/

namespace Sys2Proof.Machine

/-- `n` in `k` bytes, most significant byte first (R190). -/
def be : Nat → Nat → List Byte
  | 0, _ => []
  | k + 1, n => be k (n / 256) ++ [BitVec.ofNat 8 n]

/-- The number that bytes spell, most significant byte first (R190). -/
def ofBe (bs : List Byte) : Nat := bs.foldl (fun acc b => acc * 256 + b.toNat) 0

/-- `len` bytes from offset `off`, as a number. -/
def fieldAt (bs : List Byte) (off len : Nat) : Nat := ofBe ((bs.drop off).take len)

/-- Two's complement of `k` bytes (R190). -/
def signedBe (k : Nat) (n : Int) : List Byte := be k (n % (256 ^ k : Nat)).toNat

/-- Reading two's complement of `k` bytes (R190). -/
def ofSigned (k n : Nat) : Int := if 2 * n < 256 ^ k then (n : Int) else (n : Int) - (256 ^ k : Nat)

/-- One bit of the CRC-16 register: polynomial x^16 + x^12 + x^5 + 1 (R190). -/
def crcShift (r : BitVec 16) : BitVec 16 := if r.msb then (r <<< 1) ^^^ 0x1021#16 else r <<< 1

/-- One byte into the CRC-16 register, most significant bit first (R190). -/
def crcByte (r : BitVec 16) (b : Byte) : BitVec 16 :=
  Nat.iterate crcShift 8 (r ^^^ (b.setWidth 16 <<< 8))

/-- The CRC-16 of host frames, link frames and reader-line frames: all ones at the start, not inverted (R190). -/
def crc16 (bs : List Byte) : BitVec 16 := bs.foldl crcByte 0xFFFF#16

/-- Bytes closed by their CRC, most significant byte first (R190). -/
def withCrc (bs : List Byte) : List Byte := bs ++ be 2 (crc16 bs).toNat

/-! ## The header area (R193) -/

/-- Status codes of the header (R193). -/
def CardStatus.code : CardStatus → Nat
  | .active => 1
  | .blocked => 2

/-- The 8 bytes of a header (R193). -/
def Header.bytes (h : Header) : List Byte :=
  be 4 h.card.toNat ++ be 1 h.cls ++ be 1 h.status.code ++ be 2 h.expiry

/-- The header that 8 bytes spell, if the port accepts it for the card that was detected (R1, R193). -/
def Header.accept (card : CardNo) (bs : List Byte) : Option Header :=
  let number : CardNo := BitVec.ofNat 32 (fieldAt bs 0 4)
  let cls := fieldAt bs 4 1
  let status : Option CardStatus :=
    match fieldAt bs 5 1 with
    | 1 => some .active
    | 2 => some .blocked
    | _ => none
  if bs.length = 8 ∧ number = card ∧ card ≠ 0 ∧ card ≠ BitVec.allOnes 32 ∧ cls ≤ 7 then
    status.map fun st => { card := number, cls := cls, status := st, expiry := fieldAt bs 6 2 }
  else none

/-! ## The image areas (R193) -/

/-- Journey state codes (R193). -/
def Journey.code : Journey → Nat
  | .outside => 1
  | .inSystem => 2

/-- Zones in two bytes, 0 for an absent second zone (R193). -/
def Zones.bytes (z : Zones) : List Byte := be 1 z.first ++ be 1 (z.second.getD 0)

/-- Zones from their two codes; a first zone of 0 or a zone above 16 is out of range (R193). -/
def Zones.read (first second : Nat) : Option Zones :=
  if 1 ≤ first ∧ first ≤ 16 ∧ second ≤ 16 then
    some { first := first, second := if second = 0 then none else some second }
  else none

/-- The flags byte of an image (R193). -/
def Image.flags (i : Image) : Nat := (if i.graceUsed then 1 else 0) + (if i.lastExit.isSome then 2 else 0)

/-- Image bytes 0 to 35, what the stamp covers beside the card number (R193). -/
def Image.covered (i : Image) : List Byte :=
  be 2 i.txc ++ signedBe 4 i.balance ++ be 1 i.journey.code ++ be 2 i.entryStation ++ i.entryZones.bytes
    ++ be 4 i.entryTime ++ i.originZones.bytes ++ be 4 i.chainStart ++ be 2 i.chainPaid ++ be 1 i.chainLegs
    ++ be 2 (i.lastExit.elim 0 LastExit.station) ++ be 4 (i.lastExit.elim 0 LastExit.time) ++ be 1 i.flags
    ++ be 2 i.capDay ++ be 2 i.spent ++ be 1 i.scheme

/-- The 40 bytes of an image area (R193). -/
def Image.bytes (i : Image) : List Byte := i.covered ++ be 4 i.stamp.toNat

/-- The last exit from its flag and codes: when the flag is clear both codes must be 0 (R193). -/
def LastExit.read (present : Bool) (station time : Nat) : Option (Option LastExit) :=
  if present then
    if 1 ≤ station ∧ station ≤ 4095 then some (some { station := station, time := time }) else none
  else if station = 0 ∧ time = 0 then some none else none

/-- The image that 40 bytes spell, absent when a field is out of range (R2, R193). -/
def Image.read (bs : List Byte) : Option Image :=
  let at_ := fieldAt bs
  let balance := ofSigned 4 (at_ 2 4)
  let journey : Option Journey :=
    match at_ 6 1 with
    | 1 => some .outside
    | 2 => some .inSystem
    | _ => none
  let flags := at_ 30 1
  match journey, Zones.read (at_ 9 1) (at_ 10 1), Zones.read (at_ 15 1) (at_ 16 1),
      LastExit.read (flags / 2 % 2 == 1) (at_ 24 2) (at_ 26 4) with
  | some j, some entryZones, some originZones, some lastExit =>
    if bs.length = 40 ∧ -50000 ≤ balance ∧ balance ≤ 500000 ∧ 1 ≤ at_ 7 2 ∧ at_ 7 2 ≤ 4095 ∧ at_ 23 1 ≤ 4 ∧ flags < 4
        ∧ 1 ≤ at_ 35 1 ∧ at_ 35 1 ≤ 4 then
      some
        { txc := at_ 0 2, balance := balance, journey := j, entryStation := at_ 7 2, entryZones := entryZones,
          entryTime := at_ 11 4, originZones := originZones, chainStart := at_ 17 4, chainPaid := at_ 21 2,
          chainLegs := at_ 23 1, lastExit := lastExit, graceUsed := flags % 2 == 1, capDay := at_ 31 2,
          spent := at_ 33 2, scheme := at_ 35 1, stamp := BitVec.ofNat 32 (at_ 36 4) }
    else none
  | _, _, _, _ => none

/-- What the stamp of a card's image is computed over: the header's card number, then image bytes 0 to 35 (R193). -/
def stampInput (card : CardNo) (covered : List Byte) : List Byte := be 4 card.toNat ++ covered

/-- The stamp correct for slot `slot` over a card number and the other fields of an image (R6, R193). -/
def Image.stampFor (slot : Nat) (card : CardNo) (i : Image) : Stamp :=
  Config.stampOf slot (stampInput card i.covered)

end Sys2Proof.Machine
end

