-- ==== Sys2Proof/Machine/Operands.lean ====
section
/-! DEFINITION. The bodies of the host requests, as R190 and R191 lay them out and the owning rules bound them. A body
is BAD_LENGTH when its length does not fit the kind's form (R179 check 4), RANGE with the position of the first
offending field when a value breaks the owner's bounds (R191), else the values it carries. -/

namespace Sys2Proof.Machine

/-- What a request body says. -/
inductive Parsed (α : Type) where
  | badLength
  | range (field : Nat)
  | value (a : α)
  deriving DecidableEq, Repr

/-- The position, from 1, of the first check that fails (R191). -/
def firstBad (checks : List Bool) : Option Nat := (checks.findIdx? (!·)).map (· + 1)

/-- The values if every check holds, else RANGE at the first that fails. -/
def judged {α : Type} (checks : List Bool) (a : α) : Parsed α :=
  match firstBad checks with
  | some n => .range n
  | none => .value a

/-- A body without fields. -/
def readEmpty (body : List Byte) : Parsed Unit := if body.length = 0 then .value () else .badLength

/-- SET_TIME: one time value, any 32-bit value (R65). -/
def readTime (body : List Byte) : Parsed Nat := if body.length = 4 then .value (fieldAt body 0 4) else .badLength

/-- What SET_STATION carries (R170). -/
structure StationLoad where
  station : Station
  addr : Nat
  offset : Int
  boundary : Nat
  deriving DecidableEq, Repr

/-- Aisle modes are numbered from 1 in the order of R41 (R190). -/
def AisleMode.ofCode : Nat → Option AisleMode
  | 1 => some .bidirectional
  | 2 => some .entryOnly
  | 3 => some .exitOnly
  | _ => none

/-- SET_STATION: number, primary zone, second zone, aisle mode, line address, local offset, boundary (R170). -/
def readStation (body : List Byte) : Parsed StationLoad :=
  if body.length = 10 then
    let number := fieldAt body 0 2
    let primary := fieldAt body 2 1
    let second := fieldAt body 3 1
    let mode := AisleMode.ofCode (fieldAt body 4 1)
    let addr := fieldAt body 5 1
    let offset := ofSigned 2 (fieldAt body 6 2)
    let boundary := fieldAt body 8 2
    judged
      [decide (1 ≤ number ∧ number ≤ 4095), decide (1 ≤ primary ∧ primary ≤ 16),
        decide (second ≤ 16 ∧ second ≠ primary), mode.isSome, decide (addr ≤ 16),
        decide (-720 ≤ offset ∧ offset ≤ 840), decide (boundary ≤ 1439)]
      { station :=
          { number := number,
            zones := { first := primary, second := if second = 0 then none else some second },
            mode := mode.getD .bidirectional },
        addr := addr, offset := offset, boundary := boundary }
  else .badLength

/-- SET_ZONE_COUNT: N in two bytes, 1 to 16 (R171, DEDUCED, log 25). -/
def readZoneCount (body : List Byte) : Parsed Nat :=
  if body.length = 2 then judged [decide (1 ≤ fieldAt body 0 2 ∧ fieldAt body 0 2 ≤ 16)] (fieldAt body 0 2)
  else .badLength

/-- `count` entries of `size` bytes from offset 2. -/
def entriesOf (body : List Byte) (count size : Nat) : List (List Byte) :=
  (List.range count).map fun i => (body.drop (2 + i * size)).take size

/-- LOAD_ZONE_ROW: row number, entry count, entries (R171, R191). With no zone count set the row number is the
offending field (DEDUCED, log 26). -/
def readZoneRow (zoneCount : Option Nat) (body : List Byte) : Parsed (Nat × List Nat) :=
  let row := fieldAt body 0 1
  let count := fieldAt body 1 1
  if 2 ≤ body.length ∧ body.length = 2 + 2 * count then
    let entries := (entriesOf body count 2).map ofBe
    let n := zoneCount.getD 0
    judged
      (decide (1 ≤ row ∧ row ≤ n) :: decide (count = n) :: entries.map fun e => decide (e ≤ 20000))
      (row, entries)
  else .badLength

/-- The two band sets (R52). -/
inductive BandSet where
  | weekday | weekend
  deriving DecidableEq, Repr

/-- Band sets are numbered from 1 in the order of R172 (R190). -/
def BandSet.ofCode : Nat → Option BandSet
  | 1 => some .weekday
  | 2 => some .weekend
  | _ => none

/-- The checks of the bands of a set, in field order: the first starts at minute 0, each later start lies above the
one before it, multipliers lie in 250 to 4,000 (R172). -/
def bandChecks : Option Nat → List Band → List Bool
  | _, [] => []
  | before, b :: rest =>
    (match before with
      | none => decide (b.start = 0)
      | some m => decide (m < b.start ∧ b.start ≤ 1439))
      :: decide (250 ≤ b.multiplier ∧ b.multiplier ≤ 4000) :: bandChecks (some b.start) rest

/-- LOAD_BAND_SET: set, band count, bands (R172, R191). -/
def readBandSet (body : List Byte) : Parsed (BandSet × List Band) :=
  let set_ := BandSet.ofCode (fieldAt body 0 1)
  let count := fieldAt body 1 1
  if 2 ≤ body.length ∧ body.length = 2 + 4 * count then
    let bands := (entriesOf body count 4).map fun e =>
      ({ start := fieldAt e 0 2, multiplier := fieldAt e 2 2 } : Band)
    judged (set_.isSome :: decide (1 ≤ count ∧ count ≤ 8) :: bandChecks none bands) (set_.getD .weekday, bands)
  else .badLength

/-- SET_CLASS: class number, valid flag (one set of flags with one member, DEDUCED, log 25), discount, cap, overdraft
limit,
entry minimum (R173). -/
def readClass (body : List Byte) : Parsed (Nat × ClassRec) :=
  if body.length = 10 then
    let cls := fieldAt body 0 1
    let valid := fieldAt body 1 1
    let discount := fieldAt body 2 2
    let cap := fieldAt body 4 2
    let overdraft := fieldAt body 6 2
    let entryMin := fieldAt body 8 2
    judged
      [decide (cls ≤ 7), decide (valid ≤ 1), decide (discount ≤ 1000), true, decide (overdraft ≤ 50000),
        decide (entryMin ≤ 50000)]
      (cls, { valid := valid == 1, discount := discount, cap := cap, overdraft := overdraft, entryMin := entryMin })
  else .badLength

/-- Bit `i` of a set of flags, least significant first (R190). -/
def flagBit (n i : Nat) : Bool := n / 2 ^ i % 2 == 1

/-- SET_PARAMETERS: the sixteen values of R174 in its order, two bytes each, max legs among them as a count (DEDUCED,
log 25), then the weekend mask. -/
def readParams (body : List Byte) : Parsed Params :=
  if body.length = 33 then
    let v := fun i => fieldAt body (2 * i) 2
    let mask := fieldAt body 32 1
    judged
      [decide (v 0 ≤ 600), decide (v 1 ≤ 7200), decide (1 ≤ v 2 ∧ v 2 ≤ 4), decide (600 ≤ v 3 ∧ v 3 ≤ 28800),
        decide (v 4 ≤ 10000), decide (v 5 ≤ 20000), decide (3 ≤ v 6 ∧ v 6 ≤ 30), decide (1 ≤ v 7 ∧ v 7 ≤ 10),
        decide (10 ≤ v 8 ∧ v 8 ≤ 300), decide (600 ≤ v 9 ∧ v 9 ≤ 14400), decide (60 ≤ v 10 ∧ v 10 ≤ 3600),
        decide (1 ≤ v 11 ∧ v 11 ≤ v 12), decide (256 ≤ v 12 ∧ v 12 ≤ 1920), decide (v 13 < v 12),
        decide (v 14 ≤ 30), decide (v 15 ≤ 300), decide (mask < 128)]
      { grace := v 0, transferWindow := v 1, maxLegs := v 2, tMax := v 3, surcharge := v 4, penalty := v 5,
        creditLifetime := v 6, aisleWait := v 7, regrantWindow := v 8, sightingLifetime := v 9,
        inDoubtLifetime := v 10, noticeLevel := v 11, haltLevel := v 12, resumeLevel := v 13,
        sounderDuration := v 14, emergencyHold := v 15,
        weekend :=
          { mon := flagBit mask 0, tue := flagBit mask 1, wed := flagBit mask 2, thu := flagBit mask 3,
            fri := flagBit mask 4, sat := flagBit mask 5, sun := flagBit mask 6 } }
  else .badLength

/-- SELECT_SCHEME and RETIRE_SCHEME: a slot number, 1 to 4 (R175). -/
def readScheme (body : List Byte) : Parsed Nat :=
  if body.length = 1 then judged [decide (1 ≤ fieldAt body 0 1 ∧ fieldAt body 0 1 ≤ 4)] (fieldAt body 0 1)
  else .badLength

/-- Card numbers 0 and 4,294,967,295 are not issued (Conventions). -/
def issued (card : CardNo) : Bool := card != 0 && card != BitVec.allOnes 32

/-- Deny actions are numbered from 1 in the order of R72 (R190). -/
def DenyAction.ofCode : Nat → Option DenyAction
  | 1 => some .refuse
  | 2 => some .refuseAndBlock
  | _ => none

/-- DENY_ADD: card number, action (R73). -/
def readDenyAdd (body : List Byte) : Parsed (CardNo × DenyAction) :=
  if body.length = 5 then
    let card : CardNo := BitVec.ofNat 32 (fieldAt body 0 4)
    let action := DenyAction.ofCode (fieldAt body 4 1)
    judged [issued card, action.isSome] (card, action.getD .refuse)
  else .badLength

/-- DENY_REMOVE, DENY_QUERY and SIGHTING_QUERY: a card number, any (R73, R95). -/
def readCard (body : List Byte) : Parsed CardNo :=
  if body.length = 4 then .value (BitVec.ofNat 32 (fieldAt body 0 4)) else .badLength

/-- JOURNAL_PEEK: k in two bytes, 1 to 8 (R160, DEDUCED, log 25). -/
def readPeek (body : List Byte) : Parsed Nat :=
  if body.length = 2 then judged [decide (1 ≤ fieldAt body 0 2 ∧ fieldAt body 0 2 ≤ 8)] (fieldAt body 0 2)
  else .badLength

/-- JOURNAL_DROP: first serial, n from 1 (R161). -/
def readDrop (body : List Byte) : Parsed (Nat × Nat) :=
  if body.length = 8 then judged [true, decide (1 ≤ fieldAt body 6 2)] (fieldAt body 0 6, fieldAt body 6 2)
  else .badLength

/-- Directions of STAFF_PASS are numbered from 1 in the order of R137 (R190). -/
def Direction.ofCode : Nat → Option Direction
  | 1 => some .inbound
  | 2 => some .outbound
  | _ => none

/-- STAFF_PASS: a direction (R137). -/
def readDirection (body : List Byte) : Parsed Direction :=
  if body.length = 1 then
    judged [(Direction.ofCode (fieldAt body 0 1)).isSome] ((Direction.ofCode (fieldAt body 0 1)).getD .inbound)
  else .badLength

/-- ALARM_CLEAR: a set of flags over the four kinds, at least one named (R132, R191). -/
def readLatches (body : List Byte) : Parsed Latches :=
  if body.length = 1 then
    let n := fieldAt body 0 1
    judged [decide (1 ≤ n ∧ n < 16)]
      { tailgate := flagBit n 0, forced := flagBit n 1, reverse := flagBit n 2, intrusion := flagBit n 3 }
  else .badLength

end Sys2Proof.Machine
end

