-- ==== Sys2Proof/Machine/Ops.lean ====
section
/-! DEFINITION. The operations every block shares: block updates, notices and replies, the transmitter, the request
window, the journal's append and halt, and the outbound queue with the completion of SYNC_LINEs. -/

namespace Sys2Proof.Machine

/-- How a command answers. -/
abbrev Result := Host.Outcome State Fault Refusal

/-! ## Updates of one block -/

/-- Update the pins. -/
def State.onPins (f : Pins → Pins) (s : State) : State := { s with pins := f s.pins }
/-- Update the port of a side. -/
def State.onPort (side : Side) (f : Port → Port) (s : State) : State :=
  match side with
  | .U => { s with portU := f s.portU }
  | .P => { s with portP := f s.portP }
/-- Update the Screening Unit. -/
def State.onScreening (f : Screening → Screening) (s : State) : State := { s with screening := f s.screening }
/-- Update the Aisle Link Controller. -/
def State.onLink (f : Link → Link) (s : State) : State := { s with link := f s.link }
/-- Update the Passage Controller. -/
def State.onPassage (f : Passage → Passage) (s : State) : State := { s with passage := f s.passage }
/-- Update the Emergency Unit. -/
def State.onEmergency (f : Emergency → Emergency) (s : State) : State := { s with emergency := f s.emergency }
/-- Update the Fare Journal. -/
def State.onJournal (f : Journal → Journal) (s : State) : State := { s with journal := f s.journal }
/-- Update the Time Base. -/
def State.onTime (f : TimeBase → TimeBase) (s : State) : State := { s with time := f s.time }
/-- Update the Service Controller. -/
def State.onService (f : Service → Service) (s : State) : State := { s with service := f s.service }
/-- Update the Host Link Controller. -/
def State.onHost (f : HostLink → HostLink) (s : State) : State := { s with host := f s.host }

/-! ## Notices, clone findings and tap results (R186 to R188) -/

/-- A notice joins the pending set unless its kind stands in it (R186). -/
def HostLink.raise (kind : NoticeKind) (h : HostLink) : HostLink :=
  if kind ∈ h.notices then h else { h with notices := h.notices ++ [kind] }

/-- Raise a notice (R186). -/
def State.raise (kind : NoticeKind) (s : State) : State := s.onHost (HostLink.raise kind)

/-- A clone finding replaces the latest, adds one to the count held at 65,535, and raises CLONE_DETECTED (R188). -/
def State.noteFinding (card : CardNo) (kind : FindingKind) (s : State) : State :=
  (s.onHost fun h => { h with finding := some { card := card, kind := kind }, findings := min 65535 (h.findings + 1) })
    |>.raise .cloneDetected

/-- The notice of a side's tap result (R187). -/
def resultNotice : Side → NoticeKind
  | .U => .tapResultU
  | .P => .tapResultP

/-- A side's latest tap result is replaced and its notice raised (R187). -/
def State.giveResult (side : Side) (r : TapResult) (s : State) : State :=
  (s.onHost fun h =>
    match side with
    | .U => { h with tapU := some r }
    | .P => { h with tapP := some r }).raise (resultNotice side)

/-! ## Replies (R180) and the request window (R179) -/

/-- A reply joins those waiting, in the order of forming. Once a RESET is taken no further reply is sent (R184). -/
def State.reply (tag : Byte) (kind : ReqKind) (body : ReplyBody) (s : State) : State :=
  if s.host.resetTaken then s
  else s.onHost fun h =>
    { h with replies := h.replies ++ [{ tag := tag, kind := kind, body := body, linkRefusal := false }] }

/-- The frame in transmission is a link refusal. -/
def HostTx.isLinkRefusal : HostTx → Bool
  | .reply r => r.linkRefusal
  | .notice _ => false

/-- A link refusal waits or is being sent (R179). -/
def HostLink.refusalWaits (h : HostLink) : Bool :=
  h.replies.any Reply.linkRefusal || h.tx.elim false HostTx.isLinkRefusal

/-- A link refusal takes the one place there is, or is discarded (R179). -/
def State.linkRefuse (tag : Byte) (kind : ReqKind) (code : RefusalCode) (s : State) : State :=
  if s.host.refusalWaits then s
  else s.onHost fun h =>
    { h with replies := h.replies ++ [{ tag := tag, kind := kind, body := .refused code, linkRefusal := true }] }

/-- A host frame has been received whole or is discarded: the receiver hunts for the next (R178). -/
def State.endHostFrame (s : State) : State := s.onHost fun h => { h with rxInFrame := false }

/-- A request enters the window (R179). -/
def State.enter (tag : Byte) (s : State) : State := s.onHost fun h => { h with window := h.window ++ [tag] }

/-- How the checks of R179 before the kind's own form come out. -/
inductive Admission where
  | discarded | tagInUse | busy | admitted
  deriving DecidableEq, Repr

/-- Checks 1 and 2 of R179, and the discard after a RESET (R184). -/
def State.admission (s : State) (tag : Byte) (kind : ReqKind) : Admission :=
  if s.host.resetTaken then .discarded
  else if tag = 0 ∨ tag ∈ s.host.window then .tagInUse
  else if kind ≠ .reset ∧ 4 ≤ s.host.window.length then .busy
  else .admitted

/-- A request frame is taken (R179): refused outside the window, or handed on inside it. -/
def State.take (tag : Byte) (kind : ReqKind) (act : State → State) (s : State) : State :=
  match s.admission tag kind with
  | .discarded => s.endHostFrame
  | .tagInUse => s.endHostFrame.linkRefuse tag kind .tagInUse
  | .busy => s.endHostFrame.linkRefuse tag kind .busy
  | .admitted => act (s.endHostFrame.enter tag)

/-- A request that passed the checks of R179 but for its length and values: BAD_LENGTH and RANGE are answered here,
the values go to the owner. So RANGE goes before what the owner's rule asks of its state, also where no rule orders the
two: a STAFF_PASS before GATE_STATE and AISLE_BUSY (R137), the action of a DENY_ADD before TABLE_FULL (R73) (DESIGN
CHOICE, log 54). -/
def State.parsed {α : Type} (tag : Byte) (kind : ReqKind) (p : Parsed α) (act : α → State → State) (s : State) :
    State :=
  match p with
  | .badLength => s.reply tag kind (.refused .badLength)
  | .range n => s.reply tag kind (.range n)
  | .value a => act a s

/-! ## The transmitter (R185, R186) -/

/-- Notice kinds by priority. TAP_RESULT_U and TAP_RESULT_P share priority 6 (R185). -/
def NoticeKind.rank : NoticeKind → Nat
  | .emergencyChange => 1
  | .alarm => 2
  | .gateFault => 3
  | .cloneDetected => 4
  | .journalHalt => 5
  | .tapResultU => 6
  | .tapResultP => 6
  | .journalLevel => 7
  | .membershipChange => 8
  | .serviceState => 9

/-- The notice of highest priority, the earlier raised among equals (R185). -/
def topNotice : List NoticeKind → Option NoticeKind
  | [] => none
  | k :: ks =>
    match topNotice ks with
    | none => some k
    | some b => if k.rank ≤ b.rank then some k else some b

/-- The member rows that are ASSERTED or HELD, by address (R186); of each the address and the contribution alone (DESIGN
CHOICE, log 28). -/
def Link.contributors (l : Link) : List (Nat × ContributionKind) :=
  ((List.range 16).zip l.rows).filterMap fun p =>
    if p.2.contributes then some (p.1 + 1, p.2.contribution.kind) else none

/-- The body of a notice: a snapshot of the owning block (R186). -/
def State.snapshot (s : State) : NoticeKind → NoticeBody
  | .emergencyChange =>
    .emergencyChange s.emergency.fire s.emergency.hostFlag s.emergency.own s.emergency.line s.link.contributors
  | .alarm => .alarm s.passage.latches s.passage.lastAlarm
  | .gateFault => .gateFault s.passage.leaf s.passage.lastFault
  | .cloneDetected => .cloneDetected s.host.finding s.host.findings
  | .journalHalt => .journalHalt s.journal.view
  | .tapResultU => .tapResult .U s.host.tapU
  | .tapResultP => .tapResult .P s.host.tapP
  | .journalLevel => .journalLevel s.journal.records.length s.service.params.noticeLevel s.journal.oldest
  | .membershipChange =>
    .membershipChange s.link.addr s.link.state (s.link.rows.map fun r => (r.present, r.lastHeard))
  | .serviceState => .serviceState s.service.state s.missing

/-- A notice begins to be sent: it leaves the set; sending CLONE_DETECTED sets the count to 0 (R186, R188). -/
def State.sendNotice (kind : NoticeKind) (s : State) : State :=
  s.onHost fun h =>
    { h with
      tx := some (.notice (s.snapshot kind)), notices := h.notices.erase kind,
      findings := if kind = .cloneDetected then 0 else h.findings }

/-- The transmitter, when free, begins the reply formed first, else the notice of highest priority (R185). -/
def State.pump (s : State) : State :=
  match s.host.tx, s.host.replies with
  | some _, _ => s
  | none, r :: rest => s.onHost fun h => { h with tx := some (.reply r), replies := rest }
  | none, [] =>
    match topNotice s.host.notices with
    | none => s
    | some k => s.sendNotice k

/-- Every command ends with the transmitter's choice, and the part goes on (DESIGN CHOICE, log 8). -/
def done (s : State) : Result := .next s.pump

/-- The meaning of a host request: taken by R179, its body read, its owner's effect, then the transmitter. -/
def request {α : Type} (tag : Byte) (kind : ReqKind) (p : Parsed α) (act : α → State → State) (s : State) : Result :=
  done (s.take tag kind (State.parsed tag kind p act))

/-! ## The journal (R152 to R158) -/

/-- The class of a kind (R151). -/
def RecKind.cls : RecKind → RecClass
  | .entry | .graceEntry | .penaltyEntry | .exit | .missingEntryExit | .freeExit => .revenue
  | .cardBlocked | .inDoubt | .resolved => .revenue
  | .refusal | .exitGrace | .regrant | .doubleRegrant | .staffPass | .cloneLate | .unusedCredit | .alarm
  | .gateFault | .emergencyStart | .emergencyEnd | .shareDropped | .membership => .event

/-- The record takes the next serial and the counter's value (R152). -/
def Journal.push (body : RecBody) (now : Nat) (j : Journal) : Journal :=
  { j with
    records := j.records ++ [{ serial := j.nextSerial, time := now, body := body }],
    nextSerial := j.nextSerial + 1 }

/-- JOURNAL_LEVEL on the append that reaches the notice level (R154). -/
def State.judgeLevel (s : State) : State :=
  if s.journal.records.length = s.service.params.noticeLevel then s.raise .journalLevel else s

/-- The halt begins at or above the halt level (R155). -/
def State.judgeHalt (s : State) : State :=
  if !s.journal.halted && decide (s.service.params.haltLevel ≤ s.journal.records.length) then
    (s.onJournal fun j => { j with halted := true }).raise .journalHalt
  else s

/-- The halt ends at or below the resume level (R157). -/
def State.judgeResume (s : State) : State :=
  if s.journal.halted && decide (s.journal.records.length ≤ s.service.params.resumeLevel) then
    (s.onJournal fun j => { j with halted := false }).raise .journalHalt
  else s

/-- A load of the levels judges the halt against the new levels at once (R158). -/
def State.judgeLoadedLevels (s : State) : State := if s.journal.halted then s.judgeResume else s.judgeHalt

/-- An append: an EVENT record is skipped while the journal is halted, any other takes its place and the levels are
judged (R152, R156). -/
def State.append (body : RecBody) (s : State) : State :=
  if s.journal.halted && body.kind.cls == .event then s
  else ((s.onJournal (Journal.push body s.time.now)).judgeLevel).judgeHalt

/-! ## The outbound queue (R112, R113) and SYNC_LINE (R114) -/

/-- The card number of a queued frame. -/
def LinkMsg.card : LinkMsg → CardNo
  | .sighting c _ _ => c
  | .lapse c _ _ => c
  | .regrant c _ => c
  | .denyAdd c => c

/-- The kind of a queued frame. -/
def LinkMsg.kind : LinkMsg → MsgKind
  | .sighting _ _ _ => .sighting
  | .lapse _ _ _ => .lapse
  | .regrant _ _ => .regrant
  | .denyAdd _ => .denyAdd

/-- A queued frame, not in transmission, of the same kind and card (R112). -/
def QItem.matches (m : LinkMsg) (q : QItem) : Bool := !q.inTx && q.msg.kind == m.kind && q.msg.card == m.card

/-- The first frame of a list that a test accepts is changed. -/
def changeFirst {α : Type} (p : α → Bool) (f : α → α) : List α → List α
  | [] => []
  | x :: xs => if p x then f x :: xs else x :: changeFirst p f xs

/-- The first element of a list that a test accepts is removed. -/
def dropFirst {α : Type} (p : α → Bool) : List α → List α
  | [] => []
  | x :: xs => if p x then xs else x :: dropFirst p xs

/-- The link is OFFLINE (R101). -/
def LinkState.isOffline : LinkState → Bool
  | .offline _ => true
  | .listening => false
  | .member => false

/-- How a SYNC_LINE stands: it completes when the link is OFFLINE or no marked frame remains (R114). -/
def Link.syncReply (l : Link) (y : Sync) : Option ReplyBody :=
  if l.state.isOffline then some .offline
  else if l.queue.any fun q => q.marks.contains y.tag then none
  else some (.synced y.dropped)

/-- One outstanding SYNC_LINE is judged; when it completes it replies and its marks go. -/
def State.judgeSync (s : State) (y : Sync) : State :=
  match s.link.syncReply y with
  | none => s
  | some body =>
    (s.onLink fun l =>
      { l with
        syncs := l.syncs.filter fun z => z.tag != y.tag,
        queue := l.queue.map fun q => { q with marks := q.marks.filter (· != y.tag) } }).reply y.tag .syncLine body

/-- Every outstanding SYNC_LINE is judged (R114); of several completed by one event, the replies are formed in order of
arrival, for which the manual gives no rule (DESIGN CHOICE, log 47). -/
def State.judgeSyncs (s : State) : State := s.link.syncs.foldl State.judgeSync s

/-- The removed frame counts as dropped for each SYNC_LINE that marked it (R114). -/
def countDropped (q : QItem) (syncs : List Sync) : List Sync :=
  syncs.map fun y => if q.marks.contains y.tag then { y with dropped := y.dropped + 1 } else y

/-- Room for a new frame in a full queue: the oldest frame not in transmission goes, with a SHARE_DROPPED record
(R113). -/
def State.makeRoom (s : State) : State :=
  if Config.queueCap ≤ s.link.queue.length then
    match s.link.queue.find? fun q => !q.inTx with
    | none => s
    | some q =>
      ((s.onLink fun l =>
        { l with queue := dropFirst (fun x => !x.inTx) l.queue, syncs := countDropped q l.syncs }).append
          { kind := .shareDropped, card := some q.msg.card, reason := some (.dropped q.msg.kind) }).judgeSyncs
  else s

/-- A new frame joins as the newest, after the drop if the queue is full (R112 case 3). -/
def State.join (m : LinkMsg) (s : State) : State :=
  s.makeRoom.onLink fun l => { l with queue := l.queue ++ [{ msg := m, marks := [], inTx := false }] }

/-- The Screening Unit queues a frame (R112). Of two queued frames of its kind and card, neither in transmission, the
older is replaced (DESIGN CHOICE, log 43). -/
def State.enqueue (m : LinkMsg) (s : State) : State :=
  if s.link.queue.any (QItem.matches m) then
    match m.kind with
    | .denyAdd => s
    | .sighting | .lapse | .regrant =>
      s.onLink fun l => { l with queue := changeFirst (QItem.matches m) (fun q => { q with msg := m }) l.queue }
  else s.join m

/-! ## The drain of SUSPEND (R167) -/

/-- Every outstanding SUSPEND is answered, in order of arrival, and the list emptied. -/
def State.answerSuspends (body : ReplyBody) (s : State) : State :=
  (s.service.suspends.foldl (fun t tag => t.reply tag .suspend body) s).onService fun v => { v with suspends := [] }

/-- The drain completes when both ports are idle in SUSPENDING (R167). -/
def State.judgeDrain (s : State) : State :=
  if s.service.state == .suspending && s.portsIdle then
    ((s.onService fun v => { v with state := .suspended }).raise .serviceState).answerSuspends
      (.serviceState .suspended)
  else s

end Sys2Proof.Machine
end

