-- ==== Sys2Proof/Machine/Screening.lean ====
section
/-! DEFINITION. The Screening Unit's operations: the deny list and its local and peer additions (R72 to R74), the
sighting table (R75, R76), resolutions (R77), aging (R78), screening (R79 to R83), the course of a pending entry
(R84 to R88), lapse and regrant (R89 to R91), inbound sightings (R92, R93). -/

namespace Sys2Proof.Machine

/-! ## Deny list -/

/-- The deny entry of a card. -/
def Screening.denied (c : Screening) (card : CardNo) : Option DenyEntry := c.deny.find? fun e => e.card == card

/-- Insertion in ascending order of card number (R72). -/
def insertDeny (e : DenyEntry) : List DenyEntry → List DenyEntry
  | [] => [e]
  | x :: xs => if e.card.toNat < x.card.toNat then e :: x :: xs else x :: insertDeny e xs

/-- The deny list with one entry replaced in its place. -/
def replaceDeny (e : DenyEntry) (xs : List DenyEntry) : List DenyEntry :=
  xs.map fun x => if x.card = e.card then e else x

/-- The deny list without a card. -/
def removeDeny (card : CardNo) (xs : List DenyEntry) : List DenyEntry := xs.filter fun x => x.card != card

/-- Whether one LOCAL or PEER entry is older than another: by time added, then by order of making (R74; DESIGN
CHOICE, log 17). -/
def DenyEntry.older (a b : DenyEntry) : Bool := a.added < b.added || (a.added == b.added && a.made < b.made)

/-- The oldest LOCAL or PEER entry (R74). -/
def oldestLocal (xs : List DenyEntry) : Option DenyEntry :=
  (xs.filter DenyEntry.isLocal).foldl
    (fun best e => match best with
      | none => some e
      | some b => if e.older b then some e else some b) none

/-- The entry a local or peer addition makes: REFUSE_AND_BLOCK, time added now (R74). -/
def Screening.newLocal (c : Screening) (card : CardNo) (origin : DenyOrigin) (now : Nat) : DenyEntry :=
  { card := card, origin := origin, action := .refuseAndBlock, added := now, made := c.order }

/-- The deny list after a local or peer addition of an absent card, its oldest LOCAL or PEER entry replaced where
the local limit or the capacity asks for it (R74 cases 2 to 5). -/
def Screening.addLocal (c : Screening) (card : CardNo) (origin : DenyOrigin) (now : Nat) : Screening :=
  let e := c.newLocal card origin now
  if Config.localCap ≤ c.localCount ∨ (Config.denyCap ≤ c.deny.length ∧ 0 < c.localCount) then
    match oldestLocal c.deny with
    | some o => { c with deny := insertDeny e (removeDeny o.card c.deny), order := c.order + 1 }
    | none => c
  else if Config.denyCap ≤ c.deny.length then c
  else { c with deny := insertDeny e c.deny, order := c.order + 1 }

/-- A local or peer addition (R74): nothing changes for a card already present. -/
def State.denyFinding (card : CardNo) (origin : DenyOrigin) (s : State) : State :=
  s.onScreening fun c => if (c.denied card).isSome then c else c.addLocal card origin s.time.now

/-- The line-side effects of the CLONE outcome: local deny addition, DENY_ADD frame, CLONE_DETECTED of kind CLONE
(R83, R85, R87). -/
def State.cloneOutcome (card : CardNo) (s : State) : State :=
  ((s.denyFinding card .own).enqueue (.denyAdd card)).noteFinding card .clone

/-! ## Sighting table -/

/-- The sighting entry of a card. -/
def Screening.sighted (c : Screening) (card : CardNo) : Option Sighting := c.sightings.find? fun e => e.card == card

/-- The table with one entry replaced in its place. -/
def replaceSighting (e : Sighting) (xs : List Sighting) : List Sighting :=
  xs.map fun x => if x.card = e.card then e else x

/-- The table without a card. -/
def removeSighting (card : CardNo) (xs : List Sighting) : List Sighting := xs.filter fun x => x.card != card

/-- An entry of the table is replaced. -/
def State.putSighting (e : Sighting) (s : State) : State :=
  s.onScreening fun c => { c with sightings := replaceSighting e c.sightings }

/-- An entry of the table is replaced, its last update time now (R75). -/
def State.touchSighting (e : Sighting) (s : State) : State :=
  s.onScreening fun c =>
    { c with
      sightings := replaceSighting { e with updated := s.time.now, touched := c.order } c.sightings,
      order := c.order + 1 }

/-- An entry leaves the table. -/
def State.dropSighting (card : CardNo) (s : State) : State :=
  s.onScreening fun c => { c with sightings := removeSighting card c.sightings }

/-- Whether an entry's last update is older: by time, then by order of updating (R76). -/
def Sighting.older (a b : Sighting) : Bool :=
  a.updated < b.updated || (a.updated == b.updated && a.touched < b.touched)

/-- The COMMITTED entry with the oldest last update (R76). -/
def oldestCommitted (xs : List Sighting) : Option Sighting :=
  (xs.filter Sighting.isCommitted).foldl
    (fun best e => match best with
      | none => some e
      | some b => if e.older b then some e else some b) none

/-- Room for an insertion in a full table (R76). -/
def evict (xs : List Sighting) : List Sighting :=
  if Config.sightingCap ≤ xs.length then
    match oldestCommitted xs with
    | some o => removeSighting o.card xs
    | none => xs
  else xs

/-- An entry for an unknown card is inserted, its last update time now (R76). -/
def State.insertSighting (card : CardNo) (baseline : SImage) (st : SightState) (s : State) : State :=
  s.onScreening fun c =>
    { c with
      sightings :=
        evict c.sightings
          ++ [{ card := card, baseline := baseline, state := st, updated := s.time.now, touched := c.order }],
      order := c.order + 1 }

/-! ## Resolutions (R77) -/

/-- The RESOLVED record of an entry; a tap here gives side and balance, a frame its source. -/
def resolvedRecord (card : CardNo) (serial : Nat) (stored : SImage) (outcome : WriteOutcome)
    (tap : Option (Side × Int)) (peer : Option Nat) : RecBody :=
  { kind := .resolved, card := some card, related := some serial, outcome := some outcome, txc := some stored.txc,
    side := tap.map Prod.fst, balance := tap.map Prod.snd, peer := peer }

/-- An IN_DOUBT entry is resolved ABANDONED and removed (R77, R78, R87). Nothing happens to other entries. -/
def State.abandon (e : Sighting) (s : State) : State :=
  match e.state with
  | .inDoubt stored serial =>
    (s.append (resolvedRecord e.card serial stored .abandoned none none)).dropSighting e.card
  | .committed _ => s
  | .pendingLocal _ => s

/-! ## Aging (R78) -/

/-- The age of an entry, 0 when negative. -/
def Sighting.age (e : Sighting) (now : Nat) : Nat := now - e.updated

/-- A lapse mark is live while its deadline is not earlier than now (R78). -/
def LapseMark.live (m : LapseMark) (now : Nat) : Bool := decide (now ≤ m.deadline)

/-- A standing without its lapse mark if that mark has expired. -/
def Standing.unlapse (now : Nat) (st : Standing) : Standing :=
  match st.lapse with
  | some m => if m.live now then st else { st with lapse := none }
  | none => st

/-- An entry without its lapse mark if that mark has expired, COMMITTED or PENDING_LOCAL (R78). -/
def Sighting.unlapse (now : Nat) (e : Sighting) : Sighting :=
  match e.state with
  | .committed st => { e with state := .committed (st.unlapse now) }
  | .pendingLocal p => { e with state := .pendingLocal { p with prior := p.prior.map (Standing.unlapse now) } }
  | .inDoubt _ _ => e

/-- A COMMITTED entry with no lapse mark and an age above the sighting lifetime is due for removal (R78). -/
def State.outlived (s : State) (e : Sighting) : Bool :=
  match e.state with
  | .committed st => st.lapse.isNone && decide (s.service.params.sightingLifetime < e.age s.time.now)
  | .pendingLocal _ => false
  | .inDoubt _ _ => false

/-- An IN_DOUBT entry with an age above the in-doubt lifetime is due for resolution (R78). -/
def State.overdue (s : State) (e : Sighting) : Bool :=
  e.isInDoubt && decide (s.service.params.inDoubtLifetime < e.age s.time.now)

/-- The lapse-mark part of an examination, for one card. -/
def State.examineLapse (card : CardNo) (s : State) : State :=
  match s.screening.sighted card with
  | some e => s.putSighting (e.unlapse s.time.now)
  | none => s

/-- The sighting-lifetime part of an examination, for one card. -/
def State.examineLifetime (card : CardNo) (s : State) : State :=
  match s.screening.sighted card with
  | some e => if s.outlived e then s.dropSighting card else s
  | none => s

/-- The in-doubt part of an examination, for one card. -/
def State.examineInDoubt (card : CardNo) (s : State) : State :=
  match s.screening.sighted card with
  | some e => if s.overdue e then s.abandon e else s
  | none => s

/-- One entry is examined. -/
def State.examineOne (s : State) (card : CardNo) : State :=
  ((s.examineLapse card).examineLifetime card).examineInDoubt card

/-- The examination of the whole table, in the table's order (R78, DESIGN CHOICE, log 16). -/
def State.examine (s : State) : State := (s.screening.sightings.map Sighting.card).foldl State.examineOne s

/-! ## Inbound sightings (R92, R93) -/

/-- The CLONE_LATE finding (R92). -/
def State.cloneLate (card : CardNo) (src : Nat) (s : State) : State :=
  (((s.denyFinding card .own).enqueue (.denyAdd card)).append
    { kind := .cloneLate, card := some card, peer := some src }).noteFinding card .cloneLate

/-- The entry that adopts the image a peer wrote: COMMITTED, origin PEER (R92, R93). -/
def Sighting.adopt (e : Sighting) (src : Nat) (written : SImage) : Sighting :=
  { e with baseline := written, state := .committed { origin := .peer src, lapse := none, regranted := false } }

/-- An inbound SIGHTING against a COMMITTED entry (R92). -/
def State.sightCommitted (src : Nat) (read written : SImage) (e : Sighting) (s : State) : State :=
  if written = e.baseline then s
  else if read = e.baseline ∨ e.baseline.txc < read.txc then s.touchSighting (e.adopt src written)
  else s.cloneLate e.card src

/-- An inbound SIGHTING against a PENDING_LOCAL entry: kept, and marking when it read the tap's own baseline (R93). -/
def State.sightPending (src : Nat) (read written : SImage) (e : Sighting) (p : PendingTap) (s : State) : State :=
  let marking := read == e.baseline
  s.putSighting
    { e with
      state :=
        .pendingLocal
          { p with
            cloneMark := p.cloneMark || marking,
            held := some { src := src, read := read, written := written, marking := marking } } }

/-- An inbound SIGHTING against an IN_DOUBT entry (R93). -/
def State.sightInDoubt (src : Nat) (read written : SImage) (e : Sighting) (stored : SImage) (serial : Nat)
    (s : State) : State :=
  if read = stored then
    (s.append (resolvedRecord e.card serial stored .committed none (some src))).touchSighting (e.adopt src written)
  else if read = e.baseline ∨ read.txc = stored.txc then
    (s.append (resolvedRecord e.card serial stored .voided none (some src))).touchSighting (e.adopt src written)
  else s

/-- An inbound SIGHTING is judged (R92, R93): also a held one, when it is applied (R88). -/
def State.inboundSighting (src : Nat) (card : CardNo) (read written : SImage) (s : State) : State :=
  if !issued card || written.txc != read.txc + 1 then s
  else
    match s.screening.sighted card with
    | none =>
      s.insertSighting card written (.committed { origin := .peer src, lapse := none, regranted := false })
    | some e =>
      match e.state with
      | .committed _ => s.sightCommitted src read written e
      | .pendingLocal p => s.sightPending src read written e p
      | .inDoubt stored serial => s.sightInDoubt src read written e stored serial

/-- A held update is applied when the entry has left PENDING_LOCAL (R88). -/
def State.applyHeld (card : CardNo) (held : Option HeldUpdate) (s : State) : State :=
  match held with
  | some h => s.inboundSighting h.src card h.read h.written
  | none => s

/-- A held update whose marking flag is set is discarded where the tap's write went ahead (R88). -/
def unmarked (held : Option HeldUpdate) : Option HeldUpdate := held.filter fun h => !h.marking

/-! ## Screening a tap (R79 to R82) -/

/-- A fresh hold of a tap on an entry (R79). -/
def PendingTap.fresh (side : Side) (prior : Option Standing) : PendingTap :=
  { side := side, prior := prior, stored := none, cloneMark := false, held := none }

/-- A standing of a LOCAL image without mark or flag. -/
def Standing.ours : Standing := { origin := .own, lapse := none, regranted := false }

/-- A live lapse mark for a side (R79). -/
def Standing.lapsedFor (st : Standing) (side : Side) (now : Nat) : Bool :=
  st.lapse.elim false fun m => m.side == side && m.live now

/-- Screening against no entry (R79). -/
def State.screenNew (side : Side) (card : CardNo) (img : SImage) (s : State) : State × ScreenResult :=
  (s.insertSighting card img (.pendingLocal (.fresh side none)), .clear)

/-- The effects of a REGRANT verdict (R80). -/
def State.regrant (side : Side) (e : Sighting) (st : Standing) (s : State) : State :=
  ((s.touchSighting { e with state := .committed { st with lapse := none, regranted := true } }).enqueue
    (.regrant e.card e.baseline)).append
      { kind := .regrant, side := some side, card := some e.card, txc := some e.baseline.txc }

/-- Screening against a COMMITTED entry (R79). -/
def State.screenCommitted (side : Side) (img : SImage) (e : Sighting) (st : Standing) (s : State) :
    State × ScreenResult :=
  if e.baseline.txc < img.txc then
    (s.putSighting { e with baseline := img, state := .pendingLocal (.fresh side (some .ours)) }, .clear)
  else if img = e.baseline then
    if st.lapsedFor side s.time.now then (s.regrant side e st, .regrant)
    else (s.putSighting { e with state := .pendingLocal (.fresh side (some st)) }, .clear)
  else (s.cloneOutcome e.card, .clone)

/-- Screening against a PENDING_LOCAL entry: CLONE for the tap now screened, and the entry is marked (R81). -/
def State.screenPending (e : Sighting) (p : PendingTap) (s : State) : State × ScreenResult :=
  ((s.putSighting { e with state := .pendingLocal { p with cloneMark := true } }).cloneOutcome e.card, .clone)

/-- Screening against an IN_DOUBT entry (R82). -/
def State.screenInDoubt (side : Side) (balance : Int) (img : SImage) (e : Sighting) (stored : SImage) (serial : Nat)
    (s : State) : State × ScreenResult :=
  let record := fun outcome => resolvedRecord e.card serial stored outcome (some (side, balance)) none
  if img = e.baseline then
    ((s.append (record .voided)).putSighting { e with state := .pendingLocal (.fresh side (some .ours)) }, .clear)
  else if img = stored then
    (((s.append (record .committed)).touchSighting { e with baseline := stored, state := .committed .ours }).enqueue
      (.sighting e.card e.baseline stored), .recovered)
  else if e.baseline.txc < img.txc then
    ((s.append (record .abandoned)).dropSighting e.card).screenNew side e.card img
  else (s.cloneOutcome e.card, .clone)

/-- Check 10: the image read is judged against the card's entry (R79). -/
def State.screen (side : Side) (card : CardNo) (balance : Int) (img : SImage) (s : State) : State × ScreenResult :=
  match s.screening.sighted card with
  | none => s.screenNew side card img
  | some e =>
    match e.state with
    | .committed st => s.screenCommitted side img e st
    | .pendingLocal p => s.screenPending e p
    | .inDoubt stored serial => s.screenInDoubt side balance img e stored serial

/-! ## The course of a pending entry (R84 to R88) -/

/-- The PENDING_LOCAL entry that a tap at a side holds for a card. -/
def Screening.heldBy (c : Screening) (side : Side) (card : CardNo) : Option (Sighting × PendingTap) :=
  match c.sighted card with
  | none => none
  | some e =>
    match e.state with
    | .pendingLocal p => if p.side = side then some (e, p) else none
    | .committed _ => none
    | .inDoubt _ _ => none

/-- The first attempt of the purse STORE is sent: STORE sent is set and the pending image recorded (R84). -/
def State.storeSent (side : Side) (card : CardNo) (img : SImage) (s : State) : State :=
  match s.screening.heldBy side card with
  | some (e, p) => s.putSighting { e with state := .pendingLocal { p with stored := some img } }
  | none => s

/-- A look at the clone mark (R84). -/
def State.markSeen (s : State) (side : Side) (card : CardNo) : Bool :=
  (s.screening.heldBy side card).elim false fun h => h.2.cloneMark

/-- A tap ended without a write on the card (R86): the entry is removed, or COMMITTED at its baseline; then the held
update is applied whatever its marking (R88). -/
def State.endUnwritten (side : Side) (card : CardNo) (s : State) : State :=
  match s.screening.heldBy side card with
  | some (e, p) =>
    (match p.prior with
      | none => s.dropSighting card
      | some st => s.touchSighting { e with state := .committed st }).applyHeld card p.held
  | none => s

/-- The CLONE effects where the clone mark stands on the entry (R85, R87). -/
def State.cloneIf (mark : Bool) (card : CardNo) (s : State) : State := if mark then s.cloneOutcome card else s

/-- A tap committed (R85): the entry becomes COMMITTED at the pending image, the SIGHTING is queued, the effects of a
clone mark follow, and an unmarked held update is applied (R88). -/
def State.commitSighting (side : Side) (card : CardNo) (s : State) : State :=
  match s.screening.heldBy side card with
  | some (e, p) =>
    let img := p.stored.getD e.baseline
    (((s.touchSighting { e with baseline := img, state := .committed .ours }).enqueue
      (.sighting card e.baseline img)).cloneIf p.cloneMark card).applyHeld card (unmarked p.held)
  | none => s

/-- The IN_DOUBT entry with the lowest IN_DOUBT serial (R87). -/
def lowestInDoubt (xs : List Sighting) : Option Sighting :=
  (xs.foldl
    (fun best e => match e.state, best with
      | .inDoubt _ n, some (m, b) => if n < m then some (n, e) else some (m, b)
      | .inDoubt _ n, none => some (n, e)
      | .committed _, b => b
      | .pendingLocal _, b => b) (none : Option (Nat × Sighting))).map Prod.snd

/-- The in-doubt limit: with 64 standing, the one with the lowest serial is resolved ABANDONED first (R87). -/
def State.limitInDoubt (s : State) : State :=
  if Config.inDoubtCap ≤ s.screening.counts.inDoubt then
    match lowestInDoubt s.screening.sightings with
    | some e => s.abandon e
    | none => s
  else s

/-- The IN_DOUBT record (R19, R87). -/
def inDoubtRecord (side : Side) (card : CardNo) (stored : SImage) : RecBody :=
  { kind := .inDoubt, side := some side, card := some card, txc := some stored.txc }

/-- A pending entry is converted to IN_DOUBT (R87). -/
def State.convert (side : Side) (card : CardNo) (s : State) : State :=
  match s.screening.heldBy side card with
  | some (e, p) =>
    let img := p.stored.getD e.baseline
    let s := s.limitInDoubt
    let serial := s.journal.nextSerial
    (((s.touchSighting { e with state := .inDoubt img serial }).append (inDoubtRecord side card img)).cloneIf
      p.cloneMark card).applyHeld card (unmarked p.held)
  | none => s

/-! ## Lapse marks (R89) -/

/-- A lapse request for a removed TAP credit: a COMMITTED entry of origin LOCAL takes the mark and a LAPSE frame is
queued; in every other case nothing happens (R89). A deadline past 4,294,967,295 is kept as it is (DESIGN CHOICE,
log 42). -/
def State.lapseRequest (card : CardNo) (side : Side) (s : State) : State :=
  match s.screening.sighted card with
  | none => s
  | some e =>
    match e.state with
    | .committed st =>
      match st.origin with
      | .own =>
        (s.putSighting
          { e with
            state :=
              .committed
                { st with
                  lapse := some { side := side, deadline := s.time.now + s.service.params.regrantWindow } } }).enqueue
          (.lapse card e.baseline side)
      | .peer _ => s
    | .pendingLocal _ => s
    | .inDoubt _ _ => s

/-! ## Warm reset (R96) -/

/-- One entry at a warm reset: PENDING_LOCAL is converted if its STORE was sent, else settled as unwritten. -/
def State.settleOne (s : State) (card : CardNo) : State :=
  match s.screening.sighted card with
  | none => s
  | some e =>
    match e.state with
    | .pendingLocal p => if p.stored.isSome then s.convert p.side card else s.endUnwritten p.side card
    | .committed _ => s
    | .inDoubt _ _ => s

/-- Every PENDING_LOCAL entry is settled, in the table's order (R96, DESIGN CHOICE, log 16). -/
def State.settlePending (s : State) : State := (s.screening.sightings.map Sighting.card).foldl State.settleOne s

end Sys2Proof.Machine
end

