-- ==== Sys2Proof/Machine/Aging.lean ====
section
/-! DEFINITION. The tick of the seconds counter and the aging of the sighting table (R64, R78). -/

namespace Sys2Proof.Machine

/-- The counter advances by one and the table is examined; at its maximum the counter is held (R64, R78, DESIGN
CHOICE, log 18). -/
def State.tick (s : State) : State :=
  if s.time.now < Config.maxTime then (s.onTime fun tb => { tb with now := tb.now + 1 }).examine else s

/-- SECOND_TICK (R64, R78). -/
def execSecondTick (s : State) : Result := done s.tick

/-- LAPSE_MARK_EXPIRY: the lapse-mark part of an examination, for one card (R78). -/
def execLapseMarkExpiry (card : CardNo) (s : State) : Result := done (s.examineLapse card)

/-- SIGHTING_LIFETIME_EXPIRY: the lifetime part of an examination, for one card (R78). -/
def execSightingLifetimeExpiry (card : CardNo) (s : State) : Result := done (s.examineLifetime card)

/-- IN_DOUBT_LIFETIME_EXPIRY: the in-doubt part of an examination, for one card (R78). -/
def execInDoubtLifetimeExpiry (card : CardNo) (s : State) : Result := done (s.examineInDoubt card)

end Sys2Proof.Machine
end

