-- ==== Sys2Proof/Machine/Aisle.lean ====
section
/-! DEFINITION. The Passage Controller's operations: slots and arbitration (R117 to R120), credits (R121 to R123),
occupants (R124 to R129), alarms (R130), leaves (R133 to R136), the emergency as the aisle sees it (R139). -/

namespace Sys2Proof.Machine

/-! ## What a port does when it is granted a slot -/

/-- An exchange starts: its attempt count is 0 (R8). -/
def Port.ask (r : CardRequest) (p : Port) : Port :=
  { p with exchange := some { request := r, windowError := false, earlierError := false }, attempts := 0 }

/-- A paused deadline resumes with the time it had left (R12). -/
def Deadline.resume (clock : Nat) : Deadline → Deadline
  | .paused left => .running (clock + left)
  | .stopped => .stopped
  | .running t => .running t

/-- A running deadline is paused (R15). -/
def Deadline.pause (clock : Nat) : Deadline → Deadline
  | .running t => .paused (t - clock)
  | .stopped => .stopped
  | .paused left => .paused left

/-- A port enters READING: the context takes its path and slot, the deadline runs, the HEADER is asked for (R11, R12,
R13). A SUMMON still in flight is abandoned (DESIGN CHOICE, log 41). -/
def Port.beginReading (clock : Nat) (path : Path) (slot : Option SlotId) (p : Port) : Port :=
  ({ p with
    state := .reading, deadline := p.deadline.resume clock, aisleWait := none,
    ctx := p.ctx.map fun c => { c with path := some path, slot := slot } } : Port).ask (.fetch .header)

/-! ## Slots (R117 to R120) -/

/-- The holder of a slot. -/
def Claim.slot (c : Claim) : SlotId → Option Holder
  | .one => c.slot1
  | .two => c.slot2

/-- The claim with a slot set. -/
def Claim.setSlot (c : Claim) (k : SlotId) (h : Option Holder) : Claim :=
  match k with
  | .one => { c with slot1 := h }
  | .two => { c with slot2 := h }

/-- The lower-numbered free slot (R118). -/
def Claim.lowestFree (c : Claim) : Option SlotId :=
  if c.slot1.isNone then some .one else if c.slot2.isNone then some .two else none

/-- Whether a port's request waits (R117). -/
def Claim.waits (c : Claim) : Side → Bool
  | .U => c.waitU
  | .P => c.waitP

/-- The claim with a port's waiting request set or withdrawn (R118). -/
def Claim.setWait (c : Claim) (side : Side) (b : Bool) : Claim :=
  match side with
  | .U => { c with waitU := b }
  | .P => { c with waitP := b }

/-- A slot is given in a direction: the claim takes it if it had none, and it is the last granted (R118). -/
def Claim.grant (c : Claim) (k : SlotId) (d : Direction) (h : Holder) : Claim :=
  { c.setSlot k (some h) with direction := some (c.direction.getD d), lastGranted := d }

/-- The conditions of R118 for a request of a direction. -/
def State.grantable (s : State) (d : Direction) : Bool :=
  (s.passage.claim.direction == none || s.passage.claim.direction == some d)
    && s.passage.claim.lowestFree.isSome && s.passage.leaf != .fault
    && s.passage.occupants.all fun o => o.direction == d

/-- Update the claim. -/
def State.onClaim (f : Claim → Claim) (s : State) : State := s.onPassage fun g => { g with claim := f g.claim }

/-- A port's request is granted: its context holds the slot and the port enters READING (R11, R12, R118). -/
def State.grantPort (side : Side) (s : State) : State :=
  match s.passage.claim.lowestFree with
  | some k =>
    (s.onClaim fun c => (c.setWait side false).grant k (dirOf side) (.context side)).onPort side
      (Port.beginReading s.clock .normal (some k))
  | none => s

/-- The waiting request that R119 grants, if any: of two, the one whose direction was not granted last. -/
def State.grantChoice (s : State) : Option Side :=
  let u := s.passage.claim.waitU && s.grantable .inbound
  let p := s.passage.claim.waitP && s.grantable .outbound
  if u && p then some (if s.passage.claim.lastGranted == .inbound then .P else .U)
  else if u then some .U
  else if p then some .P
  else none

/-- Waiting requests are judged (R119). -/
def State.judgeWaiting (s : State) : State :=
  match s.grantChoice with
  | some side => s.grantPort side
  | none => s

/-- The direction returns to NONE when both slots are free and no occupant stands (R117). -/
def Claim.release (noOccupant : Bool) (c : Claim) : Claim :=
  if c.slot1.isNone && c.slot2.isNone && noOccupant then { c with direction := none } else c

/-- After a slot is freed or an occupant removed: return to NONE, then R119 (R120). -/
def State.settleClaim (s : State) : State :=
  (s.onClaim (Claim.release s.passage.occupants.isEmpty)).judgeWaiting

/-- A slot is freed (R120). -/
def State.freeSlot (k : SlotId) (s : State) : State := (s.onClaim fun c => c.setSlot k none).settleClaim

/-! ## Leaves (R133 to R136) -/

/-- The leaves start to travel, the travel timer afresh (R134). -/
def Passage.travelTo (clock : Nat) (leaf : LeafState) (g : Passage) : Passage :=
  { g with leaf := leaf, travel := some (clock + Config.travelMs) }

/-- The leaves rest in a state; no travel timer runs. -/
def Passage.rest (leaf : LeafState) (g : Passage) : Passage := { g with leaf := leaf, travel := none }

/-- The OPEN row of R134 for a CLOSED command: closing starts unless LEAF is occupied. -/
def State.closeIfClear (s : State) : State :=
  if !s.commandOpen && !s.pins.leaf then s.onPassage (Passage.travelTo s.clock .closing) else s

/-- The leaf state follows the command, hold-open and the emergency (R134). -/
def State.settleLeaves (s : State) : State :=
  match s.passage.leaf with
  | .closed => if s.commandOpen then s.onPassage (Passage.travelTo s.clock .opening) else s
  | .closing => if s.commandOpen then s.onPassage (Passage.travelTo s.clock .opening) else s
  | .opened => if s.alarmsSuppressed then s.onPassage (Passage.rest .heldOpen) else s.closeIfClear
  | .heldOpen => if s.alarmsSuppressed then s else (s.onPassage (Passage.rest .opened)).closeIfClear
  | .opening => s
  | .fault => s

/-- How an outstanding GATE_RESET ends: with the state its travel reached, or FAULT (R136). -/
def LeafState.resetReply : LeafState → Option ReplyBody
  | .closed => some (.gate .closed)
  | .opened => some (.gate .opened)
  | .heldOpen => some (.gate .heldOpen)
  | .fault => some .fault
  | .opening => none
  | .closing => none

/-- An outstanding GATE_RESET is judged against the leaf state (R136). -/
def State.judgeGateReset (s : State) : State :=
  match s.passage.gateReset, s.passage.leaf.resetReply with
  | some tag, some body => (s.onPassage fun g => { g with gateReset := none }).reply tag .gateReset body
  | _, _ => s

/-! ## Credits (R121 to R123) -/

/-- The journal fields an unused credit of origin TAP gives (R122). -/
def CreditOrigin.tapCard : CreditOrigin → Option (Nat × CardNo)
  | .tap serial card => some (serial, card)
  | .grace | .regrant | .recovered | .staff => none

/-- The UNUSED_CREDIT record (R122). -/
def Credit.unusedRecord (c : Credit) (reason : Reason) : RecBody :=
  { kind := .unusedCredit, side := some (sideOf c.direction), reason := some reason,
    card := c.origin.tapCard.map Prod.snd, related := c.origin.tapCard.map Prod.fst }

/-- The lapse request of a removed credit, for origin TAP (R122, R123). -/
def State.lapseCredit (c : Credit) (s : State) : State :=
  match c.origin.tapCard with
  | some (_, card) => s.lapseRequest card (sideOf c.direction)
  | none => s

/-- A credit leaves the list; an occupant that held it keeps its place (R123). -/
def Passage.dropCredit (k : SlotId) (g : Passage) : Passage :=
  { g with
    credits := g.credits.filter fun c => c.slot != k,
    occupants := g.occupants.map fun o => if o.credit = some k then { o with credit := none } else o }

/-- A credit is removed and frees its slot (R120). -/
def State.removeCredit (k : SlotId) (s : State) : State := (s.onPassage (Passage.dropCredit k)).freeSlot k

/-- Why the whole credit list is cleared (R123). -/
inductive ClearCause where
  | fault | emergency | warmReset
  deriving DecidableEq, Repr

/-- The UNUSED_CREDIT reason of a clearing; a warm reset makes no record (R123). -/
def ClearCause.reason : ClearCause → Option Reason
  | .fault => some .gateFault
  | .emergency => some .emergency
  | .warmReset => none

/-- Whether a clearing makes lapse requests for TAP credits (R123). -/
def ClearCause.lapses : ClearCause → Bool
  | .fault => true
  | .emergency => false
  | .warmReset => true

/-- The record of a cleared credit, if its cause makes one (R123). -/
def State.recordUnused (c : Credit) (reason : Option Reason) (s : State) : State :=
  match reason with
  | some r => s.append (c.unusedRecord r)
  | none => s

/-- One credit is cleared (R123): its UNUSED_CREDIT record comes before what its own lapse request records (DEDUCED,
log 46). -/
def State.clearCredit (cause : ClearCause) (s : State) (c : Credit) : State :=
  let s := (s.removeCredit c.slot).recordUnused c cause.reason
  if cause.lapses then s.lapseCredit c else s

/-- The whole credit list is cleared, in its order (R123). -/
def State.clearCredits (cause : ClearCause) (s : State) : State :=
  s.passage.credits.foldl (State.clearCredit cause) s

/-- The deadline of a credit that becomes UNASSIGNED now (R121). -/
def State.creditUntil (s : State) : Nat := s.clock + 1000 * s.service.params.creditLifetime

/-- An occupant that a newly formed credit is assigned to at once (R121). -/
def Occupant.canTake (d : Direction) (o : Occupant) : Bool :=
  o.stage == .leaf && o.direction == d && o.credit.isNone

/-- A credit joins the list, assigned at once to the oldest occupant at LEAF that can take it (R121). -/
def Passage.addCredit (k : SlotId) (d : Direction) (origin : CreditOrigin) (until_ : Nat) (g : Passage) : Passage :=
  let taken := g.occupants.any (Occupant.canTake d)
  { g with
    claim := g.claim.setSlot k (some .credit),
    credits :=
      g.credits
        ++ [{ slot := k, direction := d, origin := origin, state := if taken then .assigned else .unassigned until_ }],
    occupants := changeFirst (Occupant.canTake d) (fun o => { o with credit := some k }) g.occupants }

/-- A credit is formed on a slot; in leaf FAULT it is cleared at once as a fault clears credits (R121). -/
def State.formCredit (k : SlotId) (d : Direction) (origin : CreditOrigin) (s : State) : State :=
  let t := s.onPassage (Passage.addCredit k d origin s.creditUntil)
  if t.passage.leaf == .fault then t.clearCredits .fault else t.settleLeaves

/-! ## Alarms (R130) -/

/-- The journal record of an alarm (R130). -/
def alarmRecord (kind : AlarmKind) (side : Option Side) : RecBody :=
  { kind := .alarm, side := side, reason := some (.alarm kind) }

/-- An alarm is raised: a latching on a clear latch, and a record in every case (R130, R131). -/
def State.alarm (kind : AlarmKind) (side : Option Side) (s : State) : State :=
  if s.passage.latches.get kind then s.append (alarmRecord kind side)
  else
    ((s.onPassage fun g =>
      { g with
        latches := g.latches.setOn kind, lastAlarm := some (kind, side), sounder := some s.clock }).append
          (alarmRecord kind side)).raise .alarm

/-! ## Occupants (R124 to R129) -/

/-- The oldest UNASSIGNED credit. -/
def Passage.oldestUnassigned (g : Passage) : Option Credit :=
  g.credits.find? fun c => c.state != .assigned

/-- A credit becomes ASSIGNED and loses its deadline (R127). -/
def assignCredit (k : SlotId) (credits : List Credit) : List Credit :=
  credits.map fun c => if c.slot = k then { c with state := .assigned } else c

/-- The credit that R127 assigns to an occupant of a direction. -/
def Passage.creditFor (g : Passage) (d : Direction) : Option SlotId :=
  if g.claim.direction = some d then g.oldestUnassigned.map Credit.slot else none

/-- The alarm that R127 raises for an occupant of a direction that takes no credit. -/
def Passage.advanceAlarm (g : Passage) (d : Direction) : AlarmKind :=
  match g.claim.direction with
  | some c =>
    if c ≠ d then .reverse
    else
      match g.leaf with
      | .closed | .fault => .forced
      | .opening | .opened | .closing | .heldOpen => .tailgate
  | none =>
    match g.leaf with
    | .closed | .fault => .forced
    | .opening | .opened | .closing | .heldOpen => .tailgate

/-- The advance of an occupant to LEAF is judged for a credit or an alarm (R127). The occupant is the one that `place`
puts at LEAF, with the credit it is given. -/
def State.advance (d : Direction) (place : Option SlotId → List Occupant → List Occupant) (s : State) : State :=
  match s.passage.creditFor d with
  | some k =>
    s.onPassage fun g => { g with occupants := place (some k) g.occupants, credits := assignCredit k g.credits }
  | none =>
    let t := s.onPassage fun g => { g with occupants := place none g.occupants }
    if t.alarmsSuppressed then t else t.alarm (t.passage.advanceAlarm d) (some (sideOf d))

/-- The first occupant a test accepts moves to LEAF with a credit. -/
def moveToLeaf (p : Occupant → Bool) (credit : Option SlotId) (xs : List Occupant) : List Occupant :=
  changeFirst p (fun o => { o with stage := .leaf, credit := credit }) xs

/-- A new occupant stands at LEAF (R126 cases 2 and 3). -/
def appendAtLeaf (d : Direction) (credit : Option SlotId) (xs : List Occupant) : List Occupant :=
  xs ++ [{ direction := d, stage := .leaf, credit := credit }]

/-- A body enters LEAF from a mouth where no occupant stood (R126 cases 2 and 3). -/
def State.enterFrom (mouth : Side) (s : State) : State :=
  if 3 ≤ s.passage.occupants.length then s.alarm .intrusion (some mouth)
  else s.advance (dirOf mouth) (appendAtLeaf (dirOf mouth))

/-- The body that entered LEAF is chosen (R126). -/
def State.enterLeaf (s : State) : State :=
  match s.passage.occupants.find? fun o => o.stage == .mouth with
  | some o => s.advance o.direction (moveToLeaf fun x => x.stage == .mouth)
  | none =>
    match s.pins.mouthU, s.pins.mouthP with
    | true, false => s.enterFrom .U
    | false, true => s.enterFrom .P
    | true, true =>
      match s.passage.claim.direction with
      | some d => s.enterFrom (sideOf d)
      | none => s.alarm .intrusion none
    | false, false => s.alarm .intrusion none

/-- The first occupant a test accepts completes its passage: it is removed, and the credit it holds is used (R129). -/
def State.complete (p : Occupant → Bool) (s : State) : State :=
  match s.passage.occupants.find? p with
  | none => s
  | some o =>
    let t := s.onPassage fun g => { g with occupants := dropFirst p g.occupants }
    match o.credit with
    | some k => (t.removeCredit k).settleLeaves
    | none => t.settleClaim

/-- A credit returned by a step-back: UNASSIGNED with a full new lifetime, in its place (R128). -/
def returnCredit (k : SlotId) (until_ : Nat) (credits : List Credit) : List Credit :=
  credits.map fun c => if c.slot = k then { c with state := .unassigned until_ } else c

/-- At LEAF. -/
def Occupant.atLeaf (o : Occupant) : Bool := o.stage == .leaf

/-- The oldest occupant at LEAF is settled when LEAF becomes clear (R128). -/
def State.settleLeafOne (s : State) : State :=
  match s.passage.occupants.find? Occupant.atLeaf with
  | none => s
  | some o =>
    if s.mouth (farMouth o.direction) then
      s.onPassage fun g =>
        { g with occupants := changeFirst Occupant.atLeaf (fun x => { x with stage := .far }) g.occupants }
    else if s.mouth (sideOf o.direction) then
      s.onPassage fun g =>
        { g with
          occupants := changeFirst Occupant.atLeaf (fun x => { x with stage := .mouth, credit := none }) g.occupants,
          credits := o.credit.elim g.credits fun k => returnCredit k s.creditUntil g.credits }
    else s.complete Occupant.atLeaf

/-- An occupant at FAR heading to a mouth. -/
def Occupant.farAt (mouth : Side) (o : Occupant) : Bool := o.stage == .far && farMouth o.direction == mouth

/-- An occupant at MOUTH whose origin is a mouth. -/
def Occupant.waitingAt (mouth : Side) (o : Occupant) : Bool := o.stage == .mouth && sideOf o.direction == mouth

/-- An occupant at LEAF whose far mouth is a mouth (R125). -/
def Occupant.leafTowards (mouth : Side) (o : Occupant) : Bool := o.stage == .leaf && farMouth o.direction == mouth

/-- The oldest occupant at a mouth that became clear withdraws, or advances into an occupied LEAF (R129). -/
def State.leaveMouthOne (mouth : Side) (s : State) : State :=
  match s.passage.occupants.find? (Occupant.waitingAt mouth) with
  | none => s
  | some o =>
    if s.pins.leaf then s.advance o.direction (moveToLeaf (Occupant.waitingAt mouth))
    else s.complete (Occupant.waitingAt mouth)

/-- A mouth becomes occupied (R125). -/
def State.enterMouth (mouth : Side) (s : State) : State :=
  if s.passage.occupants.any (Occupant.leafTowards mouth) then
    s.onPassage fun g =>
      { g with
        occupants := changeFirst (Occupant.leafTowards mouth) (fun o => { o with stage := .far }) g.occupants }
  else if s.passage.occupants.length < 3 then
    s.onPassage fun g =>
      { g with occupants := g.occupants ++ [{ direction := dirOf mouth, stage := .mouth, credit := none }] }
  else s.alarm .intrusion (some mouth)

/-- Up to three occupants are settled one after another, as many as the list holds. -/
def State.forEachOccupant (f : State → State) (s : State) : State := Nat.iterate f s.passage.occupants.length s

/-! ## Leaf fault (R135) and the emergency (R139) -/

/-- The leaves enter FAULT (R135): drives off, credits cleared, record, notice, an outstanding GATE_RESET ends,
in that order (DEDUCED, log 46). -/
def State.leafFault (travel : Travel) (s : State) : State :=
  let t := (s.onPassage fun g => { g.rest .fault with lastFault := some travel }).clearCredits .fault
  ((t.append
    { kind := .gateFault,
      reason := some (match travel with
        | .opening => Reason.opening
        | .closing => Reason.closing) }).raise .gateFault).judgeGateReset

/-- The aisle when the line emergency becomes ACTIVE (R139): credits cleared, leaves in FAULT make one attempt to
open, other leaves follow the command. -/
def State.aisleEmergency (s : State) : State :=
  let t := s.clearCredits .emergency
  if t.passage.leaf == .fault then (t.onPassage (Passage.travelTo t.clock .opening)).judgeWaiting
  else t.settleLeaves

end Sys2Proof.Machine
end

