-- ==== Sys2Proof/Machine/Fare.lean ====
section
/-! DEFINITION. The Fare Unit (R49 to R63) and the entry and exit rules of check 11 (R35 to R40): pure functions of the
tables, the image read and the tap time. -/

namespace Sys2Proof.Machine

/-- The smallest of a list of entries. -/
def smallest : List Nat → Nat
  | [] => 0
  | x :: xs => xs.foldl min x

/-- The largest of a list of entries. -/
def largest (xs : List Nat) : Nat := xs.foldl max 0

/-- The zones as a list: one or two. -/
def Zones.list (z : Zones) : List Nat := z.first :: z.second.toList

/-- The matrix entry M[i][j] (R50); an unloaded entry cannot be met in service (R165) and reads 0 (DESIGN CHOICE, log
31). -/
def Service.fare (v : Service) (i j : Nat) : Nat :=
  ((v.rows.find? fun r => r.1 == i).elim [] Prod.snd).getD (j - 1) 0

/-- The missing-entry base: the largest over zones z of the smallest entry from z to the exit zones (R55). -/
def Service.missingBase (v : Service) (exits : List Nat) : Nat :=
  largest ((List.range (v.zoneCount.getD 0)).map fun z => smallest (exits.map (v.fare (z + 1))))

/-- Stage 1 (R54, R51): the smallest entry over origin and exit zones, leaving out origins above N. With no origin
left the missing-entry base is taken. -/
def Service.baseFare (v : Service) (origins exits : List Nat) : Nat :=
  match origins.filter fun z => z ≤ v.zoneCount.getD 0 with
  | [] => v.missingBase exits
  | o :: os => smallest ((o :: os).flatMap fun i => exits.map (v.fare i))

/-- The multiplier of the last band that starts at or before a minute (R52); with no band loaded, which readiness
excludes, 1,000 (DESIGN CHOICE, log 31). -/
def bandAt (bands : List Band) (minute : Nat) : Nat :=
  ((bands.filter fun b => b.start ≤ minute).getLast?).elim 1000 Band.multiplier

/-- The band set chosen for a time: by the day of week of its service day (R52). -/
def Service.bandsFor (v : Service) (tb : TimeBase) (t : Nat) : List Band :=
  if v.params.weekend.flags (dayOfWeek (tb.serviceDay t)) then v.weekendSet.getD [] else v.weekday.getD []

/-- Stage 2: the multiplier in force at a time (R52, R56). -/
def Service.multiplier (v : Service) (tb : TimeBase) (t : Nat) : Nat :=
  bandAt (v.bandsFor tb t) (tb.minuteOfDay t)

/-- Rounding half up of a per-mille product (R56, R57). -/
def perMille (amount rate : Nat) : Nat := (amount * rate + 500) / 1000

/-- Stage 3: the scaled fare F1, held at 65,535 (R56). -/
def scaled (base multiplier : Nat) : Nat := min Config.maxAmount (perMille base multiplier)

/-- Stage 4: the fare after discount F2 (R57). -/
def discounted (f1 discount : Nat) : Nat := f1 - perMille f1 discount

/-- Stage 5: the surcharge of an EXIT whose duration exceeds T_max (R58). -/
def surcharged (p : Params) (f2 duration : Nat) : Nat :=
  if p.tMax < duration then min Config.maxAmount (f2 + p.surcharge) else f2

/-- Stage 7: the charge under the class's cap; a cap of 0 is no cap (R60). -/
def capped (cap legCharge spent : Nat) : Nat := if cap = 0 then legCharge else min legCharge (cap - spent)

/-- The spent value that counts at a time: 0 unless the cap day is the service day of that time (R54). -/
def spentAt (tb : TimeBase) (img : Image) (t : Nat) : Nat := if img.capDay = tb.serviceDay t then img.spent else 0

/-- What the Fare Unit returns with a charge (R62). -/
structure Priced where
  charge : Nat
  balance : Int
  paid : Nat
  spent : Nat
  capDay : Nat
  deriving DecidableEq, Repr

/-- Stages 7 to 9 for a journey fare J, an amount already paid P and a class record (R59 to R62); absent is
INSUFFICIENT. -/
def settleFare (tb : TimeBase) (cls : ClassRec) (img : Image) (tx journeyFare paid : Nat) : Option Priced :=
  let t := spentAt tb img tx
  let x := capped cls.cap (journeyFare - paid) t
  if img.balance - (x : Int) < -(cls.overdraft : Int) then none
  else
    some
      { charge := x, balance := img.balance - (x : Int), paid := min Config.maxAmount (paid + x),
        spent := min Config.maxAmount (t + x), capDay := tb.serviceDay tx }

/-- The journey fare J of an EXIT at time tx (stages 1 to 5). -/
def Service.exitFare (v : Service) (tb : TimeBase) (cls : ClassRec) (here : Zones) (img : Image) (tx : Nat) : Nat :=
  let base := v.baseFare img.originZones.list here.list
  let f1 := scaled base (v.multiplier tb img.chainStart)
  surcharged v.params (discounted f1 cls.discount) (elapsed tx img.chainStart)

/-- The journey fare J of a MISSING_ENTRY_EXIT at time tx: no surcharge (R55, R58). -/
def Service.missingFare (v : Service) (tb : TimeBase) (cls : ClassRec) (here : Zones) (tx : Nat) : Nat :=
  discounted (scaled (v.missingBase here.list) (v.multiplier tb tx)) cls.discount

/-- The pricing request of an EXIT (R38, R49). -/
def Service.priceExit (v : Service) (tb : TimeBase) (cls : ClassRec) (here : Zones) (img : Image) (tx : Nat) :
    Option Priced :=
  settleFare tb cls img tx (v.exitFare tb cls here img tx) img.chainPaid

/-- The pricing request of a MISSING_ENTRY_EXIT: P is 0 (R38, R49). -/
def Service.priceMissing (v : Service) (tb : TimeBase) (cls : ClassRec) (here : Zones) (img : Image) (tx : Nat) :
    Option Priced :=
  settleFare tb cls img tx (v.missingFare tb cls here tx) 0

/-! ## Check 11 -/

/-- How check 11 ends: a refusal, a success without a write, or a new image before its txc, scheme and stamp (R6). -/
inductive Ruling where
  | refuse (reason : RefusalReason)
  | exitGrace
  | free
  | write (decision : Decision) (image : Image)
  deriving DecidableEq, Repr

/-- The fields of an unlinked entry at this station (R35). -/
def unlinkedEntry (st : Station) (tapTime : Nat) (img : Image) : Image :=
  { img with
    journey := .inSystem, entryStation := st.number, entryZones := st.zones, entryTime := tapTime,
    originZones := st.zones, chainStart := tapTime, chainPaid := 0, chainLegs := 1, graceUsed := false }

/-- The fields of a linked entry at this station (R35). -/
def linkedEntry (st : Station) (tapTime : Nat) (img : Image) : Image :=
  { img with
    journey := .inSystem, entryStation := st.number, entryZones := st.zones, entryTime := tapTime,
    chainLegs := img.chainLegs + 1, graceUsed := false }

/-- An entry is linked: a last exit within W and legs below max legs (R35). -/
def linkable (p : Params) (tapTime : Nat) (img : Image) : Bool :=
  match img.lastExit with
  | some e => decide (elapsed tapTime e.time ≤ p.transferWindow) && decide (img.chainLegs < p.maxLegs)
  | none => false

/-- The entry rules (R35 to R37). -/
def ruleEntry (p : Params) (st : Station) (cls : ClassRec) (tapTime : Nat) (img : Image) : Ruling :=
  match img.journey with
  | .outside =>
    if img.balance < (cls.entryMin : Int) then .refuse .insufficient
    else
      .write { kind := .entry, charge := 0 }
        (if linkable p tapTime img then linkedEntry st tapTime img else unlinkedEntry st tapTime img)
  | .inSystem =>
    if img.entryStation = st.number ∧ elapsed tapTime img.entryTime ≤ p.grace then
      if img.graceUsed then .refuse .passback
      else .write { kind := .graceEntry, charge := 0 } { img with graceUsed := true }
    else if img.balance - (p.penalty : Int) < (cls.entryMin : Int) then .refuse .insufficient
    else
      .write { kind := .penaltyEntry, charge := p.penalty }
        { unlinkedEntry st tapTime img with balance := img.balance - (p.penalty : Int) }

/-- Exit grace: the last exit was at this station, at most G ago (R39). -/
def graceExit (p : Params) (st : Station) (tapTime : Nat) (img : Image) : Bool :=
  match img.lastExit with
  | some e => e.station == st.number && decide (elapsed tapTime e.time ≤ p.grace)
  | none => false

/-- The fields a priced exit sets (R38). -/
def exitImage (st : Station) (tapTime legs : Nat) (q : Priced) (img : Image) : Image :=
  { img with
    journey := .outside, lastExit := some { station := st.number, time := tapTime }, balance := q.balance,
    chainPaid := q.paid, spent := q.spent, capDay := q.capDay, graceUsed := false, chainLegs := legs }

/-- The exit rules of the NORMAL path (R38, R39). -/
def ruleExit (v : Service) (tb : TimeBase) (st : Station) (cls : ClassRec) (tapTime : Nat) (img : Image) : Ruling :=
  match img.journey with
  | .inSystem =>
    match v.priceExit tb cls st.zones img tapTime with
    | none => .refuse .insufficient
    | some q => .write { kind := .exit, charge := q.charge } (exitImage st tapTime img.chainLegs q img)
  | .outside =>
    if graceExit v.params st tapTime img then .exitGrace
    else
      match v.priceMissing tb cls st.zones img tapTime with
      | none => .refuse .insufficient
      | some q => .write { kind := .missingEntryExit, charge := q.charge } (exitImage st tapTime 4 q img)

/-- The free-exit rule (R40). -/
def ruleFreeExit (st : Station) (tapTime : Nat) (img : Image) : Ruling :=
  match img.journey with
  | .inSystem =>
    .write { kind := .freeExit, charge := 0 }
      { img with
        journey := .outside, lastExit := some { station := st.number, time := tapTime }, graceUsed := false }
  | .outside => .free

/-- Station settings that stand in when none are loaded, which readiness excludes in service (DESIGN CHOICE, log 31). -/
def Station.absent : Station :=
  { number := 0, zones := { first := 0, second := none }, mode := .bidirectional }

/-- Check 11: the rule that applies by side and path (R35 to R40). -/
def ruleTap (v : Service) (tb : TimeBase) (side : Side) (path : Path) (cls : ClassRec) (tapTime : Nat) (img : Image) :
    Ruling :=
  let st := v.station.getD .absent
  match side, path with
  | _, .freeExit => ruleFreeExit st tapTime img
  | .U, .normal => ruleEntry v.params st cls tapTime img
  | .P, .normal => ruleExit v tb st cls tapTime img

end Sys2Proof.Machine
end

