-- ==== Sys2Proof/Machine/Taps.lean ====
section
/-! DEFINITION. What the reader ports do with a tap: its checks in order (R28), the write and its readback (R16 to
R18), the blocking write (R20), and the five ways a tap ends (R21, R42 to R45). -/

namespace Sys2Proof.Machine

/-! ## The context and the port -/

/-- A context as it is created at detection (R26). -/
def TapContext.fresh (side : Side) (card : Option CardNo) : TapContext :=
  { side := side, card := card, path := none, slot := none, tapTime := none, header := none, areaA := none,
    areaB := none, image := none, screening := none, decision := none, newImage := none, storeSent := false,
    storeRetried := false, cloneSeen := false, verdict := none }

/-- The context of a side's port. -/
def State.ctx (s : State) (side : Side) : Option TapContext := (s.port side).ctx

/-- Update the context of a side's port, if it holds one. -/
def State.onCtx (side : Side) (f : TapContext → TapContext) (s : State) : State :=
  s.onPort side fun p => { p with ctx := p.ctx.map f }

/-- The port state to rest in: DISABLED if the port is to be disabled, else the state named (R21, R23;
DEDUCED, log 32). -/
def State.restState (s : State) (side : Side) (named : PortState) : PortState :=
  if s.disabled side then .disabled else named

/-- The context is cleared, the timers of the tap stopped (R21), any exchange abandoned: of a SUMMON in flight where a
WAIT_AISLE tap ends, the manual says nothing (DESIGN CHOICE, log 41). -/
def Port.close (st : PortState) (p : Port) : Port :=
  { p with state := st, exchange := none, deadline := .stopped, aisleWait := none, ctx := none }

/-- The port's tap is over and the port rests (R21, R22, R23); the drain of a SUSPEND is judged (R167). -/
def State.closeTap (side : Side) (named : PortState) (s : State) : State :=
  (s.onPort side (Port.close (s.restState side named))).judgeDrain

/-- The exchange in flight ends without another. -/
def State.endExchange (side : Side) (s : State) : State := s.onPort side fun p => { p with exchange := none }

/-- The port goes to a state and starts an exchange there. -/
def State.askIn (side : Side) (st : PortState) (r : CardRequest) (s : State) : State :=
  s.onPort side fun p => ({ p with state := st } : Port).ask r

/-- The slot the context holds is released, or its waiting request withdrawn (R21). -/
def State.releaseTap (side : Side) (s : State) : State :=
  match (s.ctx side).bind TapContext.slot with
  | some k => (s.onCtx side fun c => { c with slot := none }).freeSlot k
  | none => s.onClaim fun c => c.setWait side false

/-- The STOP hold starts afresh (R24). -/
def State.holdStop (side : Side) (s : State) : State :=
  s.onPort side fun p => { p with stopHold := some (s.clock + Config.stopHoldMs) }

/-- The sighting entry that the context's tap holds is set back (R34, R86). -/
def State.endUnwrittenTap (side : Side) (c : TapContext) (s : State) : State :=
  match c.card with
  | some card => s.endUnwritten side card
  | none => s

/-! ## Refusals (R42) -/

/-- The REFUSAL record; its balance stands once check 9 has passed (R42). -/
def TapContext.refusalRecord (c : TapContext) (reason : RefusalReason) : RecBody :=
  { kind := .refusal, side := some c.side, card := c.card, reason := some (.refusal reason),
    balance := c.image.map fun i => i.image.balance }

/-- The record of a refusal; JOURNAL_FULL makes none (R42). -/
def State.recordRefusal (c : TapContext) (reason : RefusalReason) (s : State) : State :=
  match reason with
  | .journalFull => s
  | r => s.append (c.refusalRecord r)

/-- The tap result of a refusal (R45). -/
def TapContext.refusalResult (c : TapContext) (reason : RefusalReason) : TapResult :=
  { outcome := .refused reason, card := c.card, fare := none, balance := c.image.map fun i => i.image.balance }

/-- A tap ends in a refusal (R21, R42). Its REFUSAL record comes before the records of a held update applied when its
entry is set back (DESIGN CHOICE, log 40). -/
def State.refuse (side : Side) (reason : RefusalReason) (s : State) : State :=
  match s.ctx side with
  | none => s
  | some c =>
    (((((s.recordRefusal c reason).endUnwrittenTap side c).releaseTap side).giveResult side
      (c.refusalResult reason)).holdStop side).closeTap side .done

/-! ## The blocking write (R20) -/

/-- The header read with its status BLOCKED (R20). -/
def Header.block (h : Header) : Header := { h with status := .blocked }

/-- The bytes of the blocked header of a context. -/
def TapContext.blockedBytes (c : TapContext) : List Byte := (c.header.map fun h => h.block.bytes).getD []

/-- The verdict is fixed, the deadline stops, and the blocked header is stored (R15, R20). -/
def State.startBlock (side : Side) (v : Verdict) (s : State) : State :=
  match s.ctx side with
  | none => s
  | some c =>
    (s.onPort side fun p =>
      { p with deadline := .stopped, ctx := p.ctx.map fun x => { x with verdict := some v } }).askIn side .writing
        (.store .header c.blockedBytes)

/-- The reason of a CARD_BLOCKED record (R20). -/
def Verdict.blockReason : Verdict → Reason
  | .refused .denied => .denied
  | .refused _ => .clone
  | .committedClone => .clone

/-- The CARD_BLOCKED record (R20). -/
def TapContext.blockedRecord (c : TapContext) (v : Verdict) (confirmed : Bool) : RecBody :=
  { kind := .cardBlocked, side := some c.side, card := c.card, reason := some v.blockReason,
    outcome := some (if confirmed then .committed else .voided) }

/-- The tap result of a commit whose last look found the clone mark (R45). -/
def TapContext.cloneResult (c : TapContext) : TapResult :=
  { outcome := .clone, card := c.card, fare := c.decision.map Decision.charge, balance := c.newImage.map Image.balance }

/-- The blocking write ends: its record, then the tap ends with the verdict fixed before it (R20, R21). -/
def State.endBlock (side : Side) (confirmed : Bool) (s : State) : State :=
  match s.ctx side with
  | none => s
  | some c =>
    let v := c.verdict.getD (.refused .clone)
    let t := s.append (c.blockedRecord v confirmed)
    match v with
    | .refused reason => t.refuse side reason
    | .committedClone => ((t.giveResult side c.cloneResult).holdStop side).closeTap side .done

/-! ## Successes (R43, R44) -/

/-- The context hands its slot over as a credit on the NORMAL path outside an emergency; otherwise it forms none and
releases the slot (R43, R44). -/
def State.handOver (side : Side) (origin : CreditOrigin) (s : State) : State :=
  match s.ctx side with
  | none => s
  | some c =>
    match c.slot with
    | some k =>
      if c.path = some .normal ∧ s.emergency.line = false then
        (s.onCtx side fun x => { x with slot := none }).formCredit k (dirOf side) origin
      else s.releaseTap side
    | none => s

/-- A success without a write: credit, tap result with the balance read, end (R44, R45). A STOP hold still running
runs on (DESIGN CHOICE, log 39). -/
def State.succeed (side : Side) (c : TapContext) (outcome : TapOutcome) (origin : Option CreditOrigin) (s : State) :
    State :=
  let t := match origin with
    | some o => s.handOver side o
    | none => s.releaseTap side
  (t.giveResult side
    { outcome := outcome, card := c.card, fare := none, balance := c.image.map fun i => i.image.balance }).closeTap
    side .done

/-- The EXIT_GRACE record (R44). -/
def TapContext.graceRecord (c : TapContext) : RecBody :=
  { kind := .exitGrace, side := some c.side, card := c.card, balance := c.image.map fun i => i.image.balance }

/-- The kind of a commit's record (R43). -/
def CommitKind.record : CommitKind → RecKind
  | .entry => .entry
  | .graceEntry => .graceEntry
  | .penaltyEntry => .penaltyEntry
  | .exit => .exit
  | .missingEntryExit => .missingEntryExit
  | .freeExit => .freeExit

/-- The commit record (R43); its reason is CLONE when the last look found the mark (R17). -/
def TapContext.commitRecord (c : TapContext) (d : Decision) (img : Image) (reason : Option Reason) : RecBody :=
  { kind := d.kind.record, side := some c.side, card := c.card, txc := some img.txc, fare := some d.charge,
    balance := some img.balance, reason := reason }

/-- The tap result of a commit (R45). -/
def TapContext.commitResult (c : TapContext) (d : Decision) (img : Image) : TapResult :=
  { outcome := .committed d.kind, card := c.card, fare := some d.charge, balance := some img.balance }

/-- The credit and the Screening commit of one tap. In leaf FAULT, where the credit is cleared at once, R121 leaves
their order open, and it is drawn from a free value (log 9). -/
def State.creditAndCommit (side : Side) (card : CardNo) (origin : CreditOrigin) (s : State) : State :=
  if s.passage.leaf = .fault then
    let t := { s with freeReads := s.freeReads + 1 }
    if Config.creditFirst s.freeReads then (t.handOver side origin).commitSighting side card
    else (t.commitSighting side card).handOver side origin
  else (s.commitSighting side card).handOver side origin

/-- A confirmed write whose look found the mark clear commits (R43). A STOP hold still running runs on (DESIGN CHOICE,
log 39). -/
def State.commit (side : Side) (c : TapContext) (card : CardNo) (d : Decision) (img : Image) (s : State) : State :=
  (((s.append (c.commitRecord d img none)).creditAndCommit side card (.tap s.journal.nextSerial card)).giveResult side
    (c.commitResult d img)).closeTap side .done

/-- A confirmed write whose look found the mark set: committed with reason CLONE, no credit, then the blocking write
(R17). -/
def State.commitMarked (side : Side) (c : TapContext) (card : CardNo) (d : Decision) (img : Image) (s : State) :
    State :=
  ((((s.append (c.commitRecord d img (some .clone))).releaseTap side).commitSighting side card).onCtx side
    fun x => { x with cloneSeen := true }).startBlock side .committedClone

/-- A tap ends IN_DOUBT (R19). -/
def State.inDoubt (side : Side) (s : State) : State :=
  match s.ctx side with
  | none => s
  | some c =>
    let t := match c.card with
      | some card => s.convert side card
      | none => s
    (((t.releaseTap side).giveResult side
      { outcome := .inDoubt, card := c.card, fare := none, balance := none }).holdStop side).closeTap side .done

/-! ## The purse write (R6, R16, R18) -/

/-- The area of an image slot. -/
def ImageSlot.area : ImageSlot → Area
  | .A => .imageA
  | .B => .imageB

/-- The write slot: the one that is not the image read's (R5). -/
def ImageSlot.other : ImageSlot → ImageSlot
  | .A => .B
  | .B => .A

/-- The bytes of an area as read by the context. -/
def TapContext.areaBytes (c : TapContext) : ImageSlot → Option (List Byte)
  | .A => c.areaA.map AreaRead.bytes
  | .B => c.areaB.map AreaRead.bytes

/-- An image as the Screening Unit knows it. -/
def Image.seen (i : Image) : SImage := { txc := i.txc, stamp := i.stamp }

/-- The CURRENT slot for a new image; a CURRENT slot stands while taps are taken (R165), and with none the number is 0
(DESIGN CHOICE, log 31). -/
def Service.writeScheme (v : Service) : Nat := v.schemes.current.getD 0

/-- The formed image: txc one greater than the image read's, the CURRENT scheme, and the stamp correct for it (R6). -/
def formImage (scheme : Nat) (card : CardNo) (read body : Image) : Image :=
  let i := { body with txc := read.txc + 1, scheme := scheme }
  { i with stamp := i.stampFor scheme card }

/-- A STORE of the formed image to the write slot (R16). -/
def State.storeImage (side : Side) (i : ImageRead) (img : Image) (s : State) : State :=
  s.askIn side .writing (.store i.slot.other.area img.bytes)

/-- A clone finding takes the place of the write: the entry is set back, the CLONE outcome follows with its blocking
write (R14, R18, R83, DEDUCED, log 10). The context's clone mark seen is set here also where the write is void, a look
at the mark that R26 does not name (DEDUCED, log 51). -/
def State.switchToClone (side : Side) (card : CardNo) (s : State) : State :=
  (((s.endUnwritten side card).cloneOutcome card).onCtx side fun x => { x with cloneSeen := true }).startBlock side
    (.refused .clone)

/-- The tap needs a card write: the new image is formed, the clone mark looked at, and the STORE sent (R14, R16). -/
def State.beginWrite (side : Side) (card : CardNo) (i : ImageRead) (d : Decision) (body : Image) (s : State) : State :=
  let img := formImage s.service.writeScheme card i.image body
  let t := s.onCtx side fun x => { x with decision := some d, newImage := some img }
  if t.markSeen side card then t.switchToClone side card
  else
    ((t.onCtx side fun x => { x with storeSent := true }).storeSent side card img.seen).storeImage side i img

/-- A tap whose write is void: refused WRITE_FAILED, or CLONE if the mark is set (R18), which sets clone mark seen too
(DEDUCED, log 51). -/
def State.voidWrite (side : Side) (card : CardNo) (s : State) : State :=
  if s.markSeen side card then s.switchToClone side card else s.refuse side .writeFailed

/-! ## Checks 5 to 11 (R32 to R40) -/

/-- Checks 5, 6 and 7: status, class, expiry (R32, R70). -/
def State.headerRefusal (s : State) (h : Header) (tapTime : Nat) : Option RefusalReason :=
  if h.status = .blocked then some .blocked
  else if !(s.service.classes.get h.cls).valid then some .classUnknown
  else if h.expiry < s.time.serviceDay tapTime then some .expired
  else none

/-- How check 9 ends (R5). -/
inductive Choice where
  | refuse (reason : RefusalReason)
  | image (i : ImageRead)
  deriving DecidableEq, Repr

/-- A current image with txc 65,535 is exhausted (R5). -/
def Choice.unexhausted (slot : ImageSlot) (i : Image) : Choice :=
  if 65535 ≤ i.txc then .refuse .cardExhausted else .image { slot := slot, image := i }

/-- Check 9: the current image is chosen (R5). -/
def chooseImage : Option Image → Option Image → Choice
  | some a, some b =>
    if a.txc = b.txc then .refuse .cardInconsistent
    else if b.txc < a.txc then .unexhausted .A a
    else .unexhausted .B b
  | some a, none => .unexhausted .A a
  | none, some b => .unexhausted .B b
  | none, none => .refuse .stampBad

/-- The class record of a context's card. -/
def State.classOf (s : State) (c : TapContext) : ClassRec := s.service.classes.get ((c.header.map Header.cls).getD 8)

/-- Check 11 and what follows from it (R35 to R40, R44). At an exit grace the EXIT_GRACE record comes first, then the
records of a held update applied when the entry is set back, then the credit, in leaf FAULT with the UNUSED_CREDIT
record of its clearing (R121): an order that the manual does not give (DESIGN CHOICE, log 40). -/
def State.checkJourney (side : Side) (c : TapContext) (card : CardNo) (i : ImageRead) (tapTime : Nat) (s : State) :
    State :=
  match ruleTap s.service s.time side (c.path.getD .normal) (s.classOf c) tapTime i.image with
  | .refuse reason => s.refuse side reason
  | .exitGrace => ((s.append c.graceRecord).endUnwrittenTap side c).succeed side c .exitGrace (some .grace)
  | .free => (s.endUnwrittenTap side c).succeed side c .free none
  | .write d body => s.beginWrite side card i d body

/-- Check 10 and what follows from it (R34). -/
def State.checkSighting (side : Side) (c : TapContext) (card : CardNo) (i : ImageRead) (tapTime : Nat) (s : State) :
    State :=
  let c := { c with image := some i }
  let r := s.screen side card i.image.balance i.image.seen
  let t := r.1.onCtx side fun x => { x with image := some i, screening := some r.2 }
  match r.2 with
  | .clone => t.startBlock side (.refused .clone)
  | .regrant => t.succeed side c .regrant (some .regrant)
  | .recovered => t.succeed side c .recovered (some .recovered)
  | .clear => t.checkJourney side c card i tapTime

/-- Check 9 and what follows from it (R5). -/
def State.checkImage (side : Side) (c : TapContext) (card : CardNo) (tapTime : Nat) (s : State) : State :=
  match chooseImage (c.areaA.bind AreaRead.valid) (c.areaB.bind AreaRead.valid) with
  | .refuse reason => s.refuse side reason
  | .image i => s.checkSighting side c card i tapTime

/-- Check 8 and what follows from it (R33). -/
def State.checkDeny (side : Side) (c : TapContext) (card : CardNo) (tapTime : Nat) (s : State) : State :=
  match s.screening.denied card with
  | some e =>
    match e.action with
    | .refuse => s.refuse side .denied
    | .refuseAndBlock => s.startBlock side (.refused .denied)
  | none => s.checkImage side c card tapTime

/-- SCREENING: the tap time is taken, then checks 5 to 11 in order (R14, R27, R28). -/
def State.screenTap (side : Side) (c : TapContext) (h : Header) (card : CardNo) (s : State) : State :=
  let tapTime := s.time.now
  let t := (s.onPort side fun p => { p with state := .screening, exchange := none }).onCtx side
    fun x => { x with tapTime := some tapTime }
  match t.headerRefusal h tapTime with
  | some reason => t.refuse side reason
  | none => t.checkDeny side c card tapTime

/-! ## Checks 1 to 3 (R11, R28 to R31) -/

/-- The free-exit path needs no slot: the port enters READING (R11, R30). -/
def State.freeExit (side : Side) (s : State) : State := s.onPort side (Port.beginReading s.clock .freeExit none)

/-- A port's slot request: granted at once, or waiting with the deadline paused (R11, R12, R118). -/
def State.requestSlot (side : Side) (s : State) : State :=
  if s.grantable (dirOf side) then s.grantPort side
  else
    (s.onClaim fun c => c.setWait side true).onPort side fun p =>
      { p with
        state := .waitAisle, deadline := p.deadline.pause s.clock,
        aisleWait := some (s.clock + 1000 * s.service.params.aisleWait), exchange := none }

/-- Check 3 under a line emergency: an INBOUND tap is refused, an OUTBOUND tap takes the free-exit path (R30). -/
def State.emergencyPath (side : Side) (s : State) : State :=
  match side with
  | .U => s.refuse .U .emergency
  | .P => s.freeExit .P

/-- Check 3 (R30). -/
def State.checkAisle (side : Side) (s : State) : State :=
  if s.emergency.line then s.emergencyPath side else s.requestSlot side

/-- A detection: context, deadline, then checks 1 to 3 (R10, R11). -/
def State.detect (side : Side) (card : CardNo) (s : State) : State :=
  let t := s.onPort side fun p =>
    { p with
      state := .detected, exchange := none, deadline := .running (s.clock + Config.dialogueMs),
      ctx := some (.fresh side (some card)) }
  if t.service.state ≠ .inService then t.closeTap side .disabled
  else if t.journal.halted then t.refuse side .journalFull
  else t.checkAisle side

/-- A collision in IDLE: a context without a card number is refused MULTIPLE_CARDS (R10). -/
def State.collide (side : Side) (s : State) : State :=
  (s.onPort side fun p => { p with exchange := none, ctx := some (.fresh side none) }).refuse side .multipleCards

/-- A tap without outcome: the slot request is withdrawn and the context discarded (R12, R21). -/
def State.vanish (side : Side) (named : PortState) (s : State) : State :=
  (s.onClaim fun c => c.setWait side false).closeTap side named

/-! ## Answers and windows (R7 to R9, R12 to R18) -/

/-- An OK SUMMON answer by port state (R9, R10, R12, R22). -/
def State.summoned (side : Side) (card : CardNo) (collided : Bool) (s : State) : State :=
  match (s.port side).state with
  | .idle => if collided then s.collide side else s.detect side card
  | .waitAisle =>
    if collided then s.refuse side .multipleCards
    else if (s.ctx side).bind TapContext.card = some card then s.endExchange side
    else s.vanish side .done
  | .done | .disabled | .detected | .reading | .screening | .writing | .confirming => s.endExchange side

/-- An image area as fetched: valid when its fields are in range, its slot is ACCEPTED or CURRENT, and its stamp is
correct over the header's card number (R2, R3, R193); judged when the area is received (DEDUCED, log 15). -/
def Service.readArea (v : Service) (card : CardNo) (bytes : List Byte) : AreaRead :=
  { bytes := bytes,
    valid := (Image.read bytes).filter fun i =>
      (v.schemes.get i.scheme == .accepted || v.schemes.get i.scheme == .current)
        && i.stamp == Config.stampOf i.scheme (stampInput card (bytes.take 36)) }

/-- An area read in READING (R13). -/
def State.readingAnswer (side : Side) (c : TapContext) (area : Area) (content : List Byte) (s : State) : State :=
  match area, c.card, c.header with
  | .header, some card, _ =>
    match Header.accept card content with
    | some h => (s.onCtx side fun x => { x with header := some h }).askIn side .reading (.fetch .imageA)
    | none => s.refuse side .cardUnreadable
  | .imageA, some card, some _ =>
    (s.onCtx side fun x => { x with areaA := some (s.service.readArea card content) }).askIn side .reading
      (.fetch .imageB)
  | .imageB, some card, some h =>
    let area := s.service.readArea card content
    (s.onCtx side fun x => { x with areaB := some area }).screenTap side { c with areaB := some area } h card
  | _, _, _ => s.endExchange side

/-- The readback of the write slot, or the look at the old area (R17, R18). -/
def State.imageReadback (side : Side) (c : TapContext) (card : CardNo) (i : ImageRead) (d : Decision) (img : Image)
    (area : Area) (content : List Byte) (s : State) : State :=
  if area = i.slot.other.area then
    if content = img.bytes then
      let t := s.onPort side fun p => { p with deadline := .stopped, exchange := none }
      if t.markSeen side card then t.commitMarked side c card d img else t.commit side c card d img
    else s.askIn side .confirming (.fetch i.slot.area)
  else if c.areaBytes i.slot = some content ∧ c.storeRetried = false then
    (s.onCtx side fun x => { x with storeRetried := true }).storeImage side i img
  else s.voidWrite side card

/-- An area read in CONFIRMING (R17, R18, R20). -/
def State.confirmingAnswer (side : Side) (c : TapContext) (area : Area) (content : List Byte) (s : State) : State :=
  match area, c.card, c.image, c.decision, c.newImage with
  | .header, _, _, _, _ => s.endBlock side (content == c.blockedBytes)
  | _, some card, some i, some d, some img => s.imageReadback side c card i d img area content
  | _, _, _, _, _ => s.endExchange side

/-- An OK FETCH answer completes its exchange (R13, R17, R18, R20). -/
def State.fetched (side : Side) (area : Area) (content : List Byte) (s : State) : State :=
  match s.ctx side with
  | none => s.endExchange side
  | some c =>
    match (s.port side).state with
    | .reading => s.readingAnswer side c area content
    | .confirming => s.confirmingAnswer side c area content
    | .disabled | .idle | .detected | .waitAisle | .screening | .writing | .done => s.endExchange side

/-- A STORE exchange has ended, well or not: the port reads back what it stored (R16, R20). -/
def State.stored (side : Side) (area : Area) (s : State) : State := s.askIn side .confirming (.fetch area)

/-- A frame that does not answer the request in flight is of class CHECK (R8, R194). -/
def State.wrongAnswer (side : Side) (s : State) : State :=
  s.onPort side fun p => { p with exchange := p.exchange.map fun x => { x with windowError := true } }

/-- A failed attempt adds one to the exchange attempt count (R8). -/
def Port.failAttempt (p : Port) : Port := { p with attempts := p.attempts + 1 }

/-- The last attempt has failed and the exchange ends (R8, R9). -/
def Port.failExchange (p : Port) : Port := { p.failAttempt with exchange := none }

/-- The exchange in flight, if any, is abandoned, a failed attempt (R8, R15). -/
def Port.abandon (p : Port) : Port := if p.exchange.isSome then p.failExchange else p

/-- The request is sent again (R8). -/
def State.retry (side : Side) (error : Bool) (s : State) : State :=
  s.onPort side fun p =>
    { p.failAttempt with
      exchange := p.exchange.map fun x =>
        { x with windowError := false, earlierError := x.earlierError || error } }

/-- An attempt of a SUMMON fails: sent again below 3 attempts, else the exchange has failed (R8, R9). -/
def State.retrySummon (side : Side) (error : Bool) (s : State) : State :=
  if (s.port side).attempts + 1 < Config.attempts then s.retry side error else s.onPort side Port.failExchange

/-- A window of a SUMMON closes without an OK answer (R9, R12, R22). Silence in IDLE and DONE ends the SUMMON at once
and is no failed attempt (DESIGN CHOICE, log 38); in WAIT_AISLE it is one. -/
def State.summonWindow (side : Side) (x : Exchange) (error : Bool) (s : State) : State :=
  match (s.port side).state with
  | .idle => if error then s.retrySummon side error else s.endExchange side
  | .done =>
    if error then s.retrySummon side error
    else if x.earlierError then s.endExchange side
    else s.onPort side fun p => { p with exchange := none, state := .idle }
  | .waitAisle =>
    if (s.port side).attempts + 1 < Config.attempts || error || x.earlierError then s.retrySummon side error
    else (s.onPort side Port.failExchange).vanish side .idle
  | .disabled | .detected | .reading | .screening | .writing | .confirming => s.endExchange side

/-- A FETCH has failed (R13, R17, R18, R20). -/
def State.fetchFailed (side : Side) (area : Area) (s : State) : State :=
  match (s.port side).state with
  | .reading => s.refuse side .cardUnreadable
  | .confirming => if area = .header then s.endBlock side false else s.inDoubt side
  | .disabled | .idle | .detected | .waitAisle | .screening | .writing | .done => s.endExchange side

/-- A window of a FETCH or STORE closes without an OK answer: sent again below 3 attempts, else failed (R8). -/
def State.areaWindow (side : Side) (error : Bool) (failed : State → State) (s : State) : State :=
  if (s.port side).attempts + 1 < Config.attempts then s.retry side error
  else failed (s.onPort side Port.failAttempt)

/-- An answer window closes without an OK frame (R8, R9). -/
def State.windowClosed (side : Side) (seen : Bool) (s : State) : State :=
  match (s.port side).exchange with
  | none => s
  | some x =>
    let error := x.windowError || seen
    match x.request with
    | .summon => s.summonWindow side x error
    | .fetch area => s.areaWindow side error (State.fetchFailed side area)
    | .store area _ => s.areaWindow side error (State.stored side area)

/-- The dialogue deadline expires (R15): the exchange in flight is abandoned, a failed attempt (R8), and the tap ends.
-/
def State.deadlineExpired (side : Side) (s : State) : State :=
  match s.ctx side with
  | none => s
  | some c =>
    let t := s.onPort side Port.abandon
    if c.storeSent then t.inDoubt side else t.refuse side .cardUnreadable

end Sys2Proof.Machine
end

