-- ==== Sys2Proof/Machine/Emergency.lean ====
section
/-! DEFINITION. The Emergency Unit: the judging of the line emergency state with its hand-offs (R139, R145, R146,
R147), and the changes of the own contribution (R141, R142). -/

namespace Sys2Proof.Machine

/-- The contribution changes that can change the line emergency state (R145). -/
inductive EmergencyCause where
  | fire | host
  | peerAssert (addr : Nat)
  | peerDeassert (addr : Nat)
  | peerRefresh (addr : Nat)
  | peerHold (addr : Nat)
  | peerLost (addr : Nat)
  deriving DecidableEq, Repr

/-- The reason a cause gives a record (R145). -/
def EmergencyCause.reason : EmergencyCause → Reason
  | .fire => .fire
  | .host => .host
  | .peerAssert _ => .peerAssert
  | .peerDeassert _ => .peerDeassert
  | .peerRefresh _ => .peerRefresh
  | .peerHold _ => .peerHold
  | .peerLost _ => .peerLost

/-- The peer address a cause gives a record (R145). -/
def EmergencyCause.peer : EmergencyCause → Option Nat
  | .fire => none
  | .host => none
  | .peerAssert a => some a
  | .peerDeassert a => some a
  | .peerRefresh a => some a
  | .peerHold a => some a
  | .peerLost a => some a

/-- The record of a change of the line emergency state (R145). -/
def EmergencyCause.record (cause : EmergencyCause) (active : Bool) : RecBody :=
  { kind := if active then .emergencyStart else .emergencyEnd, reason := some cause.reason, peer := cause.peer }

/-- Both waiting requests are withdrawn: no slot that the emergency frees is granted (R31, R146, DESIGN CHOICE, log
11). -/
def State.withdrawBoth (s : State) : State := s.onClaim fun c => { c with waitU := false, waitP := false }

/-- A waiting context of Port U is refused EMERGENCY (R31). -/
def State.emergencyPortU (s : State) : State :=
  if s.portU.state = .waitAisle then s.refuse .U .emergency else s

/-- A waiting context of Port P takes the free-exit path (R31). -/
def State.emergencyPortP (s : State) : State := if s.portP.state = .waitAisle then s.freeExit .P else s

/-- The line emergency becomes ACTIVE (R145, R146): record and notice, then the aisle, then the waiting contexts. -/
def State.emergencyStarts (cause : EmergencyCause) (s : State) : State :=
  ((((s.withdrawBoth.append (cause.record true)).raise .emergencyChange).aisleEmergency).emergencyPortU).emergencyPortP

/-- The line emergency leaves ACTIVE (R145, R147): record and notice, and the leaf command is judged again. -/
def State.emergencyEnds (cause : EmergencyCause) (s : State) : State :=
  ((s.append (cause.record false)).raise .emergencyChange).settleLeaves

/-- The line emergency state is judged after a change of a contribution (R145). -/
def State.judgeEmergency (cause : EmergencyCause) (s : State) : State :=
  match s.emergency.line, s.lineJudged with
  | false, true => (s.onEmergency fun e => { e with line := true }).emergencyStarts cause
  | true, false => (s.onEmergency fun e => { e with line := false }).emergencyEnds cause
  | true, true => s
  | false, false => s

/-- The link is told of a change of the own contribution: a DEASSERT is due after a fall, none after a rise (R104). -/
def Link.ownChanged (own : Bool) (l : Link) : Link := { l with deassertPending := !own }

/-- The fire input or the host flag changes (R141). Nothing else follows when the own contribution stays as it was. -/
def State.changeOwn (f : Emergency → Emergency) (cause : EmergencyCause) (s : State) : State :=
  let t := s.onEmergency f
  if t.emergency.own = s.emergency.own then t
  else ((t.onLink (Link.ownChanged t.emergency.own)).judgeEmergency cause).raise .emergencyChange

end Sys2Proof.Machine
end

