-- ==== Sys2Proof/Machine/Alarms.lean ====
section
/-! DEFINITION. The commands of the Emergency Unit: the fire input and the host's flag (R141, R142). -/

namespace Sys2Proof.Machine

/-- The fire input takes a level (R141). -/
def State.takeFire (level : Bool) (s : State) : State := s.changeOwn (fun e => { e with fire := level }) .fire

/-- FIRE_INPUT_CHANGE (R141). -/
def execFireInputChange (level : Bool) (s : State) : Result :=
  done ((s.onPins fun p => { p with fire := level }).takeFire level)

/-- What a reply to SET_EMERGENCY or CLEAR_EMERGENCY gives (R142). -/
def State.emergencyBody (s : State) : ReplyBody := .emergency s.emergency.hostFlag s.emergency.own s.emergency.line

/-- The host flag takes a value, and the reply shows what follows from it (R142); it is formed after the replies of the
SUSPENDs whose drain that completes (DESIGN CHOICE, log 48). -/
def State.setHostFlag (tag : Byte) (kind : ReqKind) (flag : Bool) (s : State) : State :=
  let t := s.changeOwn (fun e => { e with hostFlag := flag }) .host
  t.reply tag kind t.emergencyBody

/-- SET_EMERGENCY (R142). -/
def execSetEmergency (tag : Byte) (body : List Byte) (s : State) : Result :=
  request tag .setEmergency (readEmpty body) (fun _ => State.setHostFlag tag .setEmergency true) s

/-- CLEAR_EMERGENCY (R142). -/
def execClearEmergency (tag : Byte) (body : List Byte) (s : State) : Result :=
  request tag .clearEmergency (readEmpty body) (fun _ => State.setHostFlag tag .clearEmergency false) s

end Sys2Proof.Machine
end

