-- ==== Sys2Proof/Machine/LinkOps.lean ====
section
/-! DEFINITION. The Aisle Link Controller's operations: the member table (R102, R144), the token and its turn (R103 to
R106, R109), the choice of the next frame (R104, R112), conflict, restart and the taking of a frame (R110, R115). -/

namespace Sys2Proof.Machine

/-! ## The member table (R102) and the ring (R105, R106) -/

/-- The row of an address, 1 to 16. -/
def Link.row (l : Link) : Nat → MemberRow
  | 0 => .blank
  | k + 1 => l.rows.getD k .blank

/-- The table with the row of an address set. -/
def Link.setRow (l : Link) (a : Nat) (r : MemberRow) : Link :=
  match a with
  | 0 => l
  | k + 1 => { l with rows := l.rows.set k r }

/-- The fifteen other addresses in ascending ring order after one, wrapping from 16 to 1. -/
def ringFrom (a : Nat) : List Nat := (List.range 15).map fun i => (a + i) % 16 + 1

/-- The successor: the first PRESENT row after the own address (R105). -/
def Link.successor (l : Link) : Option Nat := (ringFrom l.addr).find? fun a => (l.row a).present

/-- The candidates of an invitation: the ABSENT rows before the successor, or all others of a lone holder (R106). -/
def Link.candidates (l : Link) : List Nat := (ringFrom l.addr).takeWhile fun a => !(l.row a).present

/-- The address to invite: the first candidate after the pointer in ring order, else the first of all (R106). -/
def Link.invited (l : Link) : Option Nat :=
  ((ringFrom l.pointer).find? fun a => l.candidates.contains a).or l.candidates.head?

/-! ## Timers and cuts -/

/-- The silence timeout of an address in ms (R108). -/
def silenceMs (addr : Nat) : Nat := 10 + 2 * (addr - 1)

/-- The part listens for silence: LISTENING, or MEMBER in WAITING (R108). -/
def Link.awaitsSilence (l : Link) : Bool :=
  match l.state with
  | .listening => true
  | .member => l.token == .waiting
  | .offline _ => false

/-- The silence timeout starts afresh while the part listens for silence, else it does not run (R108). -/
def Link.restartSilence (clock : Nat) (l : Link) : Link :=
  { l with silence := if l.awaitsSilence then some (clock + silenceMs l.addr) else none }

/-- A frame in transmission is cut short, or one that waits to be sent is not begun: a queued frame stays queued (R109,
R115). -/
def Link.cutTx (l : Link) : Link :=
  { l with due := false, tx := none, txBegun := false, queue := l.queue.map fun q => { q with inTx := false } }

/-- The part drives the line while a frame goes out, from its first bit to its last stop bit; between two frames it
does not (R97). -/
def Link.driving (l : Link) : Bool := l.tx.isSome && l.txBegun

/-- The part enters WAITING without the token; the rest of its turn is abandoned (R109). -/
def Link.dropToken (clock : Nat) (l : Link) : Link :=
  ({ l.cutTx with
    token := .waiting, sent := 0, emergencySent := false, inviteDue := false, loneWait := none, window := none } :
    Link).restartSilence clock

/-- The link rests after a restart or reset: no token, turn count 0, pointer at the address (R115, R116). -/
def Link.atRest (addr : Nat) (l : Link) : Link :=
  { l.cutTx with
    addr := addr, state := if addr = 0 then .offline .noAddress else .listening, token := .waiting, turn := 0,
    pointer := if addr = 0 then 1 else addr, sent := 0, emergencySent := false, inviteDue := false, rxBegun := false,
    loneWait := none, window := none }

/-! ## Sending a turn (R103 to R107) -/

/-- A queued frame becomes the one in transmission. -/
def QItem.send (q : QItem) : QItem := { q with inTx := true }

/-- The first frame a test accepts is chosen. -/
def chooseFirst (p : QItem → Bool) (queue : List QItem) : Option (List QItem) :=
  if queue.any p then some (changeFirst p QItem.send queue) else none

/-- The oldest eligible LAPSE or REGRANT is chosen: no SIGHTING of its card stands ahead of it; `ahead` holds the cards
of the SIGHTINGs passed (R104, R112). -/
def chooseEligible (ahead : List CardNo) : List QItem → Option (List QItem)
  | [] => none
  | q :: rest =>
    match q.msg.kind with
    | .sighting => (chooseEligible (q.msg.card :: ahead) rest).map (q :: ·)
    | .denyAdd => (chooseEligible ahead rest).map (q :: ·)
    | .lapse | .regrant =>
      if ahead.contains q.msg.card then (chooseEligible ahead rest).map (q :: ·) else some (q.send :: rest)

/-- The queued frame to send next, by the priority of R104. -/
def chooseData (queue : List QItem) : Option (List QItem) :=
  ((chooseFirst (fun q => q.msg.kind == .denyAdd) queue).or (chooseEligible [] queue)).or
    (chooseFirst (fun q => q.msg.kind == .sighting) queue)

/-- The EMERGENCY frame that is due in this turn, once a turn: ASSERT while the own contribution is asserted, else a
pending DEASSERT (R104, DEDUCED, log 22). -/
def Link.emergencyDue (own : Bool) (l : Link) : Option Bool :=
  if l.emergencySent then none else if own then some true else if l.deassertPending then some false else none

/-- A frame is the one to go out, its first bit still to come; it takes the place of any other (DESIGN CHOICE, log 19).
-/
def Link.send (tx : LinkTx) (l : Link) : Link := { l.cutTx with tx := some tx }

/-- The part sends TOKEN to a successor and is PASSING (R105). -/
def Link.passTo (a : Nat) (l : Link) : Link :=
  { l.send (.token a) with token := .passing a 1, inviteDue := false, loneWait := none, window := none }

/-- The lone holder keeps the token silently; its wait runs from the end of its last transmission, which a window
dates, or from now (R105). -/
def Link.loneHolder (clock : Nat) (l : Link) : Link :=
  { l.cutTx with
    token := .sending, inviteDue := false, window := none,
    loneWait := some (l.window.elim clock (fun w => w - Config.windowMs) + Config.loneMs) }

/-- The part passes the token, or is the lone holder (R105). -/
def Link.pass (clock : Nat) (l : Link) : Link :=
  match l.successor with
  | some a => l.passTo a
  | none => l.loneHolder clock

/-- The part sends JOIN_INVITE and is INVITING (R106). -/
def Link.invite (a : Nat) (l : Link) : Link :=
  { l.send (.invite a) with token := .inviting a false, pointer := a, inviteDue := false, window := none }

/-- After the frames of a turn: the invitation of an invitation turn, else the pass (R104, R106). -/
def Link.endFrames (clock : Nat) (l : Link) : Link :=
  if l.inviteDue then
    match l.invited with
    | some a => l.invite a
    | none => l.pass clock
  else l.pass clock

/-- The next frame of the turn is chosen, by the state at the moment of sending (R104). -/
def Link.nextInTurn (clock : Nat) (own : Bool) (l : Link) : Link :=
  if 4 ≤ l.sent then l.endFrames clock
  else
    match l.emergencyDue own, chooseData l.cutTx.queue with
    | some assert, _ => l.send (.emergency assert)
    | none, some queue => { l.send .data with queue := queue }
    | none, none => l.endFrames clock

/-- The turn goes on (R103, R105): with something left to send the part waits to send it; else it is the lone holder,
and its wait begins. -/
def Link.goOn (clock : Nat) (own : Bool) (l : Link) : Link :=
  if (l.nextInTurn clock own).tx.isSome then { l.cutTx with due := true } else l.nextInTurn clock own

/-- The frame that the part waits to send is chosen (R104). -/
def Link.choose (clock : Nat) (own : Bool) (l : Link) : Link := if l.due then l.nextInTurn clock own else l

/-- The first bit of a frame goes out, if there is one to send: a frame of the turn is chosen now, and drive-enable is
asserted (R97, R103, R104). -/
def Link.beginTx (clock : Nat) (own : Bool) (l : Link) : Link :=
  { l.choose clock own with txBegun := (l.choose clock own).tx.isSome }

/-- A turn begins (R103): the turn count advances, and the part goes on to its first frame. A JOIN_REPLY that was chosen
and has not been sent gives way to the turn and is not sent (DESIGN CHOICE, log 45). -/
def Link.beginTurn (clock : Nat) (own : Bool) (l : Link) : Link :=
  let turn := (l.turn + 1) % 8
  ({ l.cutTx with
    token := .sending, turn := turn, sent := 0, emergencySent := false, inviteDue := turn == 0, loneWait := none,
    window := none, silence := none } : Link).goOn clock own

/-- The part takes the token: MEMBER if it was LISTENING, with its notice, and a turn begins (R101, R103). -/
def State.takeToken (s : State) : State :=
  let t := if s.link.state = .listening then (s.onLink fun l => { l with state := .member }).raise .membershipChange
    else s
  t.onLink (Link.beginTurn t.clock t.emergency.own)

/-- The turn goes on after a frame. -/
def State.continueTurn (s : State) : State := s.onLink (Link.goOn s.clock s.emergency.own)

/-- The part passes its token. -/
def State.passToken (s : State) : State := s.onLink (Link.pass s.clock)

/-- The part drops its token (R109). -/
def State.dropToken (s : State) : State := s.onLink (Link.dropToken s.clock)

/-! ## Rows heard and lost (R102, R105, R144) -/

/-- A MEMBERSHIP record (R102, R105, R110). -/
def membershipRecord (a : Nat) (reason : Reason) : RecBody :=
  { kind := .membership, peer := some a, reason := some reason }

/-- The row of the source of a taken frame is heard (R102). -/
def State.heard (a : Nat) (reason : Reason) (s : State) : State :=
  let r := s.link.row a
  let t := s.onLink fun l => l.setRow a { r with present := true, lastHeard := some s.time.now }
  if r.present then t else (t.append (membershipRecord a reason)).raise .membershipChange

/-- What a lost member's contribution becomes (R144). -/
def Contribution.lost (clock hold : Nat) : Contribution → Contribution
  | .asserted _ => if hold = 0 then .none else .held (clock + 1000 * hold)
  | .none => .none
  | .held t => .held t

/-- A PRESENT row becomes ABSENT, and its contribution is treated as a member lost (R144). -/
def State.loseRow (s : State) (a : Nat) : State :=
  let r := s.link.row a
  if r.present then
    (s.onLink fun l =>
      l.setRow a
        { r with
          present := false,
          contribution := r.contribution.lost s.clock s.service.params.emergencyHold }).judgeEmergency (.peerLost a)
  else s

/-- Every PRESENT row is lost, in ascending order of address (R110, R115; the order is a DESIGN CHOICE, log 44). -/
def State.loseAll (s : State) : State := ((List.range 16).map (· + 1)).foldl State.loseRow s

/-- A successor that did not answer two tries is lost (R105). -/
def State.loseSuccessor (a : Nat) (s : State) : State :=
  let r := s.link.row a
  let t := ((s.onLink fun l => l.setRow a { r with present := false }).append (membershipRecord a .lost)).raise
    .membershipChange
  (t.onLink fun l =>
    l.setRow a
      { (l.row a) with
        contribution := (l.row a).contribution.lost t.clock t.service.params.emergencyHold }).judgeEmergency
    (.peerLost a)

/-! ## Conflict and restart (R110, R115) -/

/-- OFFLINE with reason CONFLICT: the token is dropped and nothing is received or awaited (R110). -/
def Link.conflicted (clock : Nat) (l : Link) : Link :=
  { l.dropToken clock with state := .offline .conflict, rxBegun := false, silence := none }

/-- Another gate uses the own address: OFFLINE with reason CONFLICT (R110). What the loss of the rows records comes
before the ADDRESS_CONFLICT record (DESIGN CHOICE, log 44). -/
def State.conflict (s : State) : State :=
  let t := (s.onLink (Link.conflicted s.clock)).loseAll
  ((t.append (membershipRecord t.link.addr .addressConflict)).raise .membershipChange).judgeSyncs

/-- The row of the own address is not used: it is blank (R102, DEDUCED, log 23). -/
def State.blankOwnRow (s : State) : State :=
  (s.onLink fun l => l.setRow l.addr .blank).judgeEmergency (.peerLost s.link.addr)

/-- Last heard times are removed (R115). -/
def Link.forgetHeard (l : Link) : Link := { l with rows := l.rows.map fun r => { r with lastHeard := none } }

/-- The link at rest under an address, with no last heard times, listening for silence (R115). -/
def Link.restarted (addr clock : Nat) (l : Link) : Link := (l.forgetHeard.atRest addr).restartSilence clock

/-- A restart of the link by a station load (R115). -/
def State.restartLink (addr : Nat) (s : State) : State :=
  let t := (s.onLink (Link.dropToken s.clock)).loseAll
  let u := t.onLink (Link.restarted addr t.clock)
  ((u.blankOwnRow).raise .membershipChange).judgeSyncs

/-- Whether a station load restarts the link (R115). -/
def Link.restartsFor (l : Link) (addr : Nat) : Bool := l.addr != addr || l.state == .offline .conflict

/-! ## Taking a frame (R99, R102, R106, R110) -/

/-- The receiver takes no frame any more (R98). -/
def State.noReception (s : State) : State := s.onLink fun l => { l with rxBegun := false }

/-- A frame received whole or with damage has just kept the line busy: the silence timeout starts afresh (R98, R108). -/
def State.endReception (s : State) : State := s.noReception.onLink (Link.restartSilence s.clock)

/-- A frame begun in the invitation window was not taken: with the window closed, the invitation has failed and the
token is passed (R106, DEDUCED, log 20). -/
def State.failInvitation (s : State) : State :=
  match s.link.token with
  | .inviting _ true => s.passToken
  | .inviting _ false => s
  | .waiting => s
  | .sending => s
  | .passing _ _ => s

/-- A faulty frame is discarded (R98, R99). -/
def State.discardFrame (s : State) : State :=
  if s.link.state.isOffline then s else s.endReception.failInvitation

/-- An incomplete frame is discarded when the line has been idle for 1 ms (R98). -/
def State.idleFrame (s : State) : State := if s.link.state.isOffline then s else s.noReception.failInvitation

/-- A taken frame other than the expected reply: in the window of an invitation it shows that another gate holds a
token (R106, R109). -/
def State.meetFrame (s : State) : State :=
  match s.link.token with
  | .inviting _ _ => if s.link.window.isSome then s.dropToken else s
  | .waiting => s
  | .sending => s
  | .passing _ _ => s

/-- A source outside 1 to 16 fails the check of R99. -/
def sourceOk (src : Byte) : Bool := decide (1 ≤ src.toNat) && decide (src.toNat ≤ 16)

/-- A frame that passed the receiver's checks, with its source (R99, R102, R110): `act` is given the source. A frame
with the own address as source is not acted on (DEDUCED, log 21). -/
def State.takeFrame (src : Byte) (act : Nat → State → State) (s : State) : State :=
  if s.link.state.isOffline then s
  else if !sourceOk src then s.discardFrame
  else if src.toNat = s.link.addr then s.conflict
  else act src.toNat s.endReception

/-- A taken frame of a kind that is never the expected reply: the frame is met, its source heard, then its body acted
on (R111). -/
def State.takeOther (src : Byte) (act : Nat → State → State) (s : State) : State :=
  s.takeFrame src fun a t => act a (t.meetFrame.heard a .heard)

/-- A JOIN_REPLY: in the window of R106 the invited address joins and is passed the token, and any other drops it;
outside the window it is only heard (R106, R111). -/
def State.joinReply (a : Nat) (s : State) : State :=
  match s.link.token with
  | .inviting b _ =>
    if s.link.window.isSome then
      if a = b then (s.heard a .joined).onLink (Link.passTo a) else s.dropToken.heard a .heard
    else s.heard a .heard
  | .waiting => s.heard a .heard
  | .sending => s.heard a .heard
  | .passing _ _ => s.heard a .heard

/-- A JOIN_INVITE: any token held is dropped, and a JOIN_REPLY is sent to its source (R107), in place of one to an
earlier source that has not been sent (DESIGN CHOICE, log 45). -/
def State.answerInvite (a : Nat) (s : State) : State :=
  (if s.link.token = .waiting then s else s.dropToken).onLink (Link.send (.joinReply a))

/-! ## Monitor events and windows (R104 to R109) -/

/-- A transmission with this first character passes the receive filter (R98). -/
def Link.filters (l : Link) (dest : Option Byte) : Bool := dest.elim false fun d => d.toNat == l.addr || d == 255

/-- The line monitor reports the start of a transmission (R105, R108, R109): silence starts afresh, a pass has
succeeded, a holder drops its token with whatever it had not begun. In the window of an invitation a frame that passes
the filter may yet be the expected reply (DEDUCED, log 20). The monitor does not run while the part drives (R97). A
JOIN_REPLY chosen and not yet begun stays chosen (DESIGN CHOICE, log 45). -/
def State.lineStarts (dest : Option Byte) (s : State) : State :=
  if s.link.state.isOffline || s.link.driving then s
  else
    let t := s.onLink fun l => { l with rxBegun := l.filters dest }
    match s.link.token with
    | .waiting => t.onLink (Link.restartSilence s.clock)
    | .sending => t.dropToken
    | .passing _ _ => t.dropToken
    | .inviting _ closed =>
      if t.link.rxBegun && !closed && t.link.window.isSome then t else t.dropToken

/-- A response window opens when the frame has been sent (R103). -/
def Link.openWindow (clock : Nat) (l : Link) : Link :=
  { l.cutTx with window := some (clock + Config.windowMs) }

/-- The queued frame in transmission leaves the queue (R104). -/
def Link.dataSent (l : Link) : Link :=
  { ({ l with queue := dropFirst QItem.inTx l.queue } : Link).cutTx with sent := l.sent + 1 }

/-- An EMERGENCY frame has been sent; a DEASSERT clears its pending flag (R104). -/
def Link.emergencyGone (assert : Bool) (l : Link) : Link :=
  { l.cutTx with
    sent := l.sent + 1, emergencySent := true,
    deassertPending := if assert then l.deassertPending else false }

/-- The frame that the part waits to send is chosen (R104). -/
def State.choose (s : State) : State := s.onLink (Link.choose s.clock s.emergency.own)

/-- What follows when the frame in `tx` has been sent (R104 to R107). -/
def State.txEnds (s : State) : State :=
  match s.link.tx with
  | none => s
  | some .data => (s.onLink Link.dataSent).judgeSyncs.continueTurn
  | some (.emergency assert) => (s.onLink (Link.emergencyGone assert)).continueTurn
  | some (.invite _) => s.onLink (Link.openWindow s.clock)
  | some (.token _) => s.onLink (Link.openWindow s.clock)
  | some (.joinReply _) => s.onLink Link.cutTx

/-- The last stop bit of a frame has been sent (R104 to R107). A frame that was still to be chosen has begun and gone
out since the step before (DESIGN CHOICE, log 19). -/
def State.frameSent (s : State) : State := s.choose.txEnds

/-- TOKEN is sent a second time to the same successor (R105). -/
def Link.retryPass (a : Nat) (l : Link) : Link :=
  { l.send (.token a) with token := .passing a 2, window := none }

/-- The response window of a TOKEN closes without a transmission (R105); before the TOKEN has been sent no window
stands. -/
def State.passUnanswered (s : State) : State :=
  match s.link.token with
  | .passing a tries =>
    if s.link.window.isNone then s
    else if tries < 2 then s.onLink (Link.retryPass a)
    else (s.loseSuccessor a).passToken
  | .waiting => s
  | .sending => s
  | .inviting _ _ => s

/-- The invitation window closes (R106): while a frame is being taken, it is waited for; else the invitation has
failed and the token is passed. Before the JOIN_INVITE has been sent no window stands. -/
def State.inviteUnanswered (s : State) : State :=
  match s.link.token with
  | .inviting a false =>
    if s.link.window.isNone then s
    else if s.link.rxBegun then s.onLink fun l => { l with token := .inviting a true }
    else s.passToken
  | .inviting _ true => s
  | .waiting => s
  | .sending => s
  | .passing _ _ => s

/-- The lone holder's wait ends and a new turn begins (R105). -/
def State.loneWaitEnds (s : State) : State :=
  if s.link.loneWait.isSome then s.onLink (Link.beginTurn s.clock s.emergency.own) else s

/-- The silence timeout expires (R108). -/
def State.silenceEnds (s : State) : State := if s.link.awaitsSilence then s.takeToken else s

/-! ## EMERGENCY frames and deadlines of rows (R143, R144) -/

/-- The contribution of a row changes, and the line emergency state is judged (R143). -/
def State.setContribution (a : Nat) (c : Contribution) (cause : EmergencyCause) (s : State) : State :=
  (s.onLink fun l => l.setRow a { (l.row a) with contribution := c }).judgeEmergency cause

/-- An EMERGENCY frame acts on the row of its source (R143). -/
def State.emergencyFrame (assert : Bool) (a : Nat) (s : State) : State :=
  if assert then s.setContribution a (.asserted (s.clock + Config.refreshMs)) (.peerAssert a)
  else s.setContribution a .none (.peerDeassert a)

/-- A refresh deadline is reached: an ASSERTED row becomes NONE. Where an ASSERT frame taken first has restarted the
deadline, it is not reached and the row stays ASSERTED (R144, log 2). -/
def State.refreshReached (a : Nat) (s : State) : State :=
  match (s.link.row a).contribution with
  | .asserted d => if d ≤ s.clock then s.setContribution a .none (.peerRefresh a) else s
  | .none => s
  | .held _ => s

/-- A hold deadline is reached: a HELD row becomes NONE (R144). -/
def State.holdReached (a : Nat) (s : State) : State :=
  match (s.link.row a).contribution with
  | .held _ => s.setContribution a .none (.peerHold a)
  | .none => s
  | .asserted _ => s

/-! ## Data frames handed to the Screening Unit (R90, R91, R94) -/

/-- An inbound LAPSE sets a mark on a COMMITTED entry with an equal image (R90). A deadline past 4,294,967,295 is kept
as it is (DESIGN CHOICE, log 42). -/
def State.inboundLapse (card : CardNo) (img : SImage) (side : Side) (s : State) : State :=
  if !issued card then s
  else
    match s.screening.sighted card with
    | none => s
    | some e =>
      match e.state with
      | .committed st =>
        if e.baseline = img then
          s.putSighting
            { e with
              state :=
                .committed
                  { st with
                    lapse := some { side := side, deadline := s.time.now + s.service.params.regrantWindow } } }
        else s
      | .pendingLocal _ => s
      | .inDoubt _ _ => s

/-- A standing without its lapse mark if that mark is live (R91). -/
def Standing.dropLive (now : Nat) (st : Standing) : Standing :=
  match st.lapse with
  | some m => if m.live now then { st with lapse := none } else st
  | none => st

/-- The DOUBLE_REGRANT finding, where this gate has granted a regrant on the image itself (R91). -/
def State.doubleRegrant (card : CardNo) (src : Nat) (regranted : Bool) (s : State) : State :=
  if regranted then
    (s.append { kind := .doubleRegrant, card := some card, peer := some src }).noteFinding card .doubleRegrant
  else s

/-- An inbound REGRANT against a COMMITTED entry with an equal image (R91). -/
def State.inboundRegrant (src : Nat) (card : CardNo) (img : SImage) (s : State) : State :=
  if !issued card then s
  else
    match s.screening.sighted card with
    | none => s
    | some e =>
      match e.state with
      | .committed st =>
        if e.baseline = img then
          (s.doubleRegrant card src st.regranted).putSighting
            { e with state := .committed (st.dropLive s.time.now) }
        else s
      | .pendingLocal _ => s
      | .inDoubt _ _ => s

/-- An inbound DENY_ADD makes a peer addition (R94); an unissued card number has no effect (R92). -/
def State.inboundDeny (src : Nat) (card : CardNo) (s : State) : State :=
  if issued card then s.denyFinding card (.peer src) else s

end Sys2Proof.Machine
end

