-- ==== Sys2Proof/Machine/Control.lean ====
section
/-! DEFINITION. Commands of the Time Base and the Service Controller: time, suspend and resume, table loading, stamp
schemes (R65, R66, R164 to R175). -/

namespace Sys2Proof.Machine

/-! ## Time (R65, R66) -/

/-- The counter is loaded, the time state SET, the table examined; the reply gives the old and the new value (R65,
R78). -/
def State.setTime (tag : Byte) (t : Nat) (s : State) : State :=
  ((s.onTime fun tb => { tb with now := t, set := true }).examine).reply tag .setTime (.setTime s.time.now t)

/-- SET_TIME (R65). -/
def execSetTime (tag : Byte) (body : List Byte) (s : State) : Result :=
  request tag .setTime (readTime body) (State.setTime tag) s

/-- The GET_TIME reply (R66). -/
def State.getTime (tag : Byte) (s : State) : State := s.reply tag .getTime (.time s.time.body)

/-- GET_TIME (R66). -/
def execGetTime (tag : Byte) (body : List Byte) (s : State) : Result :=
  request tag .getTime (readEmpty body) (fun _ => State.getTime tag) s

/-! ## Suspend and resume (R164, R166 to R168) -/

/-- An IDLE or DONE port is disabled at once (R23). -/
def Port.retire (p : Port) : Port :=
  match p.state with
  | .idle | .done => { p with state := .disabled, exchange := none }
  | .disabled | .detected | .waitAisle | .reading | .screening | .writing | .confirming => p

/-- A DISABLED port that nothing disables any more enters DONE (R23). -/
def Port.revive (p : Port) : Port :=
  match p.state with
  | .disabled => { p with state := .done }
  | .idle | .done | .detected | .waitAisle | .reading | .screening | .writing | .confirming => p

/-- A side's port comes back unless it is disabled (R23). -/
def State.reviveSide (side : Side) (s : State) : State :=
  if s.disabled side then s else s.onPort side Port.revive

/-- The service state changes, with its notice (R164). -/
def State.enterService (st : ServiceState) (s : State) : State :=
  (s.onService fun v => { v with state := st }).raise .serviceState

/-- Both ports are retired. -/
def State.retirePorts (s : State) : State := (s.onPort .U Port.retire).onPort .P Port.retire

/-- A SUSPEND waits for the drain (R167). -/
def State.awaitDrain (tag : Byte) (s : State) : State := s.onService fun v => { v with suspends := v.suspends ++ [tag] }

/-- A reply that gives the service state as it stands (DEDUCED, log 27). -/
def State.replyState (tag : Byte) (kind : ReqKind) (s : State) : State :=
  s.reply tag kind (.serviceState s.service.state)

/-- SUSPEND by service state (R167). -/
def State.suspend (tag : Byte) (s : State) : State :=
  match s.service.state with
  | .inService =>
    if s.portsIdle then ((s.enterService .suspended).retirePorts).replyState tag .suspend
    else ((s.enterService .suspending).retirePorts).awaitDrain tag
  | .suspending => s.awaitDrain tag
  | .suspended => s.replyState tag .suspend
  | .outOfService => s.replyState tag .suspend

/-- SUSPEND (R167). -/
def execSuspend (tag : Byte) (body : List Byte) (s : State) : Result :=
  request tag .suspend (readEmpty body) (fun _ => State.suspend tag) s

/-- IN_SERVICE is entered and the ports come back (R23, R166). -/
def State.enterInService (s : State) : State := ((s.enterService .inService).reviveSide .U).reviveSide .P

/-- A RESUME from OUT_OF_SERVICE or SUSPENDED (R166). -/
def State.tryResume (tag : Byte) (s : State) : State :=
  if s.missing.any then s.reply tag .resume (.notReady s.missing)
  else s.enterInService.replyState tag .resume

/-- RESUME by service state (R166, R168). In SUSPENDING its own reply is formed before those of the SUSPENDs it cancels
(DESIGN CHOICE, log 48). -/
def State.resume (tag : Byte) (s : State) : State :=
  match s.service.state with
  | .outOfService => s.tryResume tag
  | .suspended => s.tryResume tag
  | .inService => s.replyState tag .resume
  | .suspending => (s.enterInService.replyState tag .resume).answerSuspends (.refused .cancelled)

/-- RESUME (R166, R168). -/
def execResume (tag : Byte) (body : List Byte) (s : State) : Result :=
  request tag .resume (readEmpty body) (fun _ => State.resume tag) s

/-- DRAIN_COMPLETE: the drain is judged (R167, DEDUCED, log 6). -/
def execDrainComplete (s : State) : Result := done s.judgeDrain

/-! ## Loading (R169 to R174) -/

/-- After an accepted load: SUSPENDED with an item missing becomes OUT_OF_SERVICE, and the reply gives the state and
the missing items (R169). It is formed after the replies of the SYNC_LINEs that a restart of the link has completed
(DESIGN CHOICE, log 48). -/
def State.loaded (tag : Byte) (kind : ReqKind) (s : State) : State :=
  let t := if s.service.state = .suspended ∧ s.missing.any = true then s.enterService .outOfService else s
  t.reply tag kind (.loaded t.service.state t.missing)

/-- Loads are accepted in OUT_OF_SERVICE and SUSPENDED (R164). -/
def ServiceState.loads : ServiceState → Bool
  | .outOfService => true
  | .suspended => true
  | .inService => false
  | .suspending => false

/-- A load is judged: form, state, values, then applied whole (R169, R179). -/
def State.loadOf {α : Type} (tag : Byte) (kind : ReqKind) (p : Parsed α) (apply : α → State → State) (s : State) :
    State :=
  match p with
  | .badLength => s.reply tag kind (.refused .badLength)
  | .range n => if s.service.state.loads then s.reply tag kind (.range n) else s.reply tag kind (.refused .notSuspended)
  | .value a => if s.service.state.loads then (apply a s).loaded tag kind else s.reply tag kind (.refused .notSuspended)

/-- The meaning of a load request. -/
def loadRequest {α : Type} (tag : Byte) (kind : ReqKind) (p : Parsed α) (apply : α → State → State) (s : State) :
    Result :=
  done (s.take tag kind (State.loadOf tag kind p apply))

/-- The station settings reach their blocks (R170), and the link restarts where R115 says so. -/
def State.applyStation (a : StationLoad) (s : State) : State :=
  let t := (s.onService fun v => { v with station := some a.station }).onTime fun tb =>
    { tb with offset := a.offset, boundary := a.boundary }
  if s.link.restartsFor a.addr then t.restartLink a.addr else t

/-- SET_STATION (R170). -/
def execSetStation (tag : Byte) (body : List Byte) (s : State) : Result :=
  loadRequest tag .setStation (readStation body) State.applyStation s

/-- N is set, the matrix and the set of loaded rows emptied (R171). -/
def State.applyZoneCount (n : Nat) (s : State) : State :=
  s.onService fun v => { v with zoneCount := some n, rows := [] }

/-- SET_ZONE_COUNT (R171). -/
def execSetZoneCount (tag : Byte) (body : List Byte) (s : State) : Result :=
  loadRequest tag .setZoneCount (readZoneCount body) State.applyZoneCount s

/-- One row replaces what was held for its number (R171). -/
def State.applyZoneRow (r : Nat × List Nat) (s : State) : State :=
  s.onService fun v => { v with rows := (v.rows.filter fun x => x.1 != r.1) ++ [r] }

/-- LOAD_ZONE_ROW (R171). -/
def execLoadZoneRow (tag : Byte) (body : List Byte) (s : State) : Result :=
  loadRequest tag .loadZoneRow (readZoneRow s.service.zoneCount body) State.applyZoneRow s

/-- A band set is replaced whole (R172). -/
def State.applyBandSet (b : BandSet × List Band) (s : State) : State :=
  s.onService fun v =>
    match b.1 with
    | .weekday => { v with weekday := some b.2 }
    | .weekend => { v with weekendSet := some b.2 }

/-- LOAD_BAND_SET (R172). -/
def execLoadBandSet (tag : Byte) (body : List Byte) (s : State) : Result :=
  loadRequest tag .loadBandSet (readBandSet body) State.applyBandSet s

/-- A class record is loaded whole (R173). -/
def State.applyClass (c : Nat × ClassRec) (s : State) : State :=
  s.onService fun v => { v with classes := v.classes.put c.1 c.2 }

/-- SET_CLASS (R173). -/
def execSetClass (tag : Byte) (body : List Byte) (s : State) : Result :=
  loadRequest tag .setClass (readClass body) State.applyClass s

/-- A sounder run goes on under a new duration only while it runs under both: a run that has ended stays ended, and
a shortened one ends at once (R131, DEDUCED, log 37). -/
def sounderUnder (clock before after : Nat) (run : Option Nat) : Option Nat :=
  run.filter fun t => soundsFor clock before t && soundsFor clock after t

/-- All parameters are replaced together; the journal judges its halt and the sounder its run (R131, R158, R174). -/
def State.applyParams (p : Params) (s : State) : State :=
  ((s.onPassage fun g =>
    { g with
      sounder := sounderUnder s.clock s.service.params.sounderDuration p.sounderDuration g.sounder }).onService
    fun v => { v with params := p }).judgeLoadedLevels

/-- SET_PARAMETERS (R174). -/
def execSetParameters (tag : Byte) (body : List Byte) (s : State) : Result :=
  loadRequest tag .setParameters (readParams body) State.applyParams s

/-! ## Stamp schemes (R4, R175) -/

/-- The reply of a scheme request: the state of all four slots. -/
def State.replySchemes (tag : Byte) (kind : ReqKind) (s : State) : State :=
  s.reply tag kind (.schemes s.service.schemes)

/-- SELECT_SCHEME by the state of the slot (R175). -/
def State.selectScheme (tag : Byte) (n : Nat) (s : State) : State :=
  match s.service.schemes.get n with
  | .accepted =>
    (s.onService fun v => { v with schemes := v.schemes.deselect.put n .current }).replySchemes tag .selectScheme
  | .current => s.replySchemes tag .selectScheme
  | .empty => s.reply tag .selectScheme (.refused .schemeState)
  | .retired => s.reply tag .selectScheme (.refused .schemeState)

/-- SELECT_SCHEME (R175). -/
def execSelectScheme (tag : Byte) (body : List Byte) (s : State) : Result :=
  request tag .selectScheme (readScheme body) (State.selectScheme tag) s

/-- RETIRE_SCHEME by the state of the slot (R175). -/
def State.retireScheme (tag : Byte) (n : Nat) (s : State) : State :=
  match s.service.schemes.get n with
  | .accepted =>
    (s.onService fun v => { v with schemes := v.schemes.put n .retired }).replySchemes tag .retireScheme
  | .retired => s.replySchemes tag .retireScheme
  | .current => s.reply tag .retireScheme (.refused .schemeState)
  | .empty => s.reply tag .retireScheme (.refused .schemeState)

/-- RETIRE_SCHEME (R175). -/
def execRetireScheme (tag : Byte) (body : List Byte) (s : State) : Result :=
  request tag .retireScheme (readScheme body) (State.retireScheme tag) s

end Sys2Proof.Machine
end

