-- ==== Sys2Proof/Machine/Gate.lean ====
section
/-! DEFINITION. Commands of the passage: beam zones, leaf switches, aisle timers, and the staff requests (R119, R122,
R125 to R129, R131, R132, R134 to R138). -/

namespace Sys2Proof.Machine

/-! ## Beam zones (R124 to R129) -/

/-- A mouth zone changes. -/
def State.setMouth (mouth : Side) (level : Bool) (s : State) : State :=
  s.onPins fun p =>
    match mouth with
    | .U => { p with mouthU := level }
    | .P => { p with mouthP := level }

/-- LEAF changes. -/
def State.setLeafZone (level : Bool) (s : State) : State := s.onPins fun p => { p with leaf := level }

/-- CLOSING leaves reopen when LEAF becomes occupied (R134). -/
def State.reopen (s : State) : State :=
  if s.passage.leaf = .closing then s.onPassage (Passage.travelTo s.clock .opening) else s

/-- MOUTH_OCCUPIED (R125). A zone that is occupied already does not become so (DESIGN CHOICE, log 24). -/
def execMouthOccupied (mouth : Side) (s : State) : Result :=
  if s.mouth mouth then done s else done ((s.setMouth mouth true).enterMouth mouth)

/-- LEAF_OCCUPIED (R126, R127, R134). -/
def execLeafOccupied (s : State) : Result :=
  if s.pins.leaf then done s else done ((s.setLeafZone true).reopen.enterLeaf)

/-- LEAF_CLEAR (R128, R134): the occupants at LEAF are settled one after another, then a deferred closing starts. -/
def execLeafClear (s : State) : Result :=
  if s.pins.leaf then done (((s.setLeafZone false).forEachOccupant State.settleLeafOne).settleLeaves) else done s

/-- MOUTH_CLEAR (R129): occupants at FAR complete, then occupants at MOUTH withdraw or advance (DEDUCED, log 13). -/
def execMouthClear (mouth : Side) (s : State) : Result :=
  if s.mouth mouth then
    done
      (((s.setMouth mouth false).forEachOccupant (State.complete (Occupant.farAt mouth))).forEachOccupant
        (State.leaveMouthOne mouth))
  else done s

/-! ## Leaf switches (R134) -/

/-- The rest state an opening travel ends in (R134). -/
def State.openRest (s : State) : LeafState := if s.alarmsSuppressed then .heldOpen else .opened

/-- The open switch ends an opening travel; an outstanding GATE_RESET is answered with the state reached, then the
OPEN rows apply (R134, R136, DEDUCED, log 14). -/
def State.opened (s : State) : State :=
  if s.passage.leaf = .opening then ((s.onPassage (Passage.rest s.openRest)).judgeGateReset).settleLeaves else s

/-- The closed switch ends a closing travel (R134, R136). -/
def State.closed (s : State) : State :=
  if s.passage.leaf = .closing then (s.onPassage (Passage.rest .closed)).judgeGateReset else s

/-- OPEN_SWITCH_REACHED (R134). -/
def execOpenSwitchReached (s : State) : Result := done (s.onPins fun p => { p with openSwitch := true }).opened

/-- CLOSED_SWITCH_REACHED (R134). -/
def execClosedSwitchReached (s : State) : Result := done (s.onPins fun p => { p with closedSwitch := true }).closed

/-- SWITCH_LOST: the level changes and nothing else (R134). -/
def execSwitchLost (switch : Switch) (s : State) : Result :=
  done
    (s.onPins fun p =>
      match switch with
      | .opened => { p with openSwitch := false }
      | .closed => { p with closedSwitch := false })

/-! ## Timers and inner events -/

/-- SLOT_GRANT: waiting requests are judged (R119, DEDUCED, log 6). -/
def execSlotGrant (s : State) : Result := done s.judgeWaiting

/-- The UNASSIGNED credit on a slot. -/
def Passage.unassignedOn (g : Passage) (k : SlotId) : Option Credit :=
  g.credits.find? fun c => c.slot == k && c.state != .assigned

/-- An UNASSIGNED credit reaches its deadline: removed, recorded EXPIRED, lapsed (R122). -/
def State.expireCredit (k : SlotId) (s : State) : State :=
  match s.passage.unassignedOn k with
  | some c => (((s.removeCredit k).append (c.unusedRecord .expired)).lapseCredit c).settleLeaves
  | none => s

/-- CREDIT_EXPIRY (R122). -/
def execCreditExpiry (slot : SlotId) (s : State) : Result := done (s.expireCredit slot)

/-- TRAVEL_TIMEOUT (R135). -/
def execTravelTimeout (s : State) : Result :=
  match s.passage.leaf with
  | .opening => done (s.leafFault .opening)
  | .closing => done (s.leafFault .closing)
  | .closed => done s
  | .opened => done s
  | .heldOpen => done s
  | .fault => done s

/-- SOUNDER_EXPIRY: the run ends (R131). -/
def execSounderExpiry (s : State) : Result := done (s.onPassage fun g => { g with sounder := none })

/-- GATE_RESET_COMPLETE: an outstanding GATE_RESET is judged (R136, DEDUCED, log 6). -/
def execGateResetComplete (s : State) : Result := done s.judgeGateReset

/-! ## Staff requests (R132, R136 to R138) -/

/-- The STAFF_PASS record (R137). -/
def staffRecord (d : Direction) : RecBody := { kind := .staffPass, side := some (sideOf d) }

/-- A STAFF_PASS is judged at once as a slot request (R137). -/
def State.staffPass (tag : Byte) (d : Direction) (s : State) : State :=
  if s.emergency.line then s.reply tag .staffPass (.refused .gateState)
  else if s.grantable d then
    match s.passage.claim.lowestFree with
    | some k =>
      (((s.onClaim fun c => c.grant k d .credit).formCredit k d .staff).append (staffRecord d)).reply tag .staffPass .ok
    | none => s.reply tag .staffPass (.refused .aisleBusy)
  else s.reply tag .staffPass (.refused .aisleBusy)

/-- STAFF_PASS (R137). -/
def execStaffPass (tag : Byte) (body : List Byte) (s : State) : Result :=
  request tag .staffPass (readDirection body) (State.staffPass tag) s

/-- Hold-open takes a value and the leaves follow; a value it has already changes nothing (R138). -/
def State.setHold (hold : Bool) (s : State) : State :=
  if s.passage.holdOpen = hold then s else (s.onPassage fun g => { g with holdOpen := hold }).settleLeaves

/-- Hold-open begins; refused in FAULT (R138), also where hold-open is in force already, for which R138 gives both
GATE_STATE and OK (DESIGN CHOICE, log 49). -/
def State.holdOpen (tag : Byte) (s : State) : State :=
  if s.passage.leaf = .fault then s.reply tag .holdOpen (.refused .gateState)
  else (s.setHold true).reply tag .holdOpen .ok

/-- HOLD_OPEN (R138). -/
def execHoldOpen (tag : Byte) (body : List Byte) (s : State) : Result :=
  request tag .holdOpen (readEmpty body) (fun _ => State.holdOpen tag) s

/-- Hold-open ends (R138). -/
def State.holdRelease (tag : Byte) (s : State) : State := (s.setHold false).reply tag .holdRelease .ok

/-- HOLD_RELEASE (R138). -/
def execHoldRelease (tag : Byte) (body : List Byte) (s : State) : Result :=
  request tag .holdRelease (readEmpty body) (fun _ => State.holdRelease tag) s

/-- A GATE_RESET in FAULT starts travel towards the command, and waiting requests are judged (R136, DEDUCED, log 12). -/
def State.gateReset (tag : Byte) (s : State) : State :=
  if s.passage.leaf = .fault then
    (s.onPassage fun g =>
      { g.travelTo s.clock (if s.commandOpen then .opening else .closing) with gateReset := some tag }).judgeWaiting
  else s.reply tag .gateReset (.refused .gateState)

/-- GATE_RESET (R136). -/
def execGateReset (tag : Byte) (body : List Byte) (s : State) : Result :=
  request tag .gateReset (readEmpty body) (fun _ => State.gateReset tag) s

/-- The named latches are cleared; with every latch clear the sounder stops at once (R131, R132). -/
def Passage.clearLatches (named : Latches) (g : Passage) : Passage :=
  { g with
    latches := g.latches.clearing named, sounder := if (g.latches.clearing named).any then g.sounder else none }

/-- Latches are cleared and the reply gives those still set (R132). -/
def State.alarmClear (tag : Byte) (named : Latches) (s : State) : State :=
  let t := s.onPassage (Passage.clearLatches named)
  t.reply tag .alarmClear (.latches t.passage.latches)

/-- ALARM_CLEAR (R132). -/
def execAlarmClear (tag : Byte) (body : List Byte) (s : State) : Result :=
  request tag .alarmClear (readLatches body) (State.alarmClear tag) s

end Sys2Proof.Machine
end

