-- ==== Sys2Proof/Machine/Resets.lean ====
section
/-! DEFINITION. Power-on and warm reset, block by block (R25, R48, R64, R96, R116, R140, R148, R149, R163, R176, R184,
R189), and a change of the speed straps (R177). -/

namespace Sys2Proof.Machine

/-! ## The aisle at a reset (R140) -/

/-- The occupants at a reset: one at each occupied mouth, MOUTH_U's first. -/
def occupantsAtReset (p : Pins) : List Occupant :=
  (if p.mouthU then [{ direction := dirOf .U, stage := .mouth, credit := none }] else [])
    ++ (if p.mouthP then [{ direction := dirOf .P, stage := .mouth, credit := none }] else [])

/-- The leaf state that the switches give at a reset. -/
def leafAtReset (p : Pins) : LeafState :=
  if p.closedSwitch then .closed else if p.openSwitch then .opened else .closing

/-- The Passage Controller at a reset; the last direction granted is the one handed in (R140). -/
def Passage.atReset (pins : Pins) (clock : Nat) (lastGranted : Direction) : Passage :=
  { claim := { Claim.initial with lastGranted := lastGranted }, credits := [], occupants := occupantsAtReset pins,
    leaf := leafAtReset pins,
    travel := if leafAtReset pins = .closing then some (clock + Config.travelMs) else none, holdOpen := false,
    latches := .clear, lastAlarm := none, lastFault := none, sounder := none, gateReset := none }

/-! ## Power-on -/

/-- The record of an emergency that a reset starts (R148, R149). -/
def fireStartRecord : RecBody := { kind := .emergencyStart, reason := some .fire }

/-- The part before the Emergency Unit has judged the fire input: every block at its power-on value. The clock, the
count of free choices and the queue are the model's own and go on (DESIGN CHOICE, log 34). -/
def State.poweredUp (pins : Pins) (s : State) : State :=
  { pins := pins, clock := s.clock, freeReads := s.freeReads, portU := .initial, portP := .initial,
    screening := { deny := [], sightings := [], order := 0 }, link := .initial,
    passage := Passage.atReset pins s.clock .outbound,
    emergency := { fire := pins.fire, hostFlag := false, line := pins.fire },
    journal := { records := [], nextSerial := 1, halted := false },
    time := { now := 0, set := false, offset := 0, boundary := 180 },
    service := .initial s.service.schemes.deselect, host := .initial (lineSpeed pins), pending := s.pending }

/-- The first record and notice of a part whose fire input stands (R148). -/
def State.announceFire (s : State) : State :=
  if s.emergency.line then (s.append fireStartRecord).raise .emergencyChange else s

/-- POWER_ON: every block takes its power-on state, the leaves are judged against the command (R140, R148, R176). -/
def execPowerOn (pins : Pins) (s : State) : Result := done (s.poweredUp pins).announceFire.settleLeaves

/-! ## Warm reset -/

/-- A port at a warm reset: no exchange, context, deadline or hold, DISABLED (R24, R25). The attempt count is kept
(DESIGN CHOICE, log 38). -/
def Port.warmReset (p : Port) : Port :=
  { p with
    state := .disabled, exchange := none, deadline := .stopped, aisleWait := none, ctx := none, stopHold := none }

/-- The Passage Controller's handling before its state is set: waiting requests and the slots of contexts go, credits
are cleared with their lapse requests (R123, R140). -/
def State.clearAisle (s : State) : State :=
  (s.onClaim fun c => { c with waitU := false, waitP := false }).clearCredits .warmReset

/-- The Aisle Link Controller at a warm reset (R116). It comes after the frames of the reset have been queued, so that
a frame in transmission counts as such for R112 and R113 until then (DESIGN CHOICE, log 52). -/
def Link.warmReset (clock : Nat) (l : Link) : Link :=
  let r := l.atRest l.addr
  ({ r with
    rows := r.rows.map fun _ => MemberRow.blank, deassertPending := false, syncs := [],
    queue := r.queue.map fun q => { q with marks := [] } } : Link).restartSilence clock

/-- The record of a change of the line emergency state by a warm reset (R149). -/
def State.recordResetChange (before after : Bool) (s : State) : State :=
  match before, after with
  | true, false => s.append { kind := .emergencyEnd, reason := some .reset }
  | false, true => s.append fireStartRecord
  | true, true => s
  | false, false => s

/-- The Emergency Unit at a warm reset: the flag kept, the fire input taken afresh (R149). -/
def Emergency.warmReset (fire : Bool) (e : Emergency) : Emergency :=
  { e with fire := fire, line := fire || e.hostFlag }

/-- The Host Link Controller at a warm reset: everything dropped but the tap results (R189). -/
def HostLink.warmReset (speed : Nat) (h : HostLink) : HostLink :=
  { HostLink.initial speed with tapU := h.tapU, tapP := h.tapP }

/-- The Service Controller at a warm reset (R176). -/
def State.serviceReset (s : State) : State :=
  (s.onService fun v =>
    { v with state := if s.missing.any then .outOfService else .suspended, suspends := [] }).raise .serviceState

/-- A warm reset (R184): each block acts as its own reset rule gives. The manual orders no block's handling against
another's; the model takes Reader Ports, Screening Unit, Passage Controller, Aisle Link Controller, Emergency Unit, the
leaves, the Host Link Controller, the Service Controller, so that a frame in transmission is cut after the frames of
the reset have been queued (DESIGN CHOICE, log 52), and the record of an emergency follows those of the Screening Unit
(DESIGN CHOICE, log 53). -/
def State.warmReset (s : State) : State :=
  let t := (((s.onPort .U Port.warmReset).onPort .P Port.warmReset).settlePending).clearAisle
  let u := (t.onLink (Link.warmReset t.clock)).onEmergency (Emergency.warmReset t.pins.fire)
  let v := u.recordResetChange t.emergency.line u.emergency.line
  let w := (v.onPassage fun g => Passage.atReset v.pins v.clock g.claim.lastGranted).settleLeaves
  (w.onHost (HostLink.warmReset (lineSpeed w.pins))).serviceReset

/-- WARM_RESET: the reset input returns inactive, with the fire input as it then stands (R184, DESIGN CHOICE, log 3). -/
def execWarmReset (fire : Bool) (s : State) : Result := done (s.onPins fun p => { p with fire := fire }).warmReset

/-- SPEED_STRAP_CHANGE: the levels change, the speed in use does not (R177). -/
def execSpeedStrapChange (strap1 strap2 : Bool) (s : State) : Result :=
  done (s.onPins fun p => { p with strap1 := strap1, strap2 := strap2 })

end Sys2Proof.Machine
end

