-- ==== Sys2Proof/Machine/HostLine.lean ====
section
/-! DEFINITION. Commands of the host line: damaged frames, unknown kinds, the transmitter, and the requests the Host
Link Controller answers itself (R178 to R185). -/

namespace Sys2Proof.Machine

/-- HOST_RX_IDLE_TIMEOUT (R178). -/
def execHostRxIdleTimeout (s : State) : Result := done s.endHostFrame

/-- HOST_FRAME_BAD_CRC (R178). -/
def execHostFrameBadCrc (s : State) : Result := done s.endHostFrame

/-- HOST_FRAMING_ERROR (R178). -/
def execHostFramingError (s : State) : Result := done s.endHostFrame

/-- A kind number that is no request kind (R191). -/
def kindUnknown (kind : Byte) : Bool := kind == 0 || decide (30 < kind.toNat)

/-- The answer to an unknown kind (R179 check 3). -/
def State.refuseUnknown (tag kind : Byte) (s : State) : State :=
  s.reply tag (.unknown kind) (.refused .unknownKind)

/-- UNKNOWN_KIND (R179). A kind of the catalogue is not unknown: such a command is no frame of this row. -/
def execUnknownKind (tag : Byte) (kind : Byte) (s : State) : Result :=
  if kindUnknown kind then done (s.take tag (.unknown kind) (State.refuseUnknown tag kind)) else done s

/-- The request of a reply leaves the window when the reply has been sent (R180); a link refusal holds no place. -/
def HostLink.leave (r : Reply) (h : HostLink) : HostLink :=
  { h with tx := none, window := if r.linkRefusal then h.window else h.window.erase r.tag }

/-- The OK reply of a RESET (R184). -/
def Reply.resets (r : Reply) : Bool := r.kind == .reset && r.body == .ok && !r.linkRefusal

/-- The last byte of the frame in transmission has been sent (R180, R184, R185). -/
def State.hostFrameSent (s : State) : State :=
  match s.host.tx with
  | none => s
  | some (.notice _) => s.onHost fun h => { h with tx := none }
  | some (.reply r) => if r.resets then (s.onHost (HostLink.leave r)).warmReset else s.onHost (HostLink.leave r)

/-- HOST_FRAME_SENT (R185); after a RESET reply the part performs its warm reset (R184, DEDUCED, log 7). -/
def execHostFrameSent (s : State) : Result := done s.hostFrameSent

/-- The IDENTIFY reply (R183). -/
def State.identify (tag : Byte) (s : State) : State :=
  s.reply tag .identify (.identify s.host.speed s.service.schemes)

/-- IDENTIFY (R183). -/
def execIdentify (tag : Byte) (body : List Byte) (s : State) : Result :=
  request tag .identify (readEmpty body) (fun _ => State.identify tag) s

/-- The STATUS reply, whole at the moment it is taken (R183). -/
def State.answerStatus (tag : Byte) (s : State) : State := s.reply tag .status (.status s.statusBody)

/-- STATUS (R183). -/
def execStatus (tag : Byte) (body : List Byte) (s : State) : Result :=
  request tag .status (readEmpty body) (fun _ => State.answerStatus tag) s

/-- RESET is taken: its OK reply is formed, and no further reply is (R184). -/
def State.takeReset (tag : Byte) (s : State) : State :=
  (s.reply tag .reset .ok).onHost fun h => { h with resetTaken := true }

/-- RESET (R184). -/
def execReset (tag : Byte) (body : List Byte) (s : State) : Result :=
  request tag .reset (readEmpty body) (fun _ => State.takeReset tag) s

end Sys2Proof.Machine
end

