-- ==== Sys2Proof/Machine/Line.lean ====
section
/-! DEFINITION. Commands of the aisle link: the line monitor, the frames taken and sent, its timers, and SYNC_LINE
(R97 to R111, R114, R143, R144). -/

namespace Sys2Proof.Machine

/-! ## Monitor, receiver and transmitter -/

/-- LINE_TRANSMISSION_START (R105, R108, R109): `dest` is the first character, if it has its mark bit set. -/
def execLineTransmissionStart (dest : Option Byte) (s : State) : Result := done (s.lineStarts dest)

/-- LINK_RX_IDLE_TIMEOUT (R98). -/
def execLinkRxIdleTimeout (s : State) : Result := done s.idleFrame

/-- LINK_FRAME_DISCARDED (R99). -/
def execLinkFrameDiscarded (s : State) : Result := done s.discardFrame

/-- LINK_FRAMING_ERROR (R98): the frame being taken is discarded. -/
def execLinkFramingError (s : State) : Result := done (if s.link.rxBegun then s.discardFrame else s)

/-- LINK_FRAME_SENT (R104 to R107). -/
def execLinkFrameSent (s : State) : Result := done s.frameSent

/-! ## Frames taken (R99 to R111) -/

/-- LINK_TOKEN (R101, R103). -/
def execLinkToken (src : Byte) (s : State) : Result := done (s.takeOther src fun _ => State.takeToken)

/-- LINK_JOIN_INVITE (R107). -/
def execLinkJoinInvite (src : Byte) (s : State) : Result := done (s.takeOther src State.answerInvite)

/-- LINK_JOIN_REPLY (R106, R111). -/
def execLinkJoinReply (src : Byte) (s : State) : Result := done (s.takeFrame src State.joinReply)

/-- LINK_SIGHTING (R92, R93). -/
def execLinkSighting (src : Byte) (card : CardNo) (readTxc : BitVec 16) (readStamp : Stamp) (writtenTxc : BitVec 16)
    (writtenStamp : Stamp) (s : State) : Result :=
  done
    (s.takeOther src fun a =>
      State.inboundSighting a card { txc := readTxc.toNat, stamp := readStamp }
        { txc := writtenTxc.toNat, stamp := writtenStamp })

/-- The side of a LAPSE frame (R190, R192). -/
def sideOfCode (code : Byte) : Option Side := if code = 1 then some .U else if code = 2 then some .P else none

/-- LINK_LAPSE (R90); a side that is neither 1 nor 2 discards the frame (R192). -/
def execLinkLapse (src : Byte) (card : CardNo) (txc : BitVec 16) (stamp : Stamp) (side : Byte) (s : State) : Result :=
  match sideOfCode side with
  | some d => done (s.takeOther src fun _ => State.inboundLapse card { txc := txc.toNat, stamp := stamp } d)
  | none => done s.discardFrame

/-- LINK_REGRANT (R91). -/
def execLinkRegrant (src : Byte) (card : CardNo) (txc : BitVec 16) (stamp : Stamp) (s : State) : Result :=
  done (s.takeOther src fun a => State.inboundRegrant a card { txc := txc.toNat, stamp := stamp })

/-- LINK_DENY_ADD (R94). -/
def execLinkDenyAdd (src : Byte) (card : CardNo) (s : State) : Result :=
  done (s.takeOther src fun a => State.inboundDeny a card)

/-- ASSERT or DEASSERT by the body of an EMERGENCY frame (R192). -/
def assertOfCode (code : Byte) : Option Bool := if code = 1 then some true else if code = 2 then some false else none

/-- LINK_EMERGENCY (R143); a body that is neither 1 nor 2 discards the frame (R192). -/
def execLinkEmergency (src : Byte) (code : Byte) (s : State) : Result :=
  match assertOfCode code with
  | some b => done (s.takeOther src (State.emergencyFrame b))
  | none => done s.discardFrame

/-! ## Timers -/

/-- SILENCE_TIMEOUT (R108). -/
def execSilenceTimeout (s : State) : Result := done s.silenceEnds

/-- PASS_WINDOW_EXPIRY (R105). -/
def execPassWindowExpiry (s : State) : Result := done s.passUnanswered

/-- INVITE_WINDOW_EXPIRY (R106). -/
def execInviteWindowExpiry (s : State) : Result := done s.inviteUnanswered

/-- LONE_HOLDER_WAIT_END (R105). -/
def execLoneHolderWaitEnd (s : State) : Result := done s.loneWaitEnds

/-- REFRESH_DEADLINE (R144). -/
def execRefreshDeadline (addr : Byte) (s : State) : Result := done (s.refreshReached addr.toNat)

/-- HOLD_DEADLINE (R144). -/
def execHoldDeadline (addr : Byte) (s : State) : Result := done (s.holdReached addr.toNat)

/-! ## SYNC_LINE (R114) -/

/-- Every queued frame takes a mark of a request (R114). -/
def Link.markAll (tag : Byte) (l : Link) : Link :=
  { l with
    queue := l.queue.map fun q => { q with marks := q.marks ++ [tag] },
    syncs := l.syncs ++ [{ tag := tag, dropped := 0 }] }

/-- A SYNC_LINE marks the queued frames, or completes at once (R114). -/
def State.syncLine (tag : Byte) (s : State) : State :=
  if s.link.state.isOffline then s.reply tag .syncLine .offline
  else if s.link.queue.isEmpty then s.reply tag .syncLine (.synced 0)
  else s.onLink (Link.markAll tag)

/-- SYNC_LINE (R114). -/
def execSyncLine (tag : Byte) (body : List Byte) (s : State) : Result :=
  request tag .syncLine (readEmpty body) (fun _ => State.syncLine tag) s

/-- SYNC_LINE_COMPLETE: outstanding SYNC_LINEs are judged (R114, DEDUCED, log 6). -/
def execSyncLineComplete (s : State) : Result := done s.judgeSyncs

end Sys2Proof.Machine
end

