-- ==== Sys2Proof/WellFormed.lean ====
section
/-! DEFINITION. Which commands can come about at all: the widths and codes that the formats of R190 to R194 allow.
`exec` is total; what it does with an ill-formed command is the discard the manual gives such a frame. -/

namespace Sys2Proof

/-- A line address of another gate or this one, 1 to 16 (R99). -/
def lineAddressOk (a : Byte) : Bool := 1 ≤ a.toNat && a.toNat ≤ 16

/-- A host frame's body is at most 1,024 bytes (R178). -/
def bodyOk (body : List Byte) : Bool := body.length ≤ 1024

/-- The bytes of an area (R193). -/
def areaSize : Area → Nat
  | .header => 8
  | .imageA => 40
  | .imageB => 40

/-- The checks a well-formed command passes. -/
def Instr.wf : Instr → Bool
  | .powerOn _ => true
  | .warmReset _ => true
  | .fireInputChange _ => true
  | .mouthOccupied _ => true
  | .leafOccupied => true
  | .leafClear => true
  | .mouthClear _ => true
  | .openSwitchReached => true
  | .closedSwitchReached => true
  | .pollTimer _ => true
  | .summonAnswer _ card collided => !collided || card == 0
  | .fetchAnswer _ area content => content.length == areaSize area
  | .storeAnswer _ _ => true
  | .answerWindowClose _ _ => true
  | .dialogueDeadlineExpiry _ => true
  | .aisleWaitExpiry _ => true
  | .slotGrant => true
  | .stopHoldExpiry _ => true
  | .creditExpiry _ => true
  | .travelTimeout => true
  | .sounderExpiry => true
  | .secondTick => true
  | .lapseMarkExpiry _ => true
  | .sightingLifetimeExpiry _ => true
  | .inDoubtLifetimeExpiry _ => true
  | .lineTransmissionStart _ => true
  | .linkRxIdleTimeout => true
  | .linkToken src => lineAddressOk src
  | .linkJoinInvite src => lineAddressOk src
  | .linkJoinReply src => lineAddressOk src
  | .linkSighting src _ _ _ _ _ => lineAddressOk src
  | .linkLapse src _ _ _ side => lineAddressOk src && (side == 1 || side == 2)
  | .linkRegrant src _ _ _ => lineAddressOk src
  | .linkDenyAdd src _ => lineAddressOk src
  | .linkEmergency src code => lineAddressOk src && (code == 1 || code == 2)
  | .linkFrameDiscarded => true
  | .linkFrameSent => true
  | .silenceTimeout => true
  | .passWindowExpiry => true
  | .inviteWindowExpiry => true
  | .loneHolderWaitEnd => true
  | .refreshDeadline a => lineAddressOk a
  | .holdDeadline a => lineAddressOk a
  | .hostRxIdleTimeout => true
  | .hostFrameBadCrc => true
  | .unknownKind _ kind => kind == 0 || decide (30 < kind.toNat)
  | .hostFrameSent => true
  | .drainComplete => true
  | .syncLineComplete => true
  | .gateResetComplete => true
  | .identify _ b => bodyOk b
  | .status _ b => bodyOk b
  | .setTime _ b => bodyOk b
  | .getTime _ b => bodyOk b
  | .suspend _ b => bodyOk b
  | .resume _ b => bodyOk b
  | .reset _ b => bodyOk b
  | .setStation _ b => bodyOk b
  | .setZoneCount _ b => bodyOk b
  | .loadZoneRow _ b => bodyOk b
  | .loadBandSet _ b => bodyOk b
  | .setClass _ b => bodyOk b
  | .setParameters _ b => bodyOk b
  | .selectScheme _ b => bodyOk b
  | .retireScheme _ b => bodyOk b
  | .denyAdd _ b => bodyOk b
  | .denyRemove _ b => bodyOk b
  | .denyClear _ b => bodyOk b
  | .denyQuery _ b => bodyOk b
  | .sightingQuery _ b => bodyOk b
  | .syncLine _ b => bodyOk b
  | .journalPeek _ b => bodyOk b
  | .journalDrop _ b => bodyOk b
  | .staffPass _ b => bodyOk b
  | .holdOpen _ b => bodyOk b
  | .holdRelease _ b => bodyOk b
  | .gateReset _ b => bodyOk b
  | .alarmClear _ b => bodyOk b
  | .setEmergency _ b => bodyOk b
  | .clearEmergency _ b => bodyOk b
  | .hostFramingError => true
  | .linkFramingError => true
  | .switchLost _ => true
  | .speedStrapChange _ _ => true

end Sys2Proof
end

