-- ==== Sys2Proof/Machine/Readers.lean ====
section
/-! DEFINITION. Commands of the reader lines: polls, answers, answer windows, and the timers of a tap (R7 to R20, R24).
-/

namespace Sys2Proof.Machine

/-- The port polls in this state (R7). -/
def PortState.polls : PortState → Bool
  | .idle | .waitAisle | .done => true
  | .disabled | .detected | .reading | .screening | .writing | .confirming => false

/-- A poll starts a SUMMON unless an exchange is in flight (R7, DEDUCED, log 33). -/
def State.poll (side : Side) (s : State) : State :=
  if (s.port side).state.polls && (s.port side).exchange.isNone then s.onPort side (Port.ask .summon) else s

/-- POLL_TIMER (R7). -/
def execPollTimer (side : Side) (s : State) : Result := done (s.poll side)

/-- A SUMMON answer meets the exchange in flight; outside an exchange it is discarded (R8). -/
def State.takeSummon (side : Side) (card : CardNo) (collided : Bool) (s : State) : State :=
  match (s.port side).exchange with
  | none => s
  | some x =>
    match x.request with
    | .summon => s.summoned side card collided
    | .fetch _ => s.wrongAnswer side
    | .store _ _ => s.wrongAnswer side

/-- SUMMON_ANSWER (R7, R9, R10, R12, R22). -/
def execSummonAnswer (side : Side) (card : CardNo) (collided : Bool) (s : State) : Result :=
  done (s.takeSummon side card collided)

/-- A FETCH answer meets the exchange in flight; a wrong area or length is of class CHECK (R8, R194). -/
def State.takeFetch (side : Side) (area : Area) (content : List Byte) (s : State) : State :=
  match (s.port side).exchange with
  | none => s
  | some x =>
    match x.request with
    | .fetch a =>
      if a = area ∧ content.length = areaSize area then s.fetched side area content else s.wrongAnswer side
    | .summon => s.wrongAnswer side
    | .store _ _ => s.wrongAnswer side

/-- FETCH_ANSWER (R13, R17, R18, R20). -/
def execFetchAnswer (side : Side) (area : Area) (content : List Byte) (s : State) : Result :=
  done (s.takeFetch side area content)

/-- A STORE answer meets the exchange in flight (R8, R16). -/
def State.takeStore (side : Side) (area : Area) (s : State) : State :=
  match (s.port side).exchange with
  | none => s
  | some x =>
    match x.request with
    | .store a _ => if a = area then s.stored side area else s.wrongAnswer side
    | .summon => s.wrongAnswer side
    | .fetch _ => s.wrongAnswer side

/-- STORE_ANSWER (R16, R20). -/
def execStoreAnswer (side : Side) (area : Area) (s : State) : Result := done (s.takeStore side area)

/-- ANSWER_WINDOW_CLOSE (R8, R9): `seen` is the class of a damaged frame received in the window, if any. -/
def execAnswerWindowClose (side : Side) (seen : Option AnswerError) (s : State) : Result :=
  done (s.windowClosed side seen.isSome)

/-- The deadline runs. -/
def Deadline.runs : Deadline → Bool
  | .running _ => true
  | .stopped => false
  | .paused _ => false

/-- DIALOGUE_DEADLINE_EXPIRY (R15). A deadline that is stopped or paused does not expire. -/
def execDialogueDeadlineExpiry (side : Side) (s : State) : Result :=
  if (s.port side).deadline.runs then done (s.deadlineExpired side) else done s

/-- AISLE_WAIT_EXPIRY (R12). -/
def execAisleWaitExpiry (side : Side) (s : State) : Result :=
  if (s.port side).state = .waitAisle then done (s.refuse side .aisleBusy) else done s

/-- STOP_HOLD_EXPIRY (R24). -/
def execStopHoldExpiry (side : Side) (s : State) : Result := done (s.onPort side fun p => { p with stopHold := none })

end Sys2Proof.Machine
end

