-- ==== Sys2Proof/Machine/Wire.lean ====
section
/-! DEFINITION. What the part puts on its lines, byte by byte, read off State: the host frame in transmission with
every reply and notice body (R190, R191, R195), the link frame (R97, R98, R192) and the reader-line request (R194).
Where the manual names fields without a width or a numbering, log 28 says what is taken (DESIGN CHOICE). -/

namespace Sys2Proof.Machine

/-! ## Field encodings (R190) -/

/-- A named value or another one-byte number. -/
def b1 (n : Nat) : List Byte := be 1 n

/-- A single flag goes as a set of flags with one member: 1 or 0 (DESIGN CHOICE, log 28). -/
def flagByte (b : Bool) : List Byte := if b then b1 1 else b1 0

/-- A set of flags, least significant bit first. -/
def flagsValue : List Bool → Nat
  | [] => 0
  | b :: bs => (if b then 1 else 0) + 2 * flagsValue bs

/-- A set of flags in one byte. -/
def flagSet (bs : List Bool) : List Byte := b1 (flagsValue bs)

/-- An optional field: a presence byte, and zeros in place of an absent field of `k` bytes. -/
def optField {α : Type} (k : Nat) (enc : α → List Byte) : Option α → List Byte
  | some a => b1 1 ++ enc a
  | none => b1 0 ++ be k 0

/-- A list: a one-byte entry count followed by the entries. -/
def listField {α : Type} (enc : α → List Byte) (xs : List α) : List Byte := b1 xs.length ++ xs.flatMap enc

/-- A journal serial, 0 for absent. -/
def serialField (s : Option Nat) : List Byte := be 6 (s.getD 0)

/-- A card number. -/
def cardField (c : CardNo) : List Byte := be 4 c.toNat

/-- A stamp. -/
def stampField (c : Stamp) : List Byte := be 4 c.toNat

/-- Side U is 1 and side P is 2. -/
def sideCode : Side → Nat
  | .U => 1
  | .P => 2

/-- INBOUND is 1 and OUTBOUND is 2, the direction of a credit, an occupant or the last grant, which is never NONE
(DESIGN CHOICE, log 28). -/
def directionCode : Direction → Nat
  | .inbound => 1
  | .outbound => 2

/-- Scheme slot states in the order of R3. -/
def SchemeState.code : SchemeState → Nat
  | .empty => 1
  | .accepted => 2
  | .current => 3
  | .retired => 4

/-- Service states in the order of R164. -/
def ServiceState.code : ServiceState → Nat
  | .outOfService => 1
  | .suspended => 2
  | .inService => 3
  | .suspending => 4

/-- Port states in the order of their table (01). -/
def PortState.code : PortState → Nat
  | .disabled => 1
  | .idle => 2
  | .detected => 3
  | .waitAisle => 4
  | .reading => 5
  | .screening => 6
  | .writing => 7
  | .confirming => 8
  | .done => 9

/-- Leaf states in the order of the State column of R134's table (DEDUCED, log 28). -/
def LeafState.code : LeafState → Nat
  | .closed => 1
  | .opening => 2
  | .opened => 3
  | .heldOpen => 4
  | .closing => 5
  | .fault => 6

/-- Claim directions: NONE 1, INBOUND 2, OUTBOUND 3 (R117, DESIGN CHOICE, log 28). -/
def claimCode : Option Direction → Nat
  | none => 1
  | some .inbound => 2
  | some .outbound => 3

/-- A slot: free, or its holder (R117, DESIGN CHOICE, log 28). -/
def holderCode : Option Holder → Nat
  | none => 1
  | some (.context .U) => 2
  | some (.context .P) => 3
  | some .credit => 4

/-- Credit origins in the order of R121. -/
def CreditOrigin.code : CreditOrigin → Nat
  | .tap _ _ => 1
  | .grace => 2
  | .regrant => 3
  | .recovered => 4
  | .staff => 5

/-- Stages in the order of R124. -/
def Stage.code : Stage → Nat
  | .mouth => 1
  | .leaf => 2
  | .far => 3

/-- Alarm kinds in the order of R130. -/
def AlarmKind.code : AlarmKind → Nat
  | .tailgate => 1
  | .forced => 2
  | .reverse => 3
  | .intrusion => 4

/-- OPENING is 1 and CLOSING is 2 (R135). -/
def Travel.code : Travel → Nat
  | .opening => 1
  | .closing => 2

/-- Token states in the order of R103. -/
def TokenName.code : TokenName → Nat
  | .waiting => 1
  | .sending => 2
  | .inviting => 3
  | .passing => 4

/-- Contributions in the order of R143. -/
def ContributionKind.code : ContributionKind → Nat
  | .none => 1
  | .asserted => 2
  | .held => 3

/-- A link state and its reason in OFFLINE, in the orders of R101. -/
def LinkState.field : LinkState → List Byte
  | .offline .noAddress => b1 1 ++ optField 1 b1 (some 1)
  | .offline .conflict => b1 1 ++ optField 1 b1 (some 2)
  | .listening => b1 2 ++ optField 1 b1 none
  | .member => b1 3 ++ optField 1 b1 none

/-- The line emergency state: ACTIVE is 1 and NOT_ACTIVE is 2, the order of R145 (R190). -/
def lineCode (line : Bool) : Nat := if line then 1 else 2

/-- Deny origins in the order of R72. -/
def DenyOrigin.code : DenyOrigin → Nat
  | .central => 1
  | .own => 2
  | .peer _ => 3

/-- The peer address of a deny entry, 0 for absent (R190). -/
def DenyOrigin.addr : DenyOrigin → Nat
  | .central => 0
  | .own => 0
  | .peer a => a

/-- Deny actions in the order of R72. -/
def DenyAction.code : DenyAction → Nat
  | .refuse => 1
  | .refuseAndBlock => 2

/-- The origin of a sighting entry with its address (R75). -/
def SightOrigin.field : SightOrigin → List Byte
  | .own => b1 1 ++ b1 0
  | .peer a => b1 2 ++ b1 a

/-- Finding kinds in the order of R188. -/
def FindingKind.code : FindingKind → Nat
  | .clone => 1
  | .cloneLate => 2
  | .doubleRegrant => 3

/-- Refusal reasons by position in R42, with STAMP_BAD, CARD_INCONSISTENT and CARD_EXHAUSTED 10, 11 and 12 (R195). -/
def RefusalReason.code : RefusalReason → Nat
  | .multipleCards => 1
  | .journalFull => 2
  | .aisleBusy => 3
  | .emergency => 4
  | .cardUnreadable => 5
  | .blocked => 6
  | .classUnknown => 7
  | .expired => 8
  | .denied => 9
  | .stampBad => 10
  | .cardInconsistent => 11
  | .cardExhausted => 12
  | .clone => 13
  | .passback => 14
  | .insufficient => 15
  | .writeFailed => 16

/-- Decisions in the order of R195. -/
def CommitKind.code : CommitKind → Nat
  | .entry => 1
  | .graceEntry => 2
  | .penaltyEntry => 3
  | .exit => 4
  | .missingEntryExit => 5
  | .freeExit => 6

/-- Tap outcomes in the order of R45, the refusal reasons after them (DESIGN CHOICE, log 28). -/
def TapOutcome.code : TapOutcome → Nat
  | .committed k => k.code
  | .free => 7
  | .exitGrace => 8
  | .regrant => 9
  | .recovered => 10
  | .inDoubt => 11
  | .clone => 12
  | .refused r => 12 + r.code

/-! ## The journal record (R195) -/

/-- Record kinds by position in the class table of R151 (R195). -/
def RecKind.code : RecKind → Nat
  | .entry => 1
  | .graceEntry => 2
  | .penaltyEntry => 3
  | .exit => 4
  | .missingEntryExit => 5
  | .freeExit => 6
  | .cardBlocked => 7
  | .inDoubt => 8
  | .resolved => 9
  | .refusal => 10
  | .exitGrace => 11
  | .regrant => 12
  | .doubleRegrant => 13
  | .staffPass => 14
  | .cloneLate => 15
  | .unusedCredit => 16
  | .alarm => 17
  | .gateFault => 18
  | .emergencyStart => 19
  | .emergencyEnd => 20
  | .shareDropped => 21
  | .membership => 22

/-- The position of a dropped frame's kind (R151). -/
def MsgKind.code : MsgKind → Nat
  | .sighting => 1
  | .lapse => 2
  | .regrant => 3
  | .denyAdd => 4

/-- The position of a reason in its kind's column of R151 (R195). CLONE stands first for a commit and second for
CARD_BLOCKED; FIRE and HOST stand first and second in both emergency kinds. -/
def Reason.code (kind : RecKind) : Reason → Nat
  | .clone => if kind = .cardBlocked then 2 else 1
  | .denied => 1
  | .refusal r => r.code
  | .expired => 1
  | .gateFault => 2
  | .emergency => 3
  | .alarm k => k.code
  | .opening => 1
  | .closing => 2
  | .fire => 1
  | .host => 2
  | .peerAssert => 3
  | .peerDeassert => 3
  | .peerRefresh => 4
  | .peerHold => 5
  | .peerLost => 6
  | .reset => 7
  | .dropped k => k.code
  | .heard => 1
  | .lost => 2
  | .joined => 3
  | .addressConflict => 4

/-- Outcomes of a record (R195). -/
def WriteOutcome.code : WriteOutcome → Nat
  | .committed => 1
  | .voided => 2
  | .abandoned => 3

/-- The presence flags of a record, from the least significant bit (R195). -/
def RecBody.presence (b : RecBody) : List Bool :=
  [b.side.isSome, b.card.isSome, b.txc.isSome, b.fare.isSome, b.balance.isSome, b.reason.isSome, b.related.isSome,
    b.outcome.isSome, b.peer.isSome]

/-- The 35 bytes of a record (R195); a field whose bit is clear is sent as zeros. -/
def Record.bytes (r : Record) : List Byte :=
  be 6 r.serial ++ be 4 r.time ++ b1 r.body.kind.code ++ be 2 (flagsValue r.body.presence)
    ++ b1 (r.body.side.elim 0 sideCode) ++ be 4 (r.body.card.elim 0 BitVec.toNat) ++ be 2 (r.body.txc.getD 0)
    ++ be 2 (r.body.fare.getD 0) ++ signedBe 4 (r.body.balance.getD 0)
    ++ b1 (r.body.reason.elim 0 (Reason.code r.body.kind)) ++ serialField r.body.related
    ++ b1 (r.body.outcome.elim 0 WriteOutcome.code) ++ b1 (r.body.peer.getD 0)

/-! ## Parts of bodies -/

/-- The set of missing items, in the order of R165. -/
def Missing.field (m : Missing) : List Byte := flagSet [m.time, m.station, m.zones, m.bands, m.classes, m.scheme]

/-- A set of latches, in the order of R130. -/
def Latches.field (l : Latches) : List Byte := flagSet [l.tailgate, l.forced, l.reverse, l.intrusion]

/-- The four scheme slots, one state byte each with no count before them (DESIGN CHOICE, log 28). -/
def Schemes.field (s : Schemes) : List Byte := b1 s.s1.code ++ b1 s.s2.code ++ b1 s.s3.code ++ b1 s.s4.code

/-- The counters of the journal. -/
def JournalView.field (j : JournalView) : List Byte :=
  be 2 j.count ++ serialField j.oldest ++ be 6 j.next ++ flagByte j.halted

/-- A tap result: outcome, card number, fare charged, balance after (R45). -/
def TapResult.field (r : TapResult) : List Byte :=
  b1 r.outcome.code ++ optField 4 cardField r.card ++ optField 2 (be 2) r.fare ++ optField 4 (signedBe 4) r.balance

/-- Milliseconds as whole seconds, rounded up (DESIGN CHOICE, log 28). -/
def wholeSeconds (ms : Nat) : Nat := (ms + 999) / 1000

/-- A credit in STATUS: direction, origin, state, time left (R183); its direction is numbered without NONE, and of a TAP
credit the origin goes alone, without its commit serial and card number (DESIGN CHOICE, log 28). -/
def CreditView.field (c : CreditView) : List Byte :=
  b1 (directionCode c.direction) ++ b1 c.origin.code ++ b1 (if c.assigned then 2 else 1)
    ++ optField 2 (fun ms => be 2 (wholeSeconds ms)) c.left

/-- An occupant in STATUS (R183). -/
def OccupantView.field (o : OccupantView) : List Byte :=
  b1 (directionCode o.direction) ++ b1 o.stage.code ++ flagByte o.holdsCredit

/-- PRESENT is 1 and ABSENT is 2 (R102). -/
def presentCode (present : Bool) : Nat := if present then 1 else 2

/-- A member row in STATUS (R183): of its contribution the kind alone, without the deadline of a HELD row (DESIGN
CHOICE, log 28). -/
def RowView.field (r : RowView) : List Byte :=
  b1 (presentCode r.present) ++ optField 4 (be 4) r.lastHeard ++ b1 r.contribution.code

/-- The claim: direction, slots with holders, waiting requests, last direction granted (R183). -/
def Claim.field (c : Claim) : List Byte :=
  b1 (claimCode c.direction) ++ b1 (holderCode c.slot1) ++ b1 (holderCode c.slot2) ++ flagSet [c.waitU, c.waitP]
    ++ b1 (directionCode c.lastGranted)

/-- Numbers of sighting entries by state. -/
def SightCounts.field (c : SightCounts) : List Byte := be 2 c.committed ++ be 2 c.pendingLocal ++ be 2 c.inDoubt

/-- An image of the sighting table. -/
def SImage.field (i : SImage) : List Byte := be 2 i.txc ++ stampField i.stamp

/-- A lapse mark; of a deadline the low 32 bits are sent (DESIGN CHOICE, log 42). -/
def LapseMark.field (m : LapseMark) : List Byte := b1 (sideCode m.side) ++ be 4 m.deadline

/-- The fields of a standing with the last update time between them, in the order of R75. -/
def Standing.field (st : Standing) (updated : Nat) : List Byte :=
  st.origin.field ++ be 4 updated ++ optField 5 LapseMark.field st.lapse ++ flagByte st.regranted

/-- The fields of a sighting entry that are present in its state, in the order of R75; of a held update only whether
there is one (R95). The pending image of a PENDING_LOCAL entry before its STORE is sent goes as a presence byte and
zeros; origin, lapse mark and regranted flag of one with the new flag set are left out altogether (DESIGN CHOICE, log
28). -/
def Sighting.field (e : Sighting) (heldUpdate : Bool) : List Byte :=
  cardField e.card
    ++ match e.state with
      | .committed st => b1 1 ++ e.baseline.field ++ st.field e.updated
      | .pendingLocal p =>
        b1 2 ++ e.baseline.field ++ optField 6 SImage.field p.stored ++ b1 (sideCode p.side) ++ flagByte p.prior.isNone
          ++ flagByte p.stored.isSome ++ flagByte p.cloneMark ++ flagByte heldUpdate
          ++ p.prior.elim (be 4 e.updated) fun st => st.field e.updated
      | .inDoubt stored serial =>
        b1 3 ++ e.baseline.field ++ stored.field ++ SightOrigin.own.field ++ be 4 e.updated ++ be 6 serial

/-- The STATUS fields by owning block (R183). Credits, occupants and the 16 member rows go as lists with their count
byte. Fire input, host emergency flag and own contribution each go as a flag byte, 1 or 0, and not as a named value;
hold-open, the sounder and the journal's halt likewise (DESIGN CHOICE, log 28). -/
def StatusBody.bytes (b : StatusBody) : List Byte :=
  b1 b.service.code ++ b.missing.field ++ be 2 b.suspends
    ++ be 4 b.now ++ b1 (if b.timeSet then 2 else 1)
    ++ b1 b.portU.code ++ b1 b.portP.code
    ++ optField 14 TapResult.field b.tapU ++ optField 14 TapResult.field b.tapP ++ be 2 b.outstanding
    ++ b.claim.field ++ listField CreditView.field b.credits ++ listField OccupantView.field b.occupants
    ++ b1 (if b.commandOpen then 1 else 2) ++ b1 b.leaf.code ++ flagByte b.holdOpen ++ b.latches.field
    ++ flagByte b.sounderRuns
    ++ flagByte b.fire ++ flagByte b.hostFlag ++ flagByte b.own ++ b1 (lineCode b.line)
    ++ b1 b.addr ++ b.link.field ++ b1 b.token.code ++ listField RowView.field b.rows ++ be 2 b.queued
    ++ be 2 b.denyCount ++ be 2 b.localCount ++ b.sightings.field
    ++ be 2 b.journal.count ++ serialField b.journal.oldest ++ be 6 b.journal.next ++ flagByte b.journal.halted
    ++ be 2 b.noticeLevel ++ be 2 b.haltLevel ++ be 2 b.resumeLevel

/-- The GET_TIME fields (R66). -/
def TimeBody.bytes (b : TimeBody) : List Byte :=
  be 4 b.now ++ b1 (if b.set then 2 else 1) ++ signedBe 2 b.offset ++ be 2 b.boundary ++ be 2 b.serviceDay
    ++ b1 b.dayOfWeek ++ be 2 b.minuteOfDay

/-! ## Reply bodies (R191) -/

/-- Refusal codes from BUSY at 16 to CANCELLED at 29 (R191). -/
def RefusalCode.code : RefusalCode → Nat
  | .busy => 16
  | .tagInUse => 17
  | .unknownKind => 18
  | .badLength => 19
  | .notSuspended => 20
  | .range => 21
  | .notReady => 22
  | .tableFull => 23
  | .notFound => 24
  | .schemeState => 25
  | .aisleBusy => 26
  | .gateState => 27
  | .mismatch => 28
  | .cancelled => 29

/-- The status byte of a reply (R191). -/
def ReplyBody.statusByte : ReplyBody → Nat
  | .refused c => c.code
  | .notReady _ => RefusalCode.notReady.code
  | .range _ => RefusalCode.range.code
  | .mismatch _ _ _ => RefusalCode.mismatch.code
  | .offline => 1
  | .fault => 2
  | .ok => 0
  | .identify _ _ => 0
  | .status _ => 0
  | .setTime _ _ => 0
  | .time _ => 0
  | .serviceState _ => 0
  | .loaded _ _ => 0
  | .schemes _ => 0
  | .denyCounts _ _ => 0
  | .denyRemoved _ _ _ => 0
  | .denyCleared _ _ _ => 0
  | .denyEntry _ _ _ _ _ => 0
  | .sighting _ _ _ => 0
  | .synced _ => 0
  | .peeked _ _ => 0
  | .removed _ _ => 0
  | .gate _ => 0
  | .latches _ => 0
  | .emergency _ _ _ => 0

/-- The fields after the status (R191). Host emergency flag and own contribution in the emergency replies each go as a
flag byte, 1 or 0 (DESIGN CHOICE, log 28). -/
def ReplyBody.fields : ReplyBody → List Byte
  | .refused _ => []
  | .notReady m => m.field
  | .range n => be 2 n
  | .mismatch count oldest next => be 2 count ++ serialField oldest ++ be 6 next
  | .ok => []
  | .offline => []
  | .fault => []
  | .identify speed slots => be 2 7 ++ be 2 20 ++ b1 1 ++ be 2 speed ++ slots.field
  | .status b => b.bytes
  | .setTime before after => be 4 before ++ be 4 after
  | .time b => b.bytes
  | .serviceState st => b1 st.code
  | .loaded st m => b1 st.code ++ m.field
  | .schemes slots => slots.field
  | .denyCounts entries locals => be 2 entries ++ be 2 locals
  | .denyRemoved origin entries locals => b1 origin.code ++ be 2 entries ++ be 2 locals
  | .denyCleared gone entries locals => be 2 gone ++ be 2 entries ++ be 2 locals
  | .denyEntry origin action added entries locals =>
    b1 origin.code ++ b1 action.code ++ be 4 added ++ b1 origin.addr ++ be 2 entries ++ be 2 locals
  | .sighting e held counts => e.field held ++ counts.field
  | .synced dropped => be 2 dropped
  | .peeked j records => b1 records.length ++ j.field ++ records.flatMap Record.bytes
  | .removed n j => be 2 n ++ j.field
  | .gate leaf => b1 leaf.code
  | .latches l => l.field
  | .emergency hostFlag own line => flagByte hostFlag ++ flagByte own ++ b1 (lineCode line)

/-- A reply body: the status, then its fields (R191). -/
def ReplyBody.bytes (b : ReplyBody) : List Byte := b1 b.statusByte ++ b.fields

/-! ## Notice bodies (R186) -/

/-- The body of a notice (R186). Member rows go as a list with its count byte, of EMERGENCY_CHANGE those that
contribute, each by address and contribution, of MEMBERSHIP_CHANGE all 16. Fire input, host emergency flag and own
contribution each go as a flag byte, 1 or 0 (DESIGN CHOICE, log 28). -/
def NoticeBody.bytes : NoticeBody → List Byte
  | .emergencyChange fire hostFlag own line rows =>
    flagByte fire ++ flagByte hostFlag ++ flagByte own ++ b1 (lineCode line)
      ++ listField (fun r => b1 r.1 ++ b1 r.2.code) rows
  | .alarm latches last =>
    latches.field ++ optField 3 (fun l => b1 l.1.code ++ optField 1 (fun d => b1 (sideCode d)) l.2) last
  | .gateFault leaf last => b1 leaf.code ++ optField 1 (fun t => b1 (Travel.code t)) last
  | .cloneDetected finding count =>
    optField 5 (fun f => cardField f.card ++ b1 f.kind.code) finding ++ be 2 count
  | .journalHalt j => flagByte j.halted ++ be 2 j.count ++ serialField j.oldest ++ be 6 j.next
  | .tapResult _ result => optField 14 TapResult.field result
  | .journalLevel count level oldest => be 2 count ++ be 2 level ++ serialField oldest
  | .membershipChange addr link rows =>
    b1 addr ++ link.field ++ listField (fun r => b1 (presentCode r.1) ++ optField 4 (be 4) r.2) rows
  | .serviceState st m => b1 st.code ++ m.field

/-- Notice kinds 129 to 138 (R191). -/
def NoticeBody.kindCode : NoticeBody → Nat
  | .emergencyChange _ _ _ _ _ => 129
  | .alarm _ _ => 130
  | .gateFault _ _ => 131
  | .cloneDetected _ _ => 132
  | .journalHalt _ => 133
  | .tapResult .U _ => 134
  | .tapResult .P _ => 135
  | .journalLevel _ _ _ => 136
  | .membershipChange _ _ _ => 137
  | .serviceState _ _ => 138

/-- Request kinds 1 to 30, and an unknown kind as it came (R180, R191). -/
def ReqKind.code : ReqKind → Nat
  | .identify => 1
  | .status => 2
  | .setTime => 3
  | .getTime => 4
  | .suspend => 5
  | .resume => 6
  | .reset => 7
  | .setStation => 8
  | .setZoneCount => 9
  | .loadZoneRow => 10
  | .loadBandSet => 11
  | .setClass => 12
  | .setParameters => 13
  | .selectScheme => 14
  | .retireScheme => 15
  | .denyAdd => 16
  | .denyRemove => 17
  | .denyClear => 18
  | .denyQuery => 19
  | .sightingQuery => 20
  | .syncLine => 21
  | .journalPeek => 22
  | .journalDrop => 23
  | .staffPass => 24
  | .holdOpen => 25
  | .holdRelease => 26
  | .gateReset => 27
  | .alarmClear => 28
  | .setEmergency => 29
  | .clearEmergency => 30
  | .unknown k => k.toNat

/-! ## Frames -/

/-- A host frame: start byte, then length, tag, kind and body closed by their CRC (R191). -/
def hostFrame (tag kind : Byte) (body : List Byte) : List Byte :=
  165#8 :: withCrc (be 2 body.length ++ [tag, kind] ++ body)

/-- The frame of a reply or a notice; every notice carries tag 0 (R180, R191). -/
def HostTx.frame : HostTx → List Byte
  | .reply r => hostFrame r.tag (BitVec.ofNat 8 r.kind.code) r.body.bytes
  | .notice b => hostFrame 0 (BitVec.ofNat 8 b.kindCode) b.bytes

/-- What the part transmits on the host line. -/
def State.hostOutput (s : State) : Option (List Byte) := s.host.tx.map HostTx.frame

/-- A link frame: characters with their mark bits; the CRC covers the data bits before it (R97, R98, R192). -/
def linkFrame (dest src kind : Nat) (body : List Byte) : List (Bool × Byte) :=
  match withCrc (b1 dest ++ b1 src ++ b1 kind ++ b1 body.length ++ body) with
  | [] => []
  | c :: rest => (true, c) :: rest.map fun x => (false, x)

/-- The kind number of a queued frame (R100, R192). -/
def LinkMsg.code : LinkMsg → Nat
  | .sighting _ _ _ => 4
  | .lapse _ _ _ => 5
  | .regrant _ _ => 6
  | .denyAdd _ => 7

/-- The body of a queued frame (R192). -/
def LinkMsg.body : LinkMsg → List Byte
  | .sighting c r w => cardField c ++ r.field ++ w.field
  | .lapse c i d => cardField c ++ i.field ++ b1 (sideCode d)
  | .regrant c i => cardField c ++ i.field
  | .denyAdd c => cardField c

/-- The frame chosen for the link, as it goes out (R97, R100, R192). -/
def Link.frame (l : Link) : Option (List (Bool × Byte)) :=
  match l.tx with
  | none => none
  | some .data => (l.queue.find? QItem.inTx).map fun q => linkFrame 255 l.addr q.msg.code q.msg.body
  | some (.emergency assert) => some (linkFrame 255 l.addr 8 (b1 (if assert then 1 else 2)))
  | some (.token a) => some (linkFrame a l.addr 1 [])
  | some (.invite a) => some (linkFrame a l.addr 2 [])
  | some (.joinReply a) => some (linkFrame a l.addr 3 [])

/-- The drive-enable output: asserted while a frame goes out, released between two frames (R97). -/
def State.driveEnable (s : State) : Bool := s.link.driving

/-- Areas are numbered HEADER, IMAGE_A, IMAGE_B (R194). -/
def areaCode : Area → Nat
  | .header => 1
  | .imageA => 2
  | .imageB => 3

/-- The request frame of an exchange (R194). -/
def CardRequest.frame : CardRequest → List Byte
  | .summon => withCrc (b1 1)
  | .fetch a => withCrc (b1 2 ++ b1 (areaCode a))
  | .store a content => withCrc (b1 3 ++ b1 (areaCode a) ++ content)

/-- What a port sends on its reader line. -/
def State.readerOutput (s : State) (side : Side) : Option (List Byte) :=
  (s.port side).exchange.map fun x => x.request.frame

end Sys2Proof.Machine
end

