-- ==== Sys2Proof/Machine/Receivers.lean ====
section
/-! DEFINITION. How the bytes that arrive on the three lines come to be commands: the host receiver (R178, R191), the
link receiver with its filter and checks (R98, R99, R192), the reader-line answers (R194). Commands are whole frames;
the receivers stand beside them (DESIGN CHOICE, log 30). -/

namespace Sys2Proof.Machine

/-! ## The host line -/

/-- The command of a request frame by its kind number (R191). -/
def requestOf (tag kind : Byte) (body : List Byte) : Instr :=
  match kind.toNat with
  | 1 => .identify tag body
  | 2 => .status tag body
  | 3 => .setTime tag body
  | 4 => .getTime tag body
  | 5 => .suspend tag body
  | 6 => .resume tag body
  | 7 => .reset tag body
  | 8 => .setStation tag body
  | 9 => .setZoneCount tag body
  | 10 => .loadZoneRow tag body
  | 11 => .loadBandSet tag body
  | 12 => .setClass tag body
  | 13 => .setParameters tag body
  | 14 => .selectScheme tag body
  | 15 => .retireScheme tag body
  | 16 => .denyAdd tag body
  | 17 => .denyRemove tag body
  | 18 => .denyClear tag body
  | 19 => .denyQuery tag body
  | 20 => .sightingQuery tag body
  | 21 => .syncLine tag body
  | 22 => .journalPeek tag body
  | 23 => .journalDrop tag body
  | 24 => .staffPass tag body
  | 25 => .holdOpen tag body
  | 26 => .holdRelease tag body
  | 27 => .gateReset tag body
  | 28 => .alarmClear tag body
  | 29 => .setEmergency tag body
  | 30 => .clearEmergency tag body
  | _ => .unknownKind tag kind

/-- The host receiver: hunting, or the bytes taken since the start byte (R178). -/
abbrev HostRx := Option (List Byte)

/-- The bytes since the start byte make a whole frame (R191). -/
def hostWhole (bs : List Byte) : Bool := bs.length == 6 + fieldAt bs 0 2

/-- A whole frame is a request, or its CRC does not match (R178). -/
def hostCommand (bs : List Byte) : Instr :=
  let n := bs.length - 2
  if bs.drop n = be 2 (crc16 (bs.take n)).toNat then
    requestOf (bs.getD 2 0) (bs.getD 3 0) ((bs.drop 4).take (fieldAt bs 0 2))
  else .hostFrameBadCrc

/-- The receiver takes a byte (R178): the command it gives, if any. -/
def hostRxByte (rx : HostRx) (b : Byte) : HostRx × Option Instr :=
  match rx with
  | none => if b = 165#8 then (some [], none) else (none, none)
  | some taken =>
    let bs := taken ++ [b]
    if bs.length = 2 ∧ 1024 < fieldAt bs 0 2 then (none, some .hostFrameBadCrc)
    else if 2 ≤ bs.length ∧ hostWhole bs = true then (none, some (hostCommand bs))
    else (some bs, none)

/-- The commands that a run of bytes gives, and the receiver after it. -/
def hostRun (rx : HostRx) : List Byte → HostRx × List Instr
  | [] => (rx, [])
  | b :: bs =>
    let r := hostRxByte rx b
    let rest := hostRun r.1 bs
    (rest.1, r.2.toList ++ rest.2)

/-! ## The aisle link -/

/-- The command of a whole link frame that passed the CRC, by kind, with the checks of R99 and R192: source, kind,
length, destination, side and EMERGENCY codes. -/
def linkCommand (bs : List Byte) : Instr :=
  let dest := bs.getD 0 0
  let src := bs.getD 1 0
  let body := (bs.drop 4).take ((bs.getD 3 0).toNat)
  let single := dest != 255
  let card : CardNo := BitVec.ofNat 32 (fieldAt body 0 4)
  if !sourceOk src then .linkFrameDiscarded
  else
    match (bs.getD 2 0).toNat, body.length with
    | 1, 0 => if single then .linkToken src else .linkFrameDiscarded
    | 2, 0 => if single then .linkJoinInvite src else .linkFrameDiscarded
    | 3, 0 => if single then .linkJoinReply src else .linkFrameDiscarded
    | 4, 16 =>
      .linkSighting src card (BitVec.ofNat 16 (fieldAt body 4 2)) (BitVec.ofNat 32 (fieldAt body 6 4))
        (BitVec.ofNat 16 (fieldAt body 10 2)) (BitVec.ofNat 32 (fieldAt body 12 4))
    | 5, 11 =>
      let side := body.getD 10 0
      if (sideOfCode side).isSome then
        .linkLapse src card (BitVec.ofNat 16 (fieldAt body 4 2)) (BitVec.ofNat 32 (fieldAt body 6 4)) side
      else .linkFrameDiscarded
    | 6, 10 => .linkRegrant src card (BitVec.ofNat 16 (fieldAt body 4 2)) (BitVec.ofNat 32 (fieldAt body 6 4))
    | 7, 4 => .linkDenyAdd src card
    | 8, 1 =>
      let code := body.getD 0 0
      if (assertOfCode code).isSome then .linkEmergency src code else .linkFrameDiscarded
    | _, _ => .linkFrameDiscarded

/-- A whole link frame: taken, or discarded because its CRC does not match (R99). -/
def linkWhole (bs : List Byte) : Instr :=
  let n := bs.length - 2
  if bs.drop n = be 2 (crc16 (bs.take n)).toNat then linkCommand bs else .linkFrameDiscarded

/-- The link receiver: discarding, or the characters taken (R98). -/
abbrev LinkRx := Option (List Byte)

/-- The receiver takes a character (R98): a marked one ends any frame and may begin another. -/
def linkRxChar (addr : Nat) (rx : LinkRx) (c : Bool × Byte) : LinkRx × Option Instr :=
  if c.1 then (if c.2.toNat = addr ∨ c.2 = 255 then some [c.2] else none, none)
  else
    match rx with
    | none => (none, none)
    | some taken =>
      let bs := taken ++ [c.2]
      if 4 ≤ bs.length ∧ bs.length = 6 + (bs.getD 3 0).toNat then (none, some (linkWhole bs)) else (some bs, none)

/-- The commands that a run of characters gives, and the receiver after it. -/
def linkRun (addr : Nat) (rx : LinkRx) : List (Bool × Byte) → LinkRx × List Instr
  | [] => (rx, [])
  | c :: cs =>
    let r := linkRxChar addr rx c
    let rest := linkRun addr r.1 cs
    (rest.1, r.2.toList ++ rest.2)

/-! ## The reader lines -/

/-- The area of a code (R194). -/
def areaOfCode : Nat → Option Area
  | 1 => some .header
  | 2 => some .imageA
  | 3 => some .imageB
  | _ => none

/-- The command of an answer frame on a reader line whose CRC matches and whose form is that of some answer; none for
a frame of class CHECK, which the window's close reports (R8, R194). A SUMMON answer with a collision-flags bit set
beyond the one of R194 is taken for class CHECK (DESIGN CHOICE, log 50). -/
def answerCommand (side : Side) (bs : List Byte) : Option Instr :=
  let n := bs.length - 2
  let content := (bs.take n).drop 2
  if bs.drop n = be 2 (crc16 (bs.take n)).toNat then
    match (bs.getD 0 0).toNat, areaOfCode (bs.getD 1 0).toNat with
    | 1, _ =>
      if bs.length = 8 ∧ (bs.getD 1 0).toNat < 2 then
        let collided := bs.getD 1 0 == 1
        some (.summonAnswer side (if collided then 0 else BitVec.ofNat 32 (fieldAt bs 2 4)) collided)
      else none
    | 2, some a => if content.length = areaSize a then some (.fetchAnswer side a content) else none
    | 3, some a => if content.length = 0 then some (.storeAnswer side a) else none
    | _, _ => none
  else none

end Sys2Proof.Machine
end

