-- ==== Sys2Proof/Machine/Tables.lean ====
section
/-! DEFINITION. The host's requests over the deny list, the sighting table and the journal (R73, R95, R160, R161). -/

namespace Sys2Proof.Machine

/-! ## Deny list (R73, R95) -/

/-- The reply that carries the counts after an edit (R73). -/
def State.replyDenyCounts (tag : Byte) (kind : ReqKind) (s : State) : State :=
  s.reply tag kind (.denyCounts s.screening.deny.length s.screening.localCount)

/-- The CENTRAL entry a host addition makes (R73). -/
def Screening.central (c : Screening) (card : CardNo) (action : DenyAction) (now : Nat) : DenyEntry :=
  { card := card, origin := .central, action := action, added := now, made := c.order }

/-- A host addition: an entry present becomes CENTRAL, an absent number is inserted while there is room (R73). -/
def State.hostDeny (tag : Byte) (a : CardNo × DenyAction) (s : State) : State :=
  let e := s.screening.central a.1 a.2 s.time.now
  if (s.screening.denied a.1).isSome then
    (s.onScreening fun c => { c with deny := replaceDeny e c.deny, order := c.order + 1 }).replyDenyCounts tag .denyAdd
  else if s.screening.deny.length < Config.denyCap then
    (s.onScreening fun c => { c with deny := insertDeny e c.deny, order := c.order + 1 }).replyDenyCounts tag .denyAdd
  else s.reply tag .denyAdd (.refused .tableFull)

/-- DENY_ADD (R73). -/
def execDenyAdd (tag : Byte) (body : List Byte) (s : State) : Result :=
  request tag .denyAdd (readDenyAdd body) (State.hostDeny tag) s

/-- An entry of any origin is removed (R73). -/
def State.denyRemove (tag : Byte) (card : CardNo) (s : State) : State :=
  match s.screening.denied card with
  | some e =>
    let t := s.onScreening fun c => { c with deny := removeDeny card c.deny }
    t.reply tag .denyRemove (.denyRemoved e.origin t.screening.deny.length t.screening.localCount)
  | none => s.reply tag .denyRemove (.refused .notFound)

/-- DENY_REMOVE (R73). -/
def execDenyRemove (tag : Byte) (body : List Byte) (s : State) : Result :=
  request tag .denyRemove (readCard body) (State.denyRemove tag) s

/-- Every CENTRAL entry is removed (R73). -/
def State.denyClear (tag : Byte) (s : State) : State :=
  let t := s.onScreening fun c => { c with deny := c.deny.filter DenyEntry.isLocal }
  t.reply tag .denyClear
    (.denyCleared (s.screening.deny.length - t.screening.deny.length) t.screening.deny.length t.screening.localCount)

/-- DENY_CLEAR (R73). -/
def execDenyClear (tag : Byte) (body : List Byte) (s : State) : Result :=
  request tag .denyClear (readEmpty body) (fun _ => State.denyClear tag) s

/-- The entry of a card and the counts (R95). -/
def State.denyQuery (tag : Byte) (card : CardNo) (s : State) : State :=
  match s.screening.denied card with
  | some e =>
    s.reply tag .denyQuery (.denyEntry e.origin e.action e.added s.screening.deny.length s.screening.localCount)
  | none => s.reply tag .denyQuery (.refused .notFound)

/-- DENY_QUERY (R95). -/
def execDenyQuery (tag : Byte) (body : List Byte) (s : State) : Result :=
  request tag .denyQuery (readCard body) (State.denyQuery tag) s

/-! ## Sighting table (R95) -/

/-- Whether an entry holds a peer update. -/
def Sighting.holdsUpdate (e : Sighting) : Bool :=
  match e.state with
  | .pendingLocal p => p.held.isSome
  | .committed _ => false
  | .inDoubt _ _ => false

/-- An entry without what it holds of a peer update, of which a query gives only whether there is one (R95). -/
def Sighting.shown (e : Sighting) : Sighting :=
  match e.state with
  | .pendingLocal p => { e with state := .pendingLocal { p with held := none } }
  | .committed _ => e
  | .inDoubt _ _ => e

/-- The sighting entry of a card and the counts by state (R95). -/
def State.sightingQuery (tag : Byte) (card : CardNo) (s : State) : State :=
  match s.screening.sighted card with
  | some e => s.reply tag .sightingQuery (.sighting e.shown e.holdsUpdate s.screening.counts)
  | none => s.reply tag .sightingQuery (.refused .notFound)

/-- SIGHTING_QUERY (R95). -/
def execSightingQuery (tag : Byte) (body : List Byte) (s : State) : Result :=
  request tag .sightingQuery (readCard body) (State.sightingQuery tag) s

/-! ## Journal (R160, R161) -/

/-- The k oldest records and the counters (R160). -/
def State.journalPeek (tag : Byte) (k : Nat) (s : State) : State :=
  s.reply tag .journalPeek (.peeked s.journal.view (s.journal.records.take k))

/-- JOURNAL_PEEK (R160). -/
def execJournalPeek (tag : Byte) (body : List Byte) (s : State) : Result :=
  request tag .journalPeek (readPeek body) (State.journalPeek tag) s

/-- The n oldest records leave when the first serial is the oldest; the halt is judged for the new count (R161). -/
def State.journalDrop (tag : Byte) (a : Nat × Nat) (s : State) : State :=
  if s.journal.oldest = some a.1 then
    let t := (s.onJournal fun j => { j with records := j.records.drop a.2 }).judgeResume
    t.reply tag .journalDrop (.removed (min a.2 s.journal.records.length) t.journal.view)
  else
    s.reply tag .journalDrop (.mismatch s.journal.records.length s.journal.oldest s.journal.nextSerial)

/-- JOURNAL_DROP (R161). -/
def execJournalDrop (tag : Byte) (body : List Byte) (s : State) : Result :=
  request tag .journalDrop (readDrop body) (State.journalDrop tag) s

end Sys2Proof.Machine
end

