-- ==== Sys2Proof/Machine/Dispatch.lean ====
section
/-! DEFINITION. The meaning of every command: one arm per constructor, each a call of its meaning. -/

namespace Sys2Proof.Machine

/-- The effect of a command on everything but the queue. -/
def exec (i : Instr) (s : State) : Host.Outcome State Fault Refusal :=
  match i with
  | .powerOn pins => Sys2Proof.Machine.execPowerOn pins s
  | .warmReset fire => Sys2Proof.Machine.execWarmReset fire s
  | .fireInputChange level => Sys2Proof.Machine.execFireInputChange level s
  | .mouthOccupied mouth => Sys2Proof.Machine.execMouthOccupied mouth s
  | .leafOccupied => Sys2Proof.Machine.execLeafOccupied s
  | .leafClear => Sys2Proof.Machine.execLeafClear s
  | .mouthClear mouth => Sys2Proof.Machine.execMouthClear mouth s
  | .openSwitchReached => Sys2Proof.Machine.execOpenSwitchReached s
  | .closedSwitchReached => Sys2Proof.Machine.execClosedSwitchReached s
  | .pollTimer side => Sys2Proof.Machine.execPollTimer side s
  | .summonAnswer side card collided => Sys2Proof.Machine.execSummonAnswer side card collided s
  | .fetchAnswer side area content => Sys2Proof.Machine.execFetchAnswer side area content s
  | .storeAnswer side area => Sys2Proof.Machine.execStoreAnswer side area s
  | .answerWindowClose side seen => Sys2Proof.Machine.execAnswerWindowClose side seen s
  | .dialogueDeadlineExpiry side => Sys2Proof.Machine.execDialogueDeadlineExpiry side s
  | .aisleWaitExpiry side => Sys2Proof.Machine.execAisleWaitExpiry side s
  | .slotGrant => Sys2Proof.Machine.execSlotGrant s
  | .stopHoldExpiry side => Sys2Proof.Machine.execStopHoldExpiry side s
  | .creditExpiry slot => Sys2Proof.Machine.execCreditExpiry slot s
  | .travelTimeout => Sys2Proof.Machine.execTravelTimeout s
  | .sounderExpiry => Sys2Proof.Machine.execSounderExpiry s
  | .secondTick => Sys2Proof.Machine.execSecondTick s
  | .lapseMarkExpiry card => Sys2Proof.Machine.execLapseMarkExpiry card s
  | .sightingLifetimeExpiry card => Sys2Proof.Machine.execSightingLifetimeExpiry card s
  | .inDoubtLifetimeExpiry card => Sys2Proof.Machine.execInDoubtLifetimeExpiry card s
  | .lineTransmissionStart dest => Sys2Proof.Machine.execLineTransmissionStart dest s
  | .linkRxIdleTimeout => Sys2Proof.Machine.execLinkRxIdleTimeout s
  | .linkToken src => Sys2Proof.Machine.execLinkToken src s
  | .linkJoinInvite src => Sys2Proof.Machine.execLinkJoinInvite src s
  | .linkJoinReply src => Sys2Proof.Machine.execLinkJoinReply src s
  | .linkSighting src card readTxc readStamp writtenTxc writtenStamp => Sys2Proof.Machine.execLinkSighting src card readTxc readStamp writtenTxc writtenStamp s
  | .linkLapse src card txc stamp side => Sys2Proof.Machine.execLinkLapse src card txc stamp side s
  | .linkRegrant src card txc stamp => Sys2Proof.Machine.execLinkRegrant src card txc stamp s
  | .linkDenyAdd src card => Sys2Proof.Machine.execLinkDenyAdd src card s
  | .linkEmergency src code => Sys2Proof.Machine.execLinkEmergency src code s
  | .linkFrameDiscarded => Sys2Proof.Machine.execLinkFrameDiscarded s
  | .linkFrameSent => Sys2Proof.Machine.execLinkFrameSent s
  | .silenceTimeout => Sys2Proof.Machine.execSilenceTimeout s
  | .passWindowExpiry => Sys2Proof.Machine.execPassWindowExpiry s
  | .inviteWindowExpiry => Sys2Proof.Machine.execInviteWindowExpiry s
  | .loneHolderWaitEnd => Sys2Proof.Machine.execLoneHolderWaitEnd s
  | .refreshDeadline addr => Sys2Proof.Machine.execRefreshDeadline addr s
  | .holdDeadline addr => Sys2Proof.Machine.execHoldDeadline addr s
  | .hostRxIdleTimeout => Sys2Proof.Machine.execHostRxIdleTimeout s
  | .hostFrameBadCrc => Sys2Proof.Machine.execHostFrameBadCrc s
  | .unknownKind tag kind => Sys2Proof.Machine.execUnknownKind tag kind s
  | .hostFrameSent => Sys2Proof.Machine.execHostFrameSent s
  | .drainComplete => Sys2Proof.Machine.execDrainComplete s
  | .syncLineComplete => Sys2Proof.Machine.execSyncLineComplete s
  | .gateResetComplete => Sys2Proof.Machine.execGateResetComplete s
  | .identify tag body => Sys2Proof.Machine.execIdentify tag body s
  | .status tag body => Sys2Proof.Machine.execStatus tag body s
  | .setTime tag body => Sys2Proof.Machine.execSetTime tag body s
  | .getTime tag body => Sys2Proof.Machine.execGetTime tag body s
  | .suspend tag body => Sys2Proof.Machine.execSuspend tag body s
  | .resume tag body => Sys2Proof.Machine.execResume tag body s
  | .reset tag body => Sys2Proof.Machine.execReset tag body s
  | .setStation tag body => Sys2Proof.Machine.execSetStation tag body s
  | .setZoneCount tag body => Sys2Proof.Machine.execSetZoneCount tag body s
  | .loadZoneRow tag body => Sys2Proof.Machine.execLoadZoneRow tag body s
  | .loadBandSet tag body => Sys2Proof.Machine.execLoadBandSet tag body s
  | .setClass tag body => Sys2Proof.Machine.execSetClass tag body s
  | .setParameters tag body => Sys2Proof.Machine.execSetParameters tag body s
  | .selectScheme tag body => Sys2Proof.Machine.execSelectScheme tag body s
  | .retireScheme tag body => Sys2Proof.Machine.execRetireScheme tag body s
  | .denyAdd tag body => Sys2Proof.Machine.execDenyAdd tag body s
  | .denyRemove tag body => Sys2Proof.Machine.execDenyRemove tag body s
  | .denyClear tag body => Sys2Proof.Machine.execDenyClear tag body s
  | .denyQuery tag body => Sys2Proof.Machine.execDenyQuery tag body s
  | .sightingQuery tag body => Sys2Proof.Machine.execSightingQuery tag body s
  | .syncLine tag body => Sys2Proof.Machine.execSyncLine tag body s
  | .journalPeek tag body => Sys2Proof.Machine.execJournalPeek tag body s
  | .journalDrop tag body => Sys2Proof.Machine.execJournalDrop tag body s
  | .staffPass tag body => Sys2Proof.Machine.execStaffPass tag body s
  | .holdOpen tag body => Sys2Proof.Machine.execHoldOpen tag body s
  | .holdRelease tag body => Sys2Proof.Machine.execHoldRelease tag body s
  | .gateReset tag body => Sys2Proof.Machine.execGateReset tag body s
  | .alarmClear tag body => Sys2Proof.Machine.execAlarmClear tag body s
  | .setEmergency tag body => Sys2Proof.Machine.execSetEmergency tag body s
  | .clearEmergency tag body => Sys2Proof.Machine.execClearEmergency tag body s
  | .hostFramingError => Sys2Proof.Machine.execHostFramingError s
  | .linkFramingError => Sys2Proof.Machine.execLinkFramingError s
  | .switchLost switch => Sys2Proof.Machine.execSwitchLost switch s
  | .speedStrapChange strap1 strap2 => Sys2Proof.Machine.execSpeedStrapChange strap1 strap2 s

end Sys2Proof.Machine
end

