-- ==== Sys2Proof/Machine/Step.lean ====
section
/-! DEFINITION. One step: the command at the front of the queue, run on the state with the queue's rest. -/

namespace Sys2Proof.Machine

/-- The part with a given queue. -/
def State.withQueue (s : State) (q : List Instr) : State := { s with pending := q }

/-- Nothing waits: the interval clock advances by one millisecond, and a link frame that is to be sent begins to go out,
as it does within 1 ms of its cause (R103, R107; DESIGN CHOICE, log 1 and 19). -/
def State.idle (s : State) : State :=
  { s with clock := s.clock + 1, link := s.link.beginTx s.clock s.emergency.own }

/-- One step. -/
def step (s : State) : Host.Outcome State Fault Refusal :=
  match s.pending with
  | [] => .next s.idle
  | c :: rest => exec c (s.withQueue rest)

/-- The part with the command that a word of the table spells put at the front of its queue; the table gives no row
any bits, so no word spells one. -/
def State.withFetchWord (s : State) (nbits w : Nat) : State :=
  match decodeTableWord nbits w with
  | some c => s.withQueue (c :: s.pending)
  | none => s

end Sys2Proof.Machine
end

