-- ==== Sys2Proof/Safety.lean ====
section
/-! DEFINITION. The terms that claims about the part use: what it has answered and told, and what a good state is. -/

namespace Sys2Proof.Machine

/-! ## Replies and notices -/

/-- The reply in a transmission, if it is one. -/
def HostTx.reply? : HostTx → Option Reply
  | .reply r => some r
  | .notice _ => none

/-- The kind of a notice body. -/
def NoticeBody.kind : NoticeBody → NoticeKind
  | .emergencyChange _ _ _ _ _ => .emergencyChange
  | .alarm _ _ => .alarm
  | .gateFault _ _ => .gateFault
  | .cloneDetected _ _ => .cloneDetected
  | .journalHalt _ => .journalHalt
  | .tapResult .U _ => .tapResultU
  | .tapResult .P _ => .tapResultP
  | .journalLevel _ _ _ => .journalLevel
  | .membershipChange _ _ _ => .membershipChange
  | .serviceState _ _ => .serviceState

/-- The notice in a transmission is of a kind. -/
def HostTx.tells (k : NoticeKind) : HostTx → Bool
  | .reply _ => false
  | .notice b => b.kind == k

/-- The replies formed and not yet sent whole, in the order of forming (R180, R185). -/
def State.formed (s : State) : List Reply := (s.host.tx.bind HostTx.reply?).toList ++ s.host.replies

/-- A notice of a kind is pending or being sent (R186). -/
def State.tells (s : State) (k : NoticeKind) : Bool := s.host.notices.contains k || s.host.tx.elim false (HostTx.tells k)

/-- A reply inside the window (R180). -/
def Reply.inWindow (tag : Byte) (kind : ReqKind) (body : ReplyBody) : Reply :=
  { tag := tag, kind := kind, body := body, linkRefusal := false }

/-- A request frame of a kind passes checks 1 and 2 of R179 under its tag. -/
def State.admits (s : State) (tag : Byte) (kind : ReqKind) : Prop := s.admission tag kind = .admitted

/-- A request has its reply: it stands in the window, its reply is the one formed last, and a frame being sent goes on
(R179 to R181, R185). -/
structure Replied (s t : State) (tag : Byte) (kind : ReqKind) (body : ReplyBody) : Prop where
  window : t.host.window = s.host.window ++ [tag]
  formed : t.formed = s.formed ++ [Reply.inWindow tag kind body]
  sending : s.host.tx.isSome = true → t.host.tx = s.host.tx
  speed : t.host.speed = s.host.speed
  resetTaken : t.host.resetTaken = s.host.resetTaken

/-- A request has its reply and nothing else of the host link has changed but, where a statement says so, the pending
notices. -/
structure Answered (s t : State) (tag : Byte) (kind : ReqKind) (body : ReplyBody) : Prop
    extends Replied s t tag kind body where
  hunting : t.host.rxInFrame = false
  results : t.host.tapU = s.host.tapU ∧ t.host.tapP = s.host.tapP
  finding : t.host.finding = s.host.finding
  findings : t.host.findings = s.host.findings

/-- A request was answered and changed nothing but the host link: no notice was raised either. -/
structure OnlyAnswered (s t : State) (tag : Byte) (kind : ReqKind) (body : ReplyBody) : Prop
    extends Answered s t tag kind body where
  rest : t = { s with host := t.host }
  notices : t.host.notices = s.host.notices

/-- A command formed no reply: nothing of the host link has changed but the pending notices and, when a notice begins
to be sent, the transmitter and the count of findings (R186, R188). -/
structure Silent (s t : State) : Prop where
  window : t.host.window = s.host.window
  formed : t.formed = s.formed
  sending : s.host.tx.isSome = true → t.host.tx = s.host.tx
  speed : t.host.speed = s.host.speed
  hunting : t.host.rxInFrame = s.host.rxInFrame
  resetTaken : t.host.resetTaken = s.host.resetTaken
  results : t.host.tapU = s.host.tapU ∧ t.host.tapP = s.host.tapP
  finding : t.host.finding = s.host.finding
  findings : s.host.tx.isSome = true → t.host.findings = s.host.findings

/-- A command formed no reply and raised these notices and no other: each kind is pending or being sent after it just
where it was before or is one of these (R186). -/
structure Told (s t : State) (kinds : List NoticeKind) : Prop extends Silent s t where
  told : ∀ k, t.tells k = (s.tells k || kinds.contains k)

/-- A command left the rest of the part alone and ended with the transmitter's choice over `h`, the host link after the
command's own effect (R185, R186, R188): a frame being sent goes on; a free transmitter begins the reply formed first,
else the pending notice of highest priority, of two of one priority the one raised first, a snapshot of its owner; else
nothing. -/
structure Transmits (s t : State) (h : HostLink) : Prop where
  rest : t = { s with host := t.host }
  sending : h.tx.isSome = true → t.host = h
  reply : ∀ r later, h.tx = none → h.replies = r :: later → t.host = { h with tx := some (.reply r), replies := later }
  idle : h.tx = none → h.replies = [] → h.notices = [] → t.host = h
  notice : h.tx = none → h.replies = [] → h.notices ≠ [] →
    ∃ b before after, h.notices = before ++ b.kind :: after ∧ (∀ k ∈ before, b.kind.rank < k.rank) ∧
      (∀ k ∈ after, b.kind.rank ≤ k.rank) ∧ b = ({ s with host := h } : State).snapshot b.kind ∧
      t.host =
        { h with
          tx := some (.notice b), notices := before ++ after,
          findings := if b.kind = .cloneDetected then 0 else h.findings }

/-- Records numbered from a serial, all of one time (R152). -/
def numbered (next now : Nat) : List RecBody → List Record
  | [] => []
  | b :: bs => { serial := next, time := now, body := b } :: numbered (next + 1) now bs

/-- The journal has grown by these records, numbered from its next serial, at the time given (R152). -/
def Journal.grownBy (j k : Journal) (now : Nat) (bodies : List RecBody) : Prop :=
  k.records = j.records ++ numbered j.nextSerial now bodies ∧ k.nextSerial = j.nextSerial + bodies.length

/-- Of records offered one after another, those that a journal takes at a count (R155, R156): every REVENUE record, and
an EVENT record while no halt stands; the halt begins with the record that brings the count to the halt level. -/
def takenFrom (haltLevel : Nat) : Bool → Nat → List RecBody → List RecBody
  | _, _, [] => []
  | halted, count, b :: later =>
    if halted = true ∧ b.kind.cls = .event then takenFrom haltLevel halted count later
    else b :: takenFrom haltLevel (halted || decide (haltLevel ≤ count + 1)) (count + 1) later

/-- Of these records, those that the journal takes (R155, R156). -/
def State.taken (s : State) (offered : List RecBody) : List RecBody :=
  takenFrom s.service.params.haltLevel s.journal.halted s.journal.records.length offered

/-- These records and no others were offered to the journal, in this order: it has grown by those of them that it
takes, and is halted after them where it was, or where one taken leaves the count at the halt level or above (R152,
R155, R156). -/
structure Journals (s t : State) (offered : List RecBody) : Prop where
  grown : s.journal.grownBy t.journal s.time.now (s.taken offered)
  halted : t.journal.halted =
    (s.journal.halted ||
      (!(s.taken offered).isEmpty && decide (s.service.params.haltLevel ≤ t.journal.records.length)))

/-- How the journal takes these records (R152, R155, R156): numbered in order; no EVENT among them once the halt has
begun; and halted after them where it was, or where their append leaves the count at the halt level or above. -/
structure Logged (s t : State) (now : Nat) (bodies : List RecBody) : Prop where
  grown : s.journal.grownBy t.journal now bodies
  events : ∀ before b after, bodies = before ++ b :: after → b.kind.cls = .event →
    s.journal.halted = false ∧
      (before = [] ∨ s.journal.records.length + before.length < s.service.params.haltLevel)
  halted : t.journal.halted =
    (s.journal.halted || (!bodies.isEmpty && decide (s.service.params.haltLevel ≤ t.journal.records.length)))

/-- The notices of the journal follow its appends: JOURNAL_LEVEL is raised where they carry the count to the notice
level, JOURNAL_HALT where a halt begins, and neither otherwise (R154, R155). -/
structure LevelsTold (s t : State) : Prop where
  level : t.tells .journalLevel =
    (s.tells .journalLevel ||
      decide (s.journal.records.length < s.service.params.noticeLevel ∧
        s.service.params.noticeLevel ≤ t.journal.records.length))
  halt : t.tells .journalHalt = (s.tells .journalHalt || (!s.journal.halted && t.journal.halted))

/-- An alarm of a kind was raised, once or several times (R130, R131): the latch stands set; where it was clear the
latching is noted, told and sounded. -/
structure Latched (s t : State) (kind : AlarmKind) (side : Option Side) : Prop extends Silent s t where
  latches : t.passage.latches = s.passage.latches.setOn kind
  latching : s.passage.latches.get kind = false →
    t.passage.lastAlarm = some (kind, side) ∧ t.passage.sounder = some s.clock ∧ t.tells .alarm = true
  repeated : s.passage.latches.get kind = true →
    t.passage.lastAlarm = s.passage.lastAlarm ∧ t.passage.sounder = s.passage.sounder

/-- The record of an alarm (R130). -/
def AlarmKind.noted (kind : AlarmKind) (side : Option Side) : RecBody :=
  { kind := .alarm, side := side, reason := some (.alarm kind) }

/-- An alarm of a kind was raised once; its record is appended unless the journal is halted (R130, R156). -/
structure Alarmed (s t : State) (kind : AlarmKind) (side : Option Side) : Prop extends Latched s t kind side where
  record : s.journal.grownBy t.journal s.time.now
    (if s.journal.halted = true then [] else [kind.noted side])

/-- A request stands in the window and its reply is withheld (R180): nothing else of the host link has changed but the
pending notices, and only these notices were raised. -/
structure Withheld (s t : State) (tag : Byte) (kinds : List NoticeKind) : Prop where
  window : t.host.window = s.host.window ++ [tag]
  formed : t.formed = s.formed
  sending : s.host.tx.isSome = true → t.host.tx = s.host.tx
  speed : t.host.speed = s.host.speed
  hunting : t.host.rxInFrame = false
  resetTaken : t.host.resetTaken = s.host.resetTaken
  results : t.host.tapU = s.host.tapU ∧ t.host.tapP = s.host.tapP
  finding : t.host.finding = s.host.finding
  findings : s.host.tx.isSome = true → t.host.findings = s.host.findings
  told : ∀ k, t.tells k = (s.tells k || kinds.contains k)

/-- An accepted load replaced the Service Controller's holdings by `v` and was answered with the state and the missing
items; SUSPENDED with an item missing became OUT_OF_SERVICE, with its notice (R169). -/
structure Loaded (s t : State) (tag : Byte) (kind : ReqKind) (v : Service) : Prop
    extends Answered s t tag kind (.loaded t.service.state t.missing) where
  rest : t = { s with service := t.service, host := t.host }
  service : t.service =
    { v with state := if s.service.state = .suspended ∧ t.missing.any = true then .outOfService else s.service.state }
  notice : t.service.state ≠ s.service.state → t.tells .serviceState = true
  notices : t.service.state = s.service.state → t.host.notices = s.host.notices

/-- The tag, kind and body of a command that is a request frame (R181, R191). -/
def requestIn : Instr → Option (Byte × ReqKind × List Byte)
  | .identify tag body => some (tag, .identify, body)
  | .status tag body => some (tag, .status, body)
  | .setTime tag body => some (tag, .setTime, body)
  | .getTime tag body => some (tag, .getTime, body)
  | .suspend tag body => some (tag, .suspend, body)
  | .resume tag body => some (tag, .resume, body)
  | .reset tag body => some (tag, .reset, body)
  | .setStation tag body => some (tag, .setStation, body)
  | .setZoneCount tag body => some (tag, .setZoneCount, body)
  | .loadZoneRow tag body => some (tag, .loadZoneRow, body)
  | .loadBandSet tag body => some (tag, .loadBandSet, body)
  | .setClass tag body => some (tag, .setClass, body)
  | .setParameters tag body => some (tag, .setParameters, body)
  | .selectScheme tag body => some (tag, .selectScheme, body)
  | .retireScheme tag body => some (tag, .retireScheme, body)
  | .denyAdd tag body => some (tag, .denyAdd, body)
  | .denyRemove tag body => some (tag, .denyRemove, body)
  | .denyClear tag body => some (tag, .denyClear, body)
  | .denyQuery tag body => some (tag, .denyQuery, body)
  | .sightingQuery tag body => some (tag, .sightingQuery, body)
  | .syncLine tag body => some (tag, .syncLine, body)
  | .journalPeek tag body => some (tag, .journalPeek, body)
  | .journalDrop tag body => some (tag, .journalDrop, body)
  | .staffPass tag body => some (tag, .staffPass, body)
  | .holdOpen tag body => some (tag, .holdOpen, body)
  | .holdRelease tag body => some (tag, .holdRelease, body)
  | .gateReset tag body => some (tag, .gateReset, body)
  | .alarmClear tag body => some (tag, .alarmClear, body)
  | .setEmergency tag body => some (tag, .setEmergency, body)
  | .clearEmergency tag body => some (tag, .clearEmergency, body)
  | .unknownKind tag kind => if kindUnknown kind then some (tag, .unknown kind, []) else none
  | _ => none

/-- The bytes a request body of each kind has: fixed, or a head of two bytes followed by as many entries as its second
byte counts (R191). -/
def ReqKind.fits (kind : ReqKind) (body : List Byte) : Bool :=
  match kind with
  | .identify | .status | .getTime | .suspend | .resume | .reset => body.length == 0
  | .denyClear | .syncLine | .holdOpen | .holdRelease | .gateReset | .setEmergency | .clearEmergency =>
    body.length == 0
  | .selectScheme | .retireScheme | .staffPass | .alarmClear => body.length == 1
  | .setZoneCount | .journalPeek => body.length == 2
  | .setTime | .denyRemove | .denyQuery | .sightingQuery => body.length == 4
  | .denyAdd => body.length == 5
  | .journalDrop => body.length == 8
  | .setStation | .setClass => body.length == 10
  | .setParameters => body.length == 33
  | .loadZoneRow => decide (2 ≤ body.length ∧ body.length = 2 + 2 * (body.getD 1 0).toNat)
  | .loadBandSet => decide (2 ≤ body.length ∧ body.length = 2 + 4 * (body.getD 1 0).toNat)
  | .unknown _ => true

/-- The six load requests (R169). -/
def ReqKind.isLoad : ReqKind → Bool
  | .setStation | .setZoneCount | .loadZoneRow | .loadBandSet | .setClass | .setParameters => true
  | _ => false

/-! ## The outbound queue (R112 to R114) -/

/-- An outstanding SYNC_LINE is over: the link is OFFLINE, or no frame that it marked is queued any more (R114). -/
def Link.syncOver (l : Link) (y : Sync) : Bool :=
  l.state.isOffline || !l.queue.any fun q => q.marks.contains y.tag

/-- The replies of the SYNC_LINEs that are over, in order of arrival (R114; the order is the model's choice, log 47). -/
def Link.syncReplies (l : Link) : List Reply :=
  (l.syncs.filter l.syncOver).map fun y =>
    Reply.inWindow y.tag .syncLine (if l.state.isOffline = true then .offline else .synced y.dropped)

/-- The link without the SYNC_LINEs that are over and without their marks (R114). -/
def Link.withoutOver (l : Link) : Link :=
  { l with
    syncs := l.syncs.filter fun y => !l.syncOver y,
    queue := l.queue.map fun q =>
      { q with marks := q.marks.filter fun a => !l.syncs.any fun y => y.tag == a && l.syncOver y } }

/-- The queued frame that a new frame drives out: none where one of its kind and card is queued and not in transmission,
or where there is room; else the oldest that is not in transmission (R112, R113). -/
def Link.drivenOut (l : Link) (m : LinkMsg) : Option QItem :=
  if l.queue.any (QItem.matches m) = true ∨ l.queue.length < 64 then none else l.queue.find? fun q => !q.inTx

/-- The link without a frame that was driven out, the oldest that is not in transmission: each SYNC_LINE that had marked
it counts it as dropped (R113, R114). -/
def Link.without (l : Link) (q : QItem) : Link :=
  { l with
    queue := l.queue.eraseP fun x => !x.inTx,
    syncs := l.syncs.map fun y => if q.marks.contains y.tag = true then { y with dropped := y.dropped + 1 } else y }

/-- The link with one more frame queued (R112): the older frame of its kind and card, where one is queued and not in
transmission, is replaced in its place and keeps its marks, and a DENY_ADD is then not queued again; else the frame
joins as the newest, in a full queue after the drop and the SYNC_LINEs that it ends (R113, R114). The other frames
stay in their order, and the rest of the link as it was. Which of two matching frames is replaced is the model's choice
(log 43). -/
def Link.withFrame (l : Link) (m : LinkMsg) : Link :=
  if l.queue.any (QItem.matches m) = true then
    if m.kind = .denyAdd then l
    else { l with queue := l.queue.modify (l.queue.findIdx (QItem.matches m)) fun q => { q with msg := m } }
  else
    let room := (l.drivenOut m).elim l fun q => (l.without q).withoutOver
    { room with queue := room.queue ++ [{ msg := m, marks := [], inTx := false }] }

/-- The link with these frames queued, one after another. -/
def Link.withFrames (l : Link) (ms : List LinkMsg) : Link := ms.foldl Link.withFrame l

/-- The SHARE_DROPPED records that the queueing of these frames makes (R113). -/
def Link.dropRecords : Link → List LinkMsg → List RecBody
  | _, [] => []
  | l, m :: later =>
    ((l.drivenOut m).toList.map fun q =>
        { kind := .shareDropped, card := some q.msg.card, reason := some (.dropped q.msg.kind) })
      ++ (l.withFrame m).dropRecords later

/-- The replies to the SYNC_LINEs that the queueing of these frames ends, by the drops that it makes (R113, R114). -/
def Link.dropReplies : Link → List LinkMsg → List Reply
  | _, [] => []
  | l, m :: later =>
    ((l.drivenOut m).toList.flatMap fun q => (l.without q).syncReplies) ++ (l.withFrame m).dropReplies later

/-- The replies that the queueing of these frames forms: none once a RESET is taken (R114, R184). -/
def State.syncAnswers (s : State) (ms : List LinkMsg) : List Reply :=
  if s.host.resetTaken = true then [] else s.link.dropReplies ms

/-! ## The drain (R167) -/

/-- The end of a side's tap completes the drain: the service state is SUSPENDING and the other port is idle (R167). -/
def State.drains (s : State) (side : Side) : Bool :=
  s.service.state == .suspending && (s.port (otherSide side)).ctx.isNone

/-- The Service Controller after the end of a side's tap: SUSPENDED with no SUSPEND outstanding where that completes the
drain (R167). -/
def State.drained (s : State) (side : Side) : Service :=
  if s.drains side = true then { s.service with state := .suspended, suspends := [] } else s.service

/-- The replies that the end of a side's tap forms: one to each outstanding SUSPEND, in order of arrival, where it
completes the drain, and none once a RESET is taken (R167, R184; that each gives the service state is the model's
reading, log 27). -/
def State.drainAnswers (s : State) (side : Side) : List Reply :=
  if s.drains side = true ∧ s.host.resetTaken = false then
    s.service.suspends.map fun tag => Reply.inWindow tag .suspend (.serviceState .suspended)
  else []

/-- A side's tap has ended without outcome, as the host link and the Service Controller see it: where that completes the
drain the state is SUSPENDED, with its notice and the replies to the outstanding SUSPENDs (R21, R167); nothing else of
the host link has changed, but for the notice that a free transmitter begins. -/
structure TapGone (s t : State) (side : Side) : Prop where
  service : t.service = s.drained side
  formed : t.formed = s.formed ++ s.drainAnswers side
  told : ∀ k, t.tells k = (s.tells k || (s.drains side && k == .serviceState))
  window : t.host.window = s.host.window
  sending : s.host.tx.isSome = true → t.host.tx = s.host.tx
  speed : t.host.speed = s.host.speed
  hunting : t.host.rxInFrame = s.host.rxInFrame
  resetTaken : t.host.resetTaken = s.host.resetTaken
  results : t.host.tapU = s.host.tapU ∧ t.host.tapP = s.host.tapP
  finding : t.host.finding = s.host.finding
  findings : s.host.tx.isSome = true → t.host.findings = s.host.findings

/-! ## Taps -/

/-- The UNUSED_CREDIT record of a credit (R122, R123). -/
def Credit.unused (c : Credit) (reason : Reason) : RecBody :=
  { kind := .unusedCredit, side := some (sideOf c.direction), reason := some reason,
    card := c.origin.tapCard.map Prod.snd, related := c.origin.tapCard.map Prod.fst }

/-- A side's latest tap result (R187). -/
def HostLink.result (h : HostLink) : Side → Option TapResult
  | .U => h.tapU
  | .P => h.tapP

/-- A tap has ended with a result: the port rests in DONE, or DISABLED where it is to be, without context, exchange or
timer, and the side's tap result is replaced with its notice (R21, R45, R187). In SUSPENDING with the other port idle
the drain completes with it: SUSPENDED, with its notice (R167). -/
structure TapEnded (s t : State) (side : Side) (r : TapResult) : Prop where
  state : (t.port side).state = (if s.disabled side = true then .disabled else .done)
  context : (t.port side).ctx = none
  exchange : (t.port side).exchange = none
  deadline : (t.port side).deadline = .stopped
  aisleWait : (t.port side).aisleWait = none
  result : t.host.result side = some r
  told : t.tells (resultNotice side) = true
  service : t.service = s.drained side
  drain : s.drains side = true → t.tells .serviceState = true

/-- A tap has ended with a result, these frames were queued on the way, and nothing else of the link has changed; the
replies formed are those of the SYNC_LINEs that the queueing ended, then those of the drain (R112 to R114, R167; the
order is the model's choice, log 47). -/
structure TapClosed (s t : State) (side : Side) (r : TapResult) (ms : List LinkMsg) : Prop extends
    TapEnded s t side r where
  link : t.link = s.link.withFrames ms
  formed : t.formed = s.formed ++ s.syncAnswers ms ++ s.drainAnswers side

/-- A tap has ended in a refusal: the STOP hold starts, its slot stands free unless a waiting request takes it, and a
REFUSAL record is offered to the journal but for JOURNAL_FULL (R24, R42, R45, R120), before `more`, the records of the
frames that were queued and of a held update (log 40). -/
structure Refused (s t : State) (side : Side) (reason : RefusalReason) (card : Option CardNo) (balance : Option Int)
    (ms : List LinkMsg := []) (more : List RecBody := []) : Prop extends
    TapClosed s t side { outcome := .refused reason, card := card, fare := none, balance := balance } ms where
  stop : (t.port side).stopHold = some (s.clock + 2000)
  freed : ∀ c k, (s.port side).state ≠ .idle → (s.port side).ctx = some c → c.slot = some k →
    s.passage.claim.waitU = false → s.passage.claim.waitP = false → t.passage.claim.slot k = none
  record : Journals s t
    ((if reason = .journalFull then []
      else
        [{ kind := .refusal, side := some side, card := card, reason := some (.refusal reason), balance := balance }])
      ++ more)

/-- No PENDING_LOCAL entry of the card of a context is held by its side: so it stands before check 10 (R79). -/
def State.holdsNoEntry (s : State) (side : Side) (card : Option CardNo) : Prop :=
  ∀ c, card = some c → s.screening.heldBy side c = none

/-- A context has formed a credit on its slot, which joins the list: assigned at once to the oldest occupant at LEAF
that it fits, else UNASSIGNED with a full lifetime (R121). -/
def CreditFormed (s t : State) (k : SlotId) (d : Direction) (origin : CreditOrigin) : Prop :=
  t.passage.claim = s.passage.claim.setSlot k (some .credit) ∧
    t.passage.credits =
      s.passage.credits
        ++ [{ slot := k, direction := d, origin := origin,
              state :=
                if s.passage.occupants.any
                    (fun o => o.stage == .leaf && o.direction == d && o.credit.isNone) then
                  .assigned
                else .unassigned (s.clock + 1000 * s.service.params.creditLifetime) }]

/-- The record of a passage granted without a write: the credit that it forms in leaf FAULT is cleared at once, with an
UNUSED_CREDIT record (R44, R121, R123). -/
def State.grantRecords (s : State) (side : Side) (c : TapContext) : List RecBody :=
  if s.passage.leaf = .fault ∧ c.path = some .normal ∧ s.emergency.line = false ∧ c.slot.isSome = true then
    [{ kind := .unusedCredit, side := some side, reason := some .gateFault }]
  else []

/-- A tap has ended with a passage granted without a write on the card (R44): the tap result with the balance read; a
credit on the context's slot on the NORMAL path outside an emergency, in leaf FAULT cleared at once (R121), and none
otherwise. These frames were queued and these records made before the credit; where no credit stands in leaf FAULT
nothing else is queued, recorded or answered. -/
structure Granted (s t : State) (side : Side) (c : TapContext) (outcome : TapOutcome) (balance : Int)
    (origin : CreditOrigin) (ms : List LinkMsg) (records : List RecBody) : Prop extends
    TapEnded s t side { outcome := outcome, card := c.card, fare := none, balance := some balance } where
  hold : (t.port side).stopHold = (s.port side).stopHold
  formed : ∀ k, c.slot = some k → c.path = some .normal → s.emergency.line = false → s.passage.leaf ≠ .fault →
    CreditFormed s t k (dirOf side) origin
  cleared : ∀ k, c.slot = some k → c.path = some .normal → s.emergency.line = false → s.passage.leaf = .fault →
    t.passage.credits = []
  unformed : c.path ≠ some .normal ∨ s.emergency.line = true ∨ c.slot = none → t.passage.credits = s.passage.credits
  closed : s.passage.leaf ≠ .fault ∨ s.passage.credits = [] →
    t.link = s.link.withFrames ms ∧ t.formed = s.formed ++ s.syncAnswers ms ++ s.drainAnswers side ∧
      Journals s t (records ++ s.grantRecords side c)

/-- The effects of the CLONE outcome outside the port (R74, R83, R188): the finding with its notice, the last of `found`
that the command counted, which a free transmitter's CLONE_DETECTED takes with it; the DENY_ADD frame, the card on the
deny list wherever it can be held. -/
structure CloneFound (s t : State) (card : CardNo) (found : Nat := 1) : Prop where
  told : t.tells .cloneDetected = true
  finding : t.host.finding = some { card := card, kind := .clone }
  counted : s.host.tx.isSome = true → t.host.findings = min 65535 (s.host.findings + found)
  frame : ∃ q ∈ t.link.queue, q.msg = .denyAdd card
  listed : (s.screening.denied card).isSome = true ∨ s.screening.deny.length < 16384 ∨ 0 < s.screening.localCount →
    (t.screening.denied card).isSome = true

/-- The readback that would confirm a port's purse write is to come: the write slot is asked for, the tap holds its
image read, its decision and its new image, and the card's entry PENDING_LOCAL with its STORE sent (R16, R17, R84). -/
structure State.ReadsBack (s : State) (side : Side) (c : TapContext) (card : CardNo) (i : ImageRead) (d : Decision)
    (img : Image) (e : Sighting) (p : PendingTap) : Prop where
  confirming : (s.port side).state = .confirming
  asked : ∃ x, (s.port side).exchange = some x ∧ x.request = .fetch i.slot.other.area
  context : (s.port side).ctx = some c
  own : c.side = side ∧ c.card = some card
  write : c.image = some i ∧ c.decision = some d ∧ c.newImage = some img
  entry : s.screening.sighted card = some e
  pending : e.state = .pendingLocal p ∧ p.side = side ∧ p.stored = some img.seen
  table : (s.screening.sightings.map Sighting.card).Nodup

/-- What becomes of a held update that is applied once its entry has left PENDING_LOCAL (R88, R92). -/
inductive HeldEnd where
  /-- There is none, or R92 passes it over. -/
  | passed
  /-- The entry takes the image that the peer wrote. -/
  | adopted (h : HeldUpdate)
  /-- It gives CLONE_LATE. -/
  | late (h : HeldUpdate)
  deriving DecidableEq, Repr

/-- What R92 makes of a held update against a COMMITTED entry of the image `base`, or against no entry. -/
def heldEnd (held : Option HeldUpdate) (card : CardNo) (base : Option SImage) : HeldEnd :=
  match held, base with
  | none, _ => .passed
  | some h, none =>
    if card = 0 ∨ card = BitVec.allOnes 32 ∨ h.written.txc ≠ h.read.txc + 1 then .passed else .adopted h
  | some h, some b =>
    if card = 0 ∨ card = BitVec.allOnes 32 ∨ h.written.txc ≠ h.read.txc + 1 ∨ h.written = b then .passed
    else if h.read = b ∨ b.txc < h.read.txc then .adopted h
    else .late h

/-- A held update that a tap applies whose write went ahead: one that does not mark (R88). -/
def PendingTap.applies (p : PendingTap) : Option HeldUpdate := p.held.filter fun h => !h.marking

/-- The entry that is left once a held update has been applied: that of the peer where it is adopted, else the one
COMMITTED at `img` with this standing, or none (R85, R86, R88, R92). -/
def HeldEnd.leaves (fate : HeldEnd) (card : CardNo) (img : SImage) (standing : Option Standing) (now order : Nat) :
    Option Sighting :=
  match fate with
  | .adopted h =>
    some
      { card := card, baseline := h.written, updated := now, touched := order,
        state := .committed { origin := .peer h.src, lapse := none, regranted := false } }
  | .passed | .late _ =>
    standing.map fun st => { card := card, baseline := img, updated := now, touched := order, state := .committed st }

/-- The frame that a held update queues: the DENY_ADD of CLONE_LATE (R92). -/
def HeldEnd.frames (fate : HeldEnd) (card : CardNo) : List LinkMsg :=
  match fate with
  | .late _ => [.denyAdd card]
  | .passed | .adopted _ => []

/-- The record that a held update makes: CLONE_LATE with the peer's address (R92). -/
def HeldEnd.records (fate : HeldEnd) (card : CardNo) : List RecBody :=
  match fate with
  | .late h => [{ kind := .cloneLate, card := some card, peer := some h.src }]
  | .passed | .adopted _ => []

/-- A held update gives CLONE_LATE (R92). -/
def HeldEnd.isLate : HeldEnd → Bool
  | .late _ => true
  | .passed | .adopted _ => false

/-- A held update is adopted (R92). -/
def HeldEnd.isAdopted : HeldEnd → Bool
  | .adopted _ => true
  | .passed | .late _ => false

/-- The CLONE_LATE finding outside the journal (R92, R188): the finding with its notice, the last of `found` that the
command counted; the DENY_ADD frame, the card on the deny list wherever it can be held. -/
structure LateFound (s t : State) (card : CardNo) (found : Nat) : Prop where
  told : t.tells .cloneDetected = true
  finding : t.host.finding = some { card := card, kind := .cloneLate }
  counted : s.host.tx.isSome = true → t.host.findings = min 65535 (s.host.findings + found)
  frame : ∃ q ∈ t.link.queue, q.msg = .denyAdd card
  listed : (s.screening.denied card).isSome = true ∨ s.screening.deny.length < 16384 ∨ 0 < s.screening.localCount →
    (t.screening.denied card).isSome = true

/-- Nothing has happened to the deny list and the findings between two states. -/
structure NoFinding (s t : State) : Prop where
  deny : t.screening.deny = s.screening.deny
  finding : t.host.finding = s.host.finding
  findings : s.host.tx.isSome = true → t.host.findings = s.host.findings

/-- The frame that a clone mark queues: the DENY_ADD of CLONE (R83, R85, R87). -/
def cloneFrames (mark : Bool) (card : CardNo) : List LinkMsg := if mark = true then [.denyAdd card] else []

/-- The RESOLVED record of an entry given up (R77, R78). -/
def Sighting.abandonRecord (e : Sighting) : List RecBody :=
  match e.state with
  | .inDoubt stored serial => [resolvedRecord e.card serial stored .abandoned none none]
  | .committed _ => []
  | .pendingLocal _ => []

/-- The entry that the in-doubt limit gives up: none below 64 IN_DOUBT entries, else the one with the lowest IN_DOUBT
serial (R87). -/
def Screening.GivesUp (c : Screening) (old : Option Sighting) : Prop :=
  (c.counts.inDoubt < 64 → old = none) ∧
    (64 ≤ c.counts.inDoubt →
      ∃ o stored n, old = some o ∧ c.sighted o.card = some o ∧ o.state = .inDoubt stored n ∧
        ∀ x ∈ c.sightings, x ≠ o → ∀ image m, x.state = .inDoubt image m → n < m)

/-- What a held update makes of an entry that was converted to IN_DOUBT with the pending image `img`: the peer that read
it shows the tap's write COMMITTED, one that read the image before it, or another of its txc, shows it VOIDED (R88,
R93). -/
def heldResolves (held : Option HeldUpdate) (card : CardNo) (base img : SImage) :
    Option (HeldUpdate × WriteOutcome) :=
  held.bind fun h =>
    if card = 0 ∨ card = BitVec.allOnes 32 ∨ h.written.txc ≠ h.read.txc + 1 then none
    else if h.read = img then some (h, .committed)
    else if h.read = base ∨ h.read.txc = img.txc then some (h, .voided)
    else none

/-- A PENDING_LOCAL entry was converted to IN_DOUBT (R87): the entry that the in-doubt limit gives up goes first, with
its RESOLVED record; the entry carries the serial of its IN_DOUBT record; a clone mark has the line-side CLONE effects;
then a held update that does not mark is applied, and where it resolves the entry that is COMMITTED at the peer's image
with its RESOLVED record (R88, R93). -/
structure Converted (s t : State) (e : Sighting) (p : PendingTap) (img : SImage) (old : Option Sighting) : Prop where
  entry : ∃ order, t.screening.sighted e.card =
    some
      (match heldResolves p.applies e.card e.baseline img with
        | some (h, _) =>
          { e with
            baseline := h.written, updated := s.time.now, touched := order,
            state := .committed { origin := .peer h.src, lapse := none, regranted := false } }
        | none =>
          { e with
            state := .inDoubt img (s.journal.nextSerial + old.toList.length), updated := s.time.now,
            touched := order })
  others : ∀ o, o ≠ e.card →
    t.screening.sighted o = if old.map Sighting.card = some o then none else s.screening.sighted o
  link : t.link = s.link.withFrames (cloneFrames p.cloneMark e.card)
  records : Journals s t
    (old.toList.flatMap Sighting.abandonRecord
      ++ { kind := .inDoubt, side := some p.side, card := some e.card, txc := some img.txc } ::
        s.link.dropRecords (cloneFrames p.cloneMark e.card)
      ++ (heldResolves p.applies e.card e.baseline img).toList.map fun r =>
        { kind := .resolved, card := some e.card, related := some (s.journal.nextSerial + old.toList.length),
          outcome := some r.2, txc := some img.txc, peer := some r.1.src })
  marked : p.cloneMark = true → CloneFound s t e.card
  unmarked : p.cloneMark = false → NoFinding s t

/-- A tap has ended IN_DOUBT (R19, R87): result and STOP hold, the slot released and no credit; an entry that the tap
holds with its STORE sent is converted. -/
structure EndedInDoubt (s t : State) (side : Side) (c : TapContext) : Prop extends
    TapEnded s t side { outcome := .inDoubt, card := c.card, fare := none, balance := none } where
  stop : (t.port side).stopHold = some (s.clock + 2000)
  credits : t.passage.credits = s.passage.credits
  released : ∀ k, c.slot = some k → s.passage.claim.waitU = false → s.passage.claim.waitP = false →
    t.passage.claim.slot k = none
  entry : ∀ card e p img old, c.card = some card → s.screening.sighted card = some e → e.state = .pendingLocal p →
    p.side = side → p.stored = some img → s.screening.GivesUp old →
    Converted s t e p img old ∧
      t.formed = s.formed ++ s.syncAnswers (cloneFrames p.cloneMark card) ++ s.drainAnswers side
  untouched : s.holdsNoEntry side c.card →
    t.screening = s.screening ∧ t.link = s.link ∧ t.journal = s.journal ∧
      t.formed = s.formed ++ s.drainAnswers side

/-- A port that starts an exchange in a state (R8). -/
def Port.asking (p : Port) (st : PortState) (r : CardRequest) : Port :=
  { p with
    state := st, attempts := 0, exchange := some { request := r, windowError := false, earlierError := false } }

/-- The last area of a tap is being read, and `content` for it brings the tap to check 10 with the image `i`: checks 5
to 9 pass (R5, R14, R32, R33). -/
structure State.ReachesCheckTen (s : State) (side : Side) (c : TapContext) (card : CardNo) (h : Header) (i : ImageRead)
    (content : List Byte) : Prop where
  reading : (s.port side).state = .reading
  asked : ∃ x, (s.port side).exchange = some x ∧ x.request = .fetch .imageB
  context : (s.port side).ctx = some c
  own : c.side = side ∧ c.card = some card ∧ c.header = some h
  length : content.length = 40
  header : h.status = .active ∧ (s.service.classes.get h.cls).valid = true ∧ s.time.serviceDay s.time.now ≤ h.expiry
  deny : s.screening.denied card = none
  image : chooseImage (c.areaA.bind AreaRead.valid) (s.service.readArea card content).valid = .image i

/-- The context of a tap after check 10, with its result (R14, R26, R34). -/
def TapContext.screened (c : TapContext) (s : State) (card : CardNo) (content : List Byte) (i : ImageRead)
    (r : ScreenResult) : TapContext :=
  { c with
    areaB := some (s.service.readArea card content), tapTime := some s.time.now, image := some i, screening := some r }

/-- Check 10 finds the card CLEAR: what the entry keeps of its standing, none for a new entry, and the RESOLVED record
of an entry that stood IN_DOUBT (R79, R82). -/
def State.Clears (s : State) (side : Side) (card : CardNo) (i : ImageRead) (prior : Option Standing)
    (records : List RecBody) : Prop :=
  (s.screening.sighted card = none ∧ prior = none ∧ records = []) ∨
    ∃ e, s.screening.sighted card = some e ∧
      ((∃ st, e.state = .committed st ∧ e.baseline.txc < i.image.txc ∧ prior = some .ours ∧ records = []) ∨
        (∃ st, e.state = .committed st ∧ i.image.seen = e.baseline ∧
          (∀ m, st.lapse = some m → m.side = side → m.deadline < s.time.now) ∧ prior = some st ∧ records = []) ∨
        ∃ stored serial, e.state = .inDoubt stored serial ∧
          ((i.image.seen = e.baseline ∧ prior = some .ours ∧
              records = [resolvedRecord card serial stored .voided (some (side, i.image.balance)) none]) ∨
            (i.image.seen ≠ e.baseline ∧ i.image.seen ≠ stored ∧ e.baseline.txc < i.image.txc ∧ prior = none ∧
              records = [resolvedRecord card serial stored .abandoned (some (side, i.image.balance)) none])))

/-- Check 10 finds the card cloned (R79, R81, R82). -/
def Sighting.Cloned (e : Sighting) (img : SImage) : Prop :=
  (∃ st, e.state = .committed st ∧ img ≠ e.baseline ∧ img.txc ≤ e.baseline.txc) ∨ (∃ p, e.state = .pendingLocal p) ∨
    ∃ stored serial, e.state = .inDoubt stored serial ∧ img ≠ e.baseline ∧ img ≠ stored ∧ img.txc ≤ e.baseline.txc

/-- An entry that a tap held PENDING_LOCAL has been set back without a write: gone when it was new, else COMMITTED at
the image read (R86). -/
def State.SetBack (t : State) (card : CardNo) (img : SImage) (prior : Option Standing) : Prop :=
  (prior = none → t.screening.sighted card = none) ∧
    ∀ st, prior = some st → ∃ order, t.screening.sighted card =
      some { card := card, baseline := img, updated := t.time.now, touched := order, state := .committed st }

/-- A PENDING_LOCAL entry was set back, its tap having ended without a write (R86), and its held update, marking or not,
was applied to what that left (R88, R92): an adopted one gives the entry, also where none was left; one that gives
CLONE_LATE has that finding's effects. -/
structure TookBack (s t : State) (e : Sighting) (p : PendingTap) (fate : HeldEnd) : Prop where
  entry : ∃ order, t.screening.sighted e.card = fate.leaves e.card e.baseline p.prior s.time.now order
  others : p.held = none ∨ s.screening.sightings.length ≤ 1024 →
    ∀ o, o ≠ e.card → t.screening.sighted o = s.screening.sighted o
  link : t.link = s.link.withFrames (fate.frames e.card)
  records : Journals s t (s.link.dropRecords (fate.frames e.card) ++ fate.records e.card)
  late : fate.isLate = true → LateFound s t e.card 1
  quiet : fate.isLate = false → NoFinding s t

/-- What a held update comes to whose tap ended without a write (R86, R88). -/
def Sighting.heldBack (e : Sighting) (p : PendingTap) : HeldEnd :=
  heldEnd p.held e.card (p.prior.map fun _ => e.baseline)

/-- A warm reset settles these entries one after another, as the table lists them (R96; the order is the model's choice,
log 16): PENDING_LOCAL with its STORE sent is converted, else set back, any other stays. -/
inductive PendingSettled : State → List Sighting → State → Prop where
  | nil (s : State) : PendingSettled s [] s
  | stands (s t : State) (e : Sighting) (rest : List Sighting) :
    e.isPending = false → PendingSettled s rest t → PendingSettled s (e :: rest) t
  | converts (s u t : State) (e : Sighting) (p : PendingTap) (img : SImage) (rest : List Sighting) :
    e.state = .pendingLocal p → p.stored = some img →
    u = { s with screening := u.screening, link := u.link, journal := u.journal, host := u.host } →
    (∀ old, s.screening.GivesUp old → Converted s u e p img old) → PendingSettled u rest t →
    PendingSettled s (e :: rest) t
  | setsBack (s u t : State) (e : Sighting) (p : PendingTap) (rest : List Sighting) :
    e.state = .pendingLocal p → p.stored = none →
    u = { s with screening := u.screening, link := u.link, journal := u.journal, host := u.host } →
    TookBack s u e p (e.heldBack p) → PendingSettled u rest t → PendingSettled s (e :: rest) t

/-! ### Lapse requests (R89) -/

/-- The LAPSE frame that a removed credit queues for the entry of its card: with origin TAP, against a COMMITTED entry
of this gate's own image (R89). -/
def Sighting.lapseFrames (e : Sighting) (c : Credit) : List LinkMsg :=
  match e.state with
  | .committed st => if st.origin = .own then [.lapse e.card e.baseline (sideOf c.direction)] else []
  | .pendingLocal _ => []
  | .inDoubt _ _ => []

/-- The LAPSE frame that a removed credit queues, if any: none for a credit of another origin, for a card without an
entry, and for an entry that is PENDING_LOCAL, IN_DOUBT or a peer's (R89). -/
def State.lapseFrames (s : State) (c : Credit) : List LinkMsg :=
  match c.origin with
  | .tap _ card => (s.screening.sighted card).elim [] fun e => e.lapseFrames c
  | .grace | .regrant | .recovered | .staff => []

/-- An entry after the lapse requests of removed credits (R89): COMMITTED at this gate's own image it takes a mark for
the side of the last TAP credit of its card among them, and any other entry is as before. -/
def Sighting.lapsedBy (credits : List Credit) (deadline : Nat) (e : Sighting) : Sighting :=
  match e.state, (credits.filter fun c => c.origin.tapCard.map Prod.snd == some e.card).getLast? with
  | .committed st, some c =>
    if st.origin = .own then
      { e with state := .committed { st with lapse := some { side := sideOf c.direction, deadline := deadline } } }
    else e
  | _, _ => e

/-- The lapse requests of removed credits and nothing else have changed the Screening Unit: the entries marked, the rest
of the table, its order and the deny list as before (R89). -/
structure Lapsed (s t : State) (credits : List Credit) : Prop where
  rest : t.screening = { s.screening with sightings := t.screening.sightings }
  cards : t.screening.sightings.map Sighting.card = s.screening.sightings.map Sighting.card
  entries : ∀ o, t.screening.sighted o =
    (s.screening.sighted o).map (Sighting.lapsedBy credits (s.time.now + s.service.params.regrantWindow))

/-- The records of credits that a leaf fault clears, in their order: of each its UNUSED_CREDIT record, then those of the
frames that its LAPSE frame drives out (R113, R123; the order is the model's reading, log 46). -/
def State.faultRecords (s : State) : Link → List Credit → List RecBody
  | _, [] => []
  | l, c :: later =>
    c.unused .gateFault ::
      (l.dropRecords (s.lapseFrames c) ++ s.faultRecords (l.withFrames (s.lapseFrames c)) later)

/-! ### Room in the journal -/

/-- The journal takes so many more records before an append could bring the halt about, or is halted already (R155). -/
def State.roomFor (s : State) (n : Nat) : Prop :=
  s.journal.halted = true ∨ s.journal.records.length + n ≤ s.service.params.haltLevel

/-! ## The aisle link -/

/-- A frame from an address reaches the part's rules: the link is not OFFLINE, the source is one of 1 to 16 and not the
own address, and the part holds no token (R99, R103, R110). -/
def State.meets (s : State) (src : Byte) : Prop :=
  (∀ reason, s.link.state ≠ .offline reason) ∧ 1 ≤ src.toNat ∧ src.toNat ≤ 16 ∧ src.toNat ≠ s.link.addr
    ∧ s.link.token = .waiting ∧ s.link.rows.length = 16

/-- The part after a taken frame has been heard, before its body is acted on: the row of the source PRESENT with its
last heard time now, the receiver free, the silence timeout afresh (R98, R102, R108). -/
def State.heardFrom (s : State) (src : Byte) : State :=
  { s with
    link :=
      ({ s.link with rxBegun := false, silence := some (s.clock + silenceMs s.link.addr) } : Link).setRow src.toNat
        { s.link.row src.toNat with present := true, lastHeard := some s.time.now } }

/-- The part with the source of a frame PRESENT and without the token: what a data frame does to the tables does not
depend on either (R99, R111). -/
def State.asMet (s : State) (src : Byte) : State :=
  { s with
    link :=
      { s.link.setRow src.toNat { s.link.row src.toNat with present := true } with token := .waiting } }

/-- A LAPSE or REGRANT is eligible: no SIGHTING of its card stands ahead of it (R112). -/
def QItem.Eligible (q : QItem) (ahead : List QItem) : Prop :=
  (q.msg.kind = .lapse ∨ q.msg.kind = .regrant) ∧ ∀ x ∈ ahead, ¬(x.msg.kind = .sighting ∧ x.msg.card = q.msg.card)

/-- An EMERGENCY frame is due in the turn: none has gone in it yet, and the own contribution is asserted or a DEASSERT
is pending (R104; once a turn is the model's reading, log 22). -/
def Link.EmergencyWaits (own : Bool) (l : Link) : Prop := l.emergencySent = false ∧ (own = true ∨ l.deassertPending = true)

/-- A holder has a frame of its turn left to send, of the four at most that it may: an EMERGENCY or a queued frame
(R104). -/
def Link.FramesLeft (own : Bool) (l : Link) : Prop := l.sent < 4 ∧ (l.EmergencyWaits own ∨ l.queue ≠ [])

/-- A holder has something left to send: a frame of its turn, the invitation of an invitation turn, or the TOKEN (R104
to R106). -/
def Link.MoreToSend (own : Bool) (l : Link) : Prop :=
  l.FramesLeft own ∨ (l.inviteDue = true ∧ l.invited ≠ none) ∨ l.successor ≠ none

/-- How a turn goes on (R103 to R105): with something left to send the part waits to send it, and else it waits silently
as the lone holder, 5 ms from now. `l` is the link with its counts as they stand after what was sent. -/
structure TurnGoesOn (own : Bool) (clock : Nat) (l m : Link) : Prop where
  kept : m.addr = l.addr ∧ m.state = l.state ∧ m.rows = l.rows ∧ m.syncs = l.syncs ∧
    m.deassertPending = l.deassertPending
  counts : m.turn = l.turn ∧ m.sent = l.sent ∧ m.emergencySent = l.emergencySent ∧ m.pointer = l.pointer
  queue : m.queue = l.queue.map fun q => { q with inTx := false }
  silent : m.tx = none ∧ m.txBegun = false
  waits : l.MoreToSend own → m.due = true ∧ m.token = l.token ∧ m.inviteDue = l.inviteDue ∧ m.loneWait = l.loneWait
  alone : ¬l.MoreToSend own → m.due = false ∧ m.token = .sending ∧
    (l.window = none → m.loneWait = some (clock + 5))

/-- How a turn begins (R103): the turn count goes on by one, nothing of the turn has been sent, and a count of 0 makes
it an invitation turn (R106). -/
structure TurnBegun (own : Bool) (clock : Nat) (l m : Link) : Prop where
  holds : m.token = .sending ∧ m.silence = none
  goesOn : TurnGoesOn own clock
    { l with
      state := m.state, token := .sending, turn := (l.turn + 1) % 8, sent := 0, emergencySent := false,
      inviteDue := (l.turn + 1) % 8 == 0, loneWait := none, window := none }
    m

/-- What a holder that waits to send sends, chosen by the state at that moment (R104 to R106): while fewer than four
frames have gone in the turn, the EMERGENCY frame that is due, else a queued frame, DENY_ADD before an eligible LAPSE
or REGRANT before SIGHTING, the oldest of its kind; after its frames the invitation of an invitation turn, else the
pass. -/
structure FrameChosen (own : Bool) (l m : Link) : Prop where
  kept : m.addr = l.addr ∧ m.state = l.state ∧ m.rows = l.rows ∧ m.syncs = l.syncs ∧
    m.deassertPending = l.deassertPending ∧ m.turn = l.turn ∧ m.sent = l.sent ∧ m.emergencySent = l.emergencySent
  msgs : m.queue.map QItem.msg = l.queue.map QItem.msg
  chosen : m.due = false
  assert : l.FramesLeft own → l.EmergencyWaits own → own = true → m.tx = some (.emergency true) ∧ m.token = l.token
  deassert : l.FramesLeft own → l.EmergencyWaits own → own = false →
    m.tx = some (.emergency false) ∧ m.token = l.token
  data : l.FramesLeft own → ¬l.EmergencyWaits own →
    m.tx = some .data ∧ m.token = l.token ∧
      ∃ before q after, m.queue = before ++ q :: after ∧ q.inTx = true ∧ (∀ x ∈ before ++ after, x.inTx = false) ∧
        (q.msg.kind = .denyAdd → ∀ x ∈ before, x.msg.kind ≠ .denyAdd) ∧
        (q.msg.kind ≠ .denyAdd → ∀ x ∈ m.queue, x.msg.kind ≠ .denyAdd) ∧
        (q.msg.kind = .lapse ∨ q.msg.kind = .regrant →
          q.Eligible before ∧ ∀ ahead x later, before = ahead ++ x :: later → ¬x.Eligible ahead) ∧
        (q.msg.kind = .sighting →
          (∀ x ∈ before, x.msg.kind ≠ .sighting) ∧
            ∀ ahead x later, m.queue = ahead ++ x :: later → ¬x.Eligible ahead)
  invite : ¬l.FramesLeft own → l.inviteDue = true → ∀ a, l.invited = some a →
    m.tx = some (.invite a) ∧ m.token = .inviting a false ∧ m.pointer = a
  pass : ¬l.FramesLeft own → l.inviteDue = false ∨ l.invited = none → ∀ a, l.successor = some a →
    m.tx = some (.token a) ∧ m.token = .passing a 1
  alone : ¬l.MoreToSend own → m.tx = none ∧ m.token = .sending ∧ m.loneWait.isSome = true

/-- What a row's contribution has become when its member was lost, with the emergency hold in seconds (R144). -/
def Contribution.LostTo (before after : Contribution) (clock hold : Nat) : Prop :=
  (∀ d, before = .asserted d → after = if hold = 0 then .none else .held (clock + 1000 * hold)) ∧
    ((∀ d, before ≠ .asserted d) → after = before)

/-- What each row's contribution has become when every PRESENT row was lost (R110, R115, R144). -/
def Link.AllLostTo (l m : Link) (clock hold b : Nat) : Prop :=
  ((l.row b).present = true → (l.row b).contribution.LostTo (m.row b).contribution clock hold) ∧
    ((l.row b).present = false → (m.row b).contribution = (l.row b).contribution)

/-- The row whose loss ends an emergency when every PRESENT row is lost in ascending order of address: the highest that
was PRESENT and ASSERTED (R144; the order is the model's choice, log 44). -/
def Link.LastAsserting (l : Link) (b : Nat) : Prop :=
  1 ≤ b ∧ b ≤ 16 ∧ (l.row b).present = true ∧ (∃ d, (l.row b).contribution = .asserted d) ∧
    ∀ x, b < x → x ≤ 16 → (l.row x).present = true → ∀ d, (l.row x).contribution ≠ .asserted d

/-- A row goes on contributing when every PRESENT row is lost: it is HELD, or ASSERTED and either ABSENT already or held
from now on (R144). -/
def Link.StaysHeld (l : Link) (b hold : Nat) : Prop :=
  (∃ d, (l.row b).contribution = .held d) ∨
    ((∃ d, (l.row b).contribution = .asserted d) ∧ ((l.row b).present = false ∨ hold ≠ 0))

/-! ## Bodies of the larger loads (R170, R173, R174) -/

/-- Of the conditions on the fields of a body, in field order, that of field `n` is the first to fail; fields count from
1 (R169, R191). -/
def FirstOffends (conditions : List Prop) (n : Nat) : Prop :=
  ∃ before c after, conditions = before ++ c :: after ∧ (∀ x ∈ before, x) ∧ ¬c ∧ n = before.length + 1

/-- The bounds of R174. -/
def Params.inRange (p : Params) : Prop :=
  p.grace ≤ 600 ∧ p.transferWindow ≤ 7200 ∧ 1 ≤ p.maxLegs ∧ p.maxLegs ≤ 4 ∧ 600 ≤ p.tMax ∧ p.tMax ≤ 28800
    ∧ p.surcharge ≤ 10000 ∧ p.penalty ≤ 20000 ∧ 3 ≤ p.creditLifetime ∧ p.creditLifetime ≤ 30 ∧ 1 ≤ p.aisleWait
    ∧ p.aisleWait ≤ 10 ∧ 10 ≤ p.regrantWindow ∧ p.regrantWindow ≤ 300 ∧ 600 ≤ p.sightingLifetime
    ∧ p.sightingLifetime ≤ 14400 ∧ 60 ≤ p.inDoubtLifetime ∧ p.inDoubtLifetime ≤ 3600 ∧ 1 ≤ p.noticeLevel
    ∧ p.noticeLevel ≤ p.haltLevel ∧ 256 ≤ p.haltLevel ∧ p.haltLevel ≤ 1920 ∧ p.resumeLevel < p.haltLevel
    ∧ p.sounderDuration ≤ 30 ∧ p.emergencyHold ≤ 300

/-- The sixteen values of a SET_PARAMETERS, in the order of R174. -/
def Params.values (p : Params) : List Nat :=
  [p.grace, p.transferWindow, p.maxLegs, p.tMax, p.surcharge, p.penalty, p.creditLifetime, p.aisleWait, p.regrantWindow,
    p.sightingLifetime, p.inDoubtLifetime, p.noticeLevel, p.haltLevel, p.resumeLevel, p.sounderDuration,
    p.emergencyHold]

/-- The conditions on the seventeen fields of a SET_PARAMETERS, in field order; `mask` is the byte of the weekend mask
(R174, R190; where a condition is about two levels its field is the model's reading, log 26). -/
def Params.conditions (p : Params) (mask : Nat) : List Prop :=
  [p.grace ≤ 600, p.transferWindow ≤ 7200, 1 ≤ p.maxLegs ∧ p.maxLegs ≤ 4, 600 ≤ p.tMax ∧ p.tMax ≤ 28800,
    p.surcharge ≤ 10000, p.penalty ≤ 20000, 3 ≤ p.creditLifetime ∧ p.creditLifetime ≤ 30,
    1 ≤ p.aisleWait ∧ p.aisleWait ≤ 10, 10 ≤ p.regrantWindow ∧ p.regrantWindow ≤ 300,
    600 ≤ p.sightingLifetime ∧ p.sightingLifetime ≤ 14400, 60 ≤ p.inDoubtLifetime ∧ p.inDoubtLifetime ≤ 3600,
    1 ≤ p.noticeLevel ∧ p.noticeLevel ≤ p.haltLevel, 256 ≤ p.haltLevel ∧ p.haltLevel ≤ 1920,
    p.resumeLevel < p.haltLevel, p.sounderDuration ≤ 30, p.emergencyHold ≤ 300, mask < 128]

/-- The body of a SET_PARAMETERS: the values in the order of R174, two bytes each, then the weekend mask. -/
def Params.bytes (p : Params) : List Byte :=
  p.values.flatMap (be 2)
    ++ flagSet
        [p.weekend.mon, p.weekend.tue, p.weekend.wed, p.weekend.thu, p.weekend.fri, p.weekend.sat, p.weekend.sun]

/-- The bounds of R170. -/
def StationLoad.inRange (a : StationLoad) : Prop :=
  1 ≤ a.station.number ∧ a.station.number ≤ 4095 ∧ 1 ≤ a.station.zones.first ∧ a.station.zones.first ≤ 16
    ∧ (∀ z, a.station.zones.second = some z → 1 ≤ z ∧ z ≤ 16 ∧ z ≠ a.station.zones.first) ∧ a.addr ≤ 16
    ∧ -720 ≤ a.offset ∧ a.offset ≤ 840 ∧ a.boundary ≤ 1439

/-- Aisle modes are numbered from 1 in the order of R41 (R190). -/
def AisleMode.code : AisleMode → Nat
  | .bidirectional => 1
  | .entryOnly => 2
  | .exitOnly => 3

/-- The body of a SET_STATION (R170, R190). -/
def StationLoad.bytes (a : StationLoad) : List Byte :=
  be 2 a.station.number ++ a.station.zones.bytes ++ be 1 a.station.mode.code ++ be 1 a.addr ++ signedBe 2 a.offset
    ++ be 2 a.boundary

/-- The bounds of R173. -/
def ClassRec.inRange (r : ClassRec) : Prop :=
  r.discount ≤ 1000 ∧ r.cap ≤ 65535 ∧ r.overdraft ≤ 50000 ∧ r.entryMin ≤ 50000

/-- The body of a SET_CLASS (R173, R190). -/
def ClassRec.bytes (k : Nat) (r : ClassRec) : List Byte :=
  be 1 k ++ flagByte r.valid ++ be 2 r.discount ++ be 2 r.cap ++ be 2 r.overdraft ++ be 2 r.entryMin

/-- The bounds of R172. -/
def bandsInRange (bands : List Band) : Prop :=
  1 ≤ bands.length ∧ bands.length ≤ 8 ∧ bands.head?.map Band.start = some 0
    ∧ (bands.map Band.start).Pairwise (· < ·)
    ∧ ∀ b ∈ bands, b.start ≤ 1439 ∧ 250 ≤ b.multiplier ∧ b.multiplier ≤ 4000

/-- A band in four bytes (R172, R190). -/
def Band.bytes (b : Band) : List Byte := be 2 b.start ++ be 2 b.multiplier

/-- What the start of a line emergency appends to a journal that takes it all: EMERGENCY_START, an UNUSED_CREDIT for
each credit in the list's order, and the REFUSAL of a tap waiting at Port U (R31, R123, R145; the order of the three is
the model's choice, log 11). -/
def State.startRecords (s : State) (start : RecBody) : List RecBody :=
  start :: s.passage.credits.map (fun c => c.unused .emergency)
    ++ (if s.portU.state = .waitAisle then
        s.portU.ctx.toList.map fun c =>
          { kind := .refusal, side := some c.side, card := c.card, reason := some (.refusal .emergency),
            balance := c.image.map fun i => i.image.balance }
      else [])

/-- The replies that the start of a line emergency forms: those of the drain, where the tap refused at Port U was the
last (R31, R167). -/
def State.startReplies (s : State) : List Reply :=
  if s.portU.state = .waitAisle ∧ s.portU.ctx.isSome = true then s.drainAnswers .U else []

/-- A line emergency has started (R31, R123, R139, R145, R146): its record and notice; every credit cleared and its slot
free; both requests withdrawn, a tap that waits at Port U refused EMERGENCY and one at Port P gone on in READING on the
free-exit path with the time it had left, other contexts with what they hold; the leaves open or opening. With no entry
of the refused card held, tables and `link` are as before the start, the records are those of `startRecords`, and the
replies those of the drain and `after`. -/
structure EmergencyStarted (s t : State) (start : RecBody) (link : Link) (after : List Reply := []) : Prop where
  told : t.tells .emergencyChange = true
  line : t.emergency.line = true
  aisle : t.passage =
    { s.passage with
      claim := t.passage.claim, credits := [], occupants := t.passage.occupants, leaf := t.passage.leaf,
      travel := t.passage.travel }
  freed : ∀ c ∈ s.passage.credits, t.passage.claim.slot c.slot = none
  held : ∀ k side, s.passage.claim.slot k = some (.context side) → (∀ c ∈ s.passage.credits, c.slot ≠ k) →
    (s.portU.state = .waitAisle → ∀ c, s.portU.ctx = some c → c.slot = none) →
    t.passage.claim.slot k = some (.context side)
  withdrawn : t.passage.claim.waitU = false ∧ t.passage.claim.waitP = false
  occupants : t.passage.occupants.map (fun o => (o.direction, o.stage)) =
    s.passage.occupants.map fun o => (o.direction, o.stage)
  refused : ∀ c, s.portU.state = .waitAisle → s.portU.ctx = some c →
    TapEnded s t .U
      { outcome := .refused .emergency, card := c.card, fare := none, balance := c.image.map fun i => i.image.balance } ∧
      t.portU.stopHold = some (s.clock + 2000)
  exits : ∀ c, s.portP.state = .waitAisle → s.portP.ctx = some c →
    t.portP =
      { s.portP.asking .reading (.fetch .header) with
        deadline :=
          (match s.portP.deadline with
            | .paused left => .running (s.clock + left)
            | .running until_ => .running until_
            | .stopped => .stopped),
        aisleWait := none, ctx := some { c with path := some .freeExit, slot := none } }
  others : (s.portU.state ≠ .waitAisle → t.portU = s.portU) ∧ (s.portP.state ≠ .waitAisle → t.portP = s.portP)
  service : s.portU.state ≠ .waitAisle ∨ s.portU.ctx = none → t.service = s.service
  entered : (s.portU.state = .waitAisle → s.portU.ctx ≠ none) →
    t.portU.state ≠ .waitAisle ∧ t.portP.state ≠ .waitAisle
  opening : s.passage.leaf = .closed ∨ s.passage.leaf = .closing ∨ s.passage.leaf = .fault →
    t.passage.leaf = .opening ∧ t.passage.travel = some (s.clock + 1500)
  opened : s.passage.leaf = .opened → t.passage.leaf = .heldOpen ∧ t.passage.travel = none
  stays : s.passage.leaf = .opening ∨ s.passage.leaf = .heldOpen →
    t.passage.leaf = s.passage.leaf ∧ t.passage.travel = s.passage.travel
  record : s.journal.halted = false → ∃ more, s.journal.grownBy t.journal s.time.now (start :: more)
  skipped : s.journal.halted = true → t.journal = s.journal
  rest : (s.portU.state = .waitAisle → ∀ c, s.portU.ctx = some c → s.holdsNoEntry .U c.card) →
    t.screening = s.screening ∧ t.link = link ∧ t.formed = s.formed ++ s.startReplies ++ after ∧
      Journals s t (s.startRecords start)

/-- Where the leaves go when a line emergency ends (R133, R134, R139): hold-open and the credits give the command. -/
def State.leafReleased (s : State) : LeafState :=
  match s.passage.leaf with
  | .closed | .closing => if s.passage.holdOpen = true ∨ s.passage.credits ≠ [] then .opening else s.passage.leaf
  | .opened | .heldOpen =>
    if s.passage.holdOpen = true then .heldOpen
    else if s.passage.credits = [] ∧ s.pins.leaf = false then .closing else .opened
  | .opening | .fault => s.passage.leaf

/-- The aisle after a line emergency has ended: the leaves go where `leafReleased` says, a new travel with its timer,
and nothing else changes (R134, R139, R147). -/
structure AisleReleased (s t : State) : Prop where
  aisle : t.passage = { s.passage with leaf := s.leafReleased, travel := t.passage.travel }
  travel : t.passage.travel =
    if s.leafReleased = s.passage.leaf then s.passage.travel
    else if s.leafReleased = .opening ∨ s.leafReleased = .closing then some (s.clock + 1500) else none

/-- A line emergency has ended (R139, R145, R147): its record and notice, the leaves released; ports and tables go on
as they were. -/
structure EmergencyEnded (s t : State) (finish : RecBody) : Prop extends AisleReleased s t where
  told : t.tells .emergencyChange = true
  line : t.emergency.line = false
  record : s.journal.grownBy t.journal s.time.now (if s.journal.halted = true then [] else [finish])
  ports : t.portU = s.portU ∧ t.portP = s.portP
  tables : t.screening = s.screening

/-- The occupants after a mouth has become clear while LEAF is occupied (R127, R129): those at FAR that head to it are
gone, those at its MOUTH stand at LEAF, the first of them with the free credits in their order. -/
def settledAtMouth (m : Side) : List SlotId → List Occupant → List Occupant
  | _, [] => []
  | free, o :: rest =>
    if o.stage = .far ∧ farMouth o.direction = m then settledAtMouth m free rest
    else if o.stage = .mouth ∧ sideOf o.direction = m then
      { o with stage := .leaf, credit := free.head? } :: settledAtMouth m free.tail rest
    else o :: settledAtMouth m free rest

/-- The leaves stand as the command, hold-open and the line emergency ask (R134). -/
def State.leavesSettled (s : State) : Prop := s.settleLeaves = s

/-! ## Resets (R116, R140) -/

/-- What the Passage Controller rests in after a power-on or a warm reset: nothing claimed, credited, latched or in
force, an occupant at each occupied mouth, the leaves where the switches and the line emergency put them (R140). -/
structure AisleAtRest (g : Passage) (p : Pins) (line : Bool) (clock : Nat) (lastGranted : Direction) : Prop where
  claim : g.claim = { Claim.initial with lastGranted := lastGranted }
  credits : g.credits = []
  occupants : g.occupants =
    (if p.mouthU = true then [{ direction := .inbound, stage := .mouth, credit := none }] else [])
      ++ (if p.mouthP = true then [{ direction := .outbound, stage := .mouth, credit := none }] else [])
  holdOpen : g.holdOpen = false
  latches : g.latches = .clear ∧ g.sounder = none
  latest : g.lastAlarm = none ∧ g.lastFault = none
  gateReset : g.gateReset = none
  leaf : g.leaf =
    (if p.closedSwitch = true then if line = true then .opening else .closed
    else if p.openSwitch = true then
      if line = true then .heldOpen else if p.leaf = true then .opened else .closing
    else if line = true then .opening else .closing)
  travel : g.travel = (if g.leaf = .opening ∨ g.leaf = .closing then some (clock + 1500) else none)

/-- The Aisle Link Controller has lost its place in the ring: no token, turn count 0, pointer at the address, every row
blank, nothing being sent, no DEASSERT due (R116). -/
structure LinkAtRest (l : Link) (addr : Nat) : Prop where
  address : l.addr = addr
  state : l.state = (if addr = 0 then .offline .noAddress else .listening)
  token : l.token = .waiting ∧ l.turn = 0
  pointer : l.pointer = (if addr = 0 then 1 else addr)
  rows : ∀ r ∈ l.rows, r = MemberRow.blank
  tx : l.tx = none ∧ l.due = false ∧ ∀ q ∈ l.queue, q.inTx = false
  deassert : l.deassertPending = false
  syncs : l.syncs = []

/-- The line speed of two straps, in hundreds of baud (R177). -/
def speedOf (p : Pins) : Nat :=
  if p.strap1 = p.strap2 then 1152 else if p.strap1 = true then 4608 else 9216

/-! ## Card memory (R193) -/

/-- Zones on a card are 1 to 16 (R2). -/
def Zones.inRange (z : Zones) : Prop :=
  1 ≤ z.first ∧ z.first ≤ 16 ∧ ∀ n, z.second = some n → 1 ≤ n ∧ n ≤ 16

/-- Every field of an image within the range of R2. -/
def Image.inRange (i : Image) : Prop :=
  i.txc ≤ 65535 ∧ -50000 ≤ i.balance ∧ i.balance ≤ 500000 ∧ 1 ≤ i.entryStation ∧ i.entryStation ≤ 4095
    ∧ i.entryZones.inRange ∧ i.entryTime ≤ Config.maxTime ∧ i.originZones.inRange ∧ i.chainStart ≤ Config.maxTime
    ∧ i.chainPaid ≤ 65535 ∧ i.chainLegs ≤ 4
    ∧ (∀ e, i.lastExit = some e → 1 ≤ e.station ∧ e.station ≤ 4095 ∧ e.time ≤ Config.maxTime) ∧ i.capDay ≤ 65535
    ∧ i.spent ≤ 65535 ∧ 1 ≤ i.scheme ∧ i.scheme ≤ 4

/-- The command that a queued frame from an address is to the other gates of the line (R100). -/
def LinkMsg.command (src : Byte) : LinkMsg → Instr
  | .sighting card r w =>
    .linkSighting src card (BitVec.ofNat 16 r.txc) r.stamp (BitVec.ofNat 16 w.txc) w.stamp
  | .lapse card i side =>
    .linkLapse src card (BitVec.ofNat 16 i.txc) i.stamp (match side with
      | .U => 1
      | .P => 2)
  | .regrant card i => .linkRegrant src card (BitVec.ofNat 16 i.txc) i.stamp
  | .denyAdd card => .linkDenyAdd src card

/-- The images that a queued frame carries have a txc of 16 bits (R2). -/
def LinkMsg.inRange : LinkMsg → Prop
  | .sighting _ r w => r.txc ≤ 65535 ∧ w.txc ≤ 65535
  | .lapse _ i _ => i.txc ≤ 65535
  | .regrant _ i => i.txc ≤ 65535
  | .denyAdd _ => True

/-! ## Fares (R52, R54, R55) -/

/-- A base fare is the smallest entry over some origin and exit zones (R54). -/
def Service.smallestFare (v : Service) (origins exits : List Nat) (base : Nat) : Prop :=
  (∃ i ∈ origins, ∃ e ∈ exits, base = v.fare i e) ∧ ∀ i ∈ origins, ∀ e ∈ exits, base ≤ v.fare i e

/-- A base fare is the missing-entry base: the largest, over the zones of the network, of the smallest entry from the
zone to the exit zones (R55). -/
def Service.dearestOrigin (v : Service) (exits : List Nat) (base : Nat) : Prop :=
  (∀ z, 1 ≤ z → z ≤ v.zoneCount.getD 0 → ∃ e ∈ exits, v.fare z e ≤ base) ∧
    ∃ z, 1 ≤ z ∧ z ≤ v.zoneCount.getD 0 ∧ v.smallestFare [z] exits base

/-- The base of an EXIT (R51, R54, R55). -/
def Service.exitBase (v : Service) (origins exits : List Nat) (base : Nat) : Prop :=
  if ∃ i ∈ origins, i ≤ v.zoneCount.getD 0 then
    v.smallestFare (origins.filter fun i => decide (i ≤ v.zoneCount.getD 0)) exits base
  else v.dearestOrigin exits base

/-- A multiplier is that of the band in force at a time: the last of the set chosen by the day of week of the service
day whose start minute is at most the minute of day (R52). -/
def Service.bandRate (v : Service) (tb : TimeBase) (t rate : Nat) : Prop :=
  ∃ bands before b after,
    (if v.params.weekend.flags (dayOfWeek (tb.serviceDay t)) = true then v.weekendSet else v.weekday) = some bands ∧
      bands = before ++ b :: after ∧ b.start ≤ tb.minuteOfDay t ∧ (∀ x ∈ after, tb.minuteOfDay t < x.start) ∧
      b.multiplier = rate

/-- What a pricing returns for a journey fare J, the amount P the chain has paid and the spent value T (R59 to R62). -/
def priced (tb : TimeBase) (cls : ClassRec) (img : Image) (tx j p t : Nat) : Option Priced :=
  let l := j - p
  let x := if cls.cap = 0 then l else min l (cls.cap - t)
  if img.balance - (x : Int) < -(cls.overdraft : Int) then none
  else
    some
      { charge := x, balance := img.balance - (x : Int), paid := min 65535 (p + x), spent := min 65535 (t + x),
        capDay := tb.serviceDay tx }

/-! ## The journal and the aging of the sighting table -/

/-- What an examination leaves of the sighting table: lapse marks past their deadline removed, COMMITTED entries
without a mark past the sighting lifetime and IN_DOUBT entries past theirs taken away (R78). -/
def State.agedSightings (s : State) : List Sighting :=
  (s.screening.sightings.map (Sighting.unlapse s.time.now)).filter fun e => !s.outlived e && !s.overdue e

/-- The records an examination makes, in the table's order (R77, R78). -/
def State.agedRecords (s : State) : List RecBody := (s.screening.sightings.filter s.overdue).flatMap Sighting.abandonRecord

/-! ## Invariants -/

/-- Journal serials increase by exactly one from each record to the next, up to the next serial, and start at 1 or
later (R152). -/
def Journal.serialsOk (j : Journal) : Prop :=
  j.records.map Record.serial = List.range' (j.nextSerial - j.records.length) j.records.length
    ∧ j.records.length < j.nextSerial

/-- The bounds the journal levels keep (R153, R174). -/
def Params.levelsOk (p : Params) : Prop :=
  1 ≤ p.noticeLevel ∧ p.noticeLevel ≤ p.haltLevel ∧ 256 ≤ p.haltLevel ∧ p.haltLevel ≤ 1920
    ∧ p.resumeLevel < p.haltLevel

/-- While the journal is not halted its count is at most one below the halt level (R159). -/
def State.haltOk (s : State) : Prop :=
  s.service.params.levelsOk
    ∧ (s.journal.halted = false → s.journal.records.length < s.service.params.haltLevel)

/-- The line emergency state is what it is judged to be (R145). -/
def State.lineOk (s : State) : Prop := s.emergency.line = s.lineJudged

/-- The deny list: ascending by card number, so without duplicates; the local count and the list within their
capacities (R72, R75). -/
def Screening.denyOk (c : Screening) : Prop :=
  c.deny.Pairwise (fun a b => a.card.toNat < b.card.toNat) ∧ c.localCount ≤ Config.localCap
    ∧ c.deny.length ≤ Config.denyCap

/-- The sighting table never holds two entries with the same card number (R75). -/
def Screening.sightOk (c : Screening) : Prop := (c.sightings.map Sighting.card).Nodup

/-- The outbound queue holds up to 64 frames, one of them at most in transmission (R97, R112). -/
def Link.queueOk (l : Link) : Prop :=
  l.queue.length ≤ Config.queueCap ∧ l.queue.countP QItem.inTx ≤ (if l.tx = some .data then 1 else 0)

/-- The occupant list holds up to 3 occupants (R124). -/
def Passage.occupantsOk (g : Passage) : Prop := g.occupants.length ≤ 3

/-- The pending set holds at most one notice of each kind, and the count of findings is held at 65,535 (R186, R188). -/
def HostLink.noticesOk (h : HostLink) : Prop := h.notices.Nodup ∧ h.findings ≤ 65535

/-- Tags in the window are not 0 and differ from one another (R179). -/
def HostLink.windowOk (h : HostLink) : Prop := h.window.Nodup ∧ 0 ∉ h.window

/-- The counter holds a 32-bit value (R64). -/
def TimeBase.nowOk (tb : TimeBase) : Prop := tb.now ≤ Config.maxTime

/-- A good state of the part: every invariant above, and a row for each line address (R102). -/
structure Good (s : State) : Prop where
  serials : s.journal.serialsOk
  halt : s.haltOk
  line : s.lineOk
  deny : s.screening.denyOk
  sight : s.screening.sightOk
  queue : s.link.queueOk
  rows : s.link.rows.length = 16
  occupants : s.passage.occupantsOk
  notices : s.host.noticesOk
  window : s.host.windowOk
  now : s.time.nowOk

/-- The request in flight at a port is one that its state makes (R7, R13, R16, R17, R20). -/
def Port.asksByState (p : Port) : Prop :=
  ∀ x, p.exchange = some x →
    match x.request with
    | .summon => p.state = .idle ∨ p.state = .waitAisle ∨ p.state = .done
    | .fetch _ => p.state = .reading ∨ p.state = .confirming
    | .store _ _ => p.state = .writing

/-- A tap with a purse write or a blocking write under way (R16 to R20). -/
def Port.writes (p : Port) : Prop := p.state = .writing ∨ p.state = .confirming

/-- The REVENUE records that a port's tap may still bring about: two, or one once its verdict is fixed (R159). -/
def Port.owes (p : Port) : Nat := p.ctx.elim 0 fun c => if c.verdict.isSome then 1 else 2

/-- A sound state of the part: how contexts, claim, credits, occupants and sighting entries fit together, and the bounds
that follow from it. -/
structure Sound (s : State) : Prop where
  /-- The sighting table is within its capacity, 1,024 entries, of which 64 at most are IN_DOUBT (R76, R87). -/
  sightings : s.screening.sightings.length ≤ 1024 ∧ s.screening.counts.inDoubt ≤ 64
  /-- A PENDING_LOCAL entry is held by the one context of its port, which has that card and is about to write (R75,
  R84). -/
  pending : ∀ e ∈ s.screening.sightings, ∀ p, e.state = .pendingLocal p →
    (s.port p.side).writes ∧ ∃ c, (s.port p.side).ctx = some c ∧ c.card = some e.card ∧ c.verdict = none
  /-- Ports ask what their state asks (R7 to R20). -/
  requests : ∀ side, (s.port side).asksByState
  /-- A verdict is fixed before a blocking write only; that of a committed clone once the slot has been freed (R17, R20,
  R120). -/
  verdicts : ∀ side c, (s.port side).ctx = some c → c.verdict ≠ none →
    (s.port side).writes ∧ (c.verdict = some .committedClone → c.slot = none)
  /-- Waiting requests are those of ports in WAIT_AISLE (R12, R117). -/
  waits : ∀ side, s.passage.claim.waits side = true →
    (s.port side).state = .waitAisle ∧ ∃ c, (s.port side).ctx = some c ∧ c.slot = none
  /-- A slot that a context holds is its own in the claim, in the claim's direction (R117). -/
  slots : ∀ side c k, (s.port side).ctx = some c → c.slot = some k →
    s.passage.claim.slot k = some (.context side) ∧ s.passage.claim.direction = some (dirOf side)
  /-- Each slot that is held names its holder: the context that has it, or a credit of the list (R117, R120). -/
  holders : ∀ k, (∀ side, s.passage.claim.slot k = some (.context side) →
      ∃ c, (s.port side).ctx = some c ∧ c.slot = some k) ∧
    (s.passage.claim.slot k = some .credit → ∃ c ∈ s.passage.credits, c.slot = k)
  /-- The claim has no direction once both slots are free and no occupant stands (R117). -/
  free : s.passage.claim.slot1 = none → s.passage.claim.slot2 = none → s.passage.occupants = [] →
    s.passage.claim.direction = none
  /-- At most 2 credits, each on a slot of its own, all in the claim's direction (R121). -/
  credits : s.passage.credits.length ≤ 2 ∧ (s.passage.credits.map Credit.slot).Nodup ∧
    ∀ c ∈ s.passage.credits,
      s.passage.claim.slot c.slot = some .credit ∧ s.passage.claim.direction = some c.direction
  /-- Each occupant's credit is an ASSIGNED one of its own (R121, R127). -/
  occupants : (s.passage.occupants.filterMap Occupant.credit).Nodup ∧
    ∀ o ∈ s.passage.occupants, ∀ k, o.credit = some k →
      ∃ c ∈ s.passage.credits, c.slot = k ∧ c.state = .assigned
  /-- No credit stands in leaf FAULT (R121, R123). -/
  fault : s.passage.leaf = .fault → s.passage.credits = []
  /-- The leaves stand as the command asks (R133, R134). -/
  leaves : s.leavesSettled
  /-- One scheme slot at most is CURRENT, and one is while taps are taken (R4, R165, R175). -/
  schemes : (∀ m n, 1 ≤ m → m ≤ 4 → 1 ≤ n → n ≤ 4 → s.service.schemes.get m = .current →
      s.service.schemes.get n = .current → m = n) ∧
    (s.service.state = .inService ∨ s.service.state = .suspending →
      ∃ k, 1 ≤ k ∧ k ≤ 4 ∧ s.service.schemes.get k = .current)
  /-- A turn has at most four frames, and a holder that waits to send sends nothing yet (R103, R104). -/
  turn : s.link.sent ≤ 4 ∧ (s.link.due = true → s.link.tx = none ∧ s.link.token = .sending) ∧
    ∀ x, s.link.tx = some x → x = .data ∨ (∃ assert, x = .emergency assert) →
      s.link.sent < 4 ∧ s.link.token = .sending
  /-- Tap contexts stand only while taps are taken or drained (R164, R167). -/
  contexts : ∀ side, (s.port side).ctx ≠ none → s.service.state = .inService ∨ s.service.state = .suspending
  /-- A drain under way waits for a tap (R167). -/
  drain : s.service.state = .suspending → ∃ side, (s.port side).ctx ≠ none
  /-- The journal never holds more than 2,048 records; in a halt its count, with what may still come, stays within 1,990
  (R156, R159). -/
  journal : s.journal.records.length ≤ 2048 ∧
    (s.journal.halted = true →
      s.journal.records.length + s.screening.counts.inDoubt + s.portU.owes + s.portP.owes ≤ 1990)

/-- The tables a tap is decided against: zone matrix, band sets, class table, station settings, parameters (R169). -/
structure Tables where
  zoneCount : Option Nat
  rows : List (Nat × List Nat)
  weekday : Option (List Band)
  weekendSet : Option (List Band)
  classes : ClassTable
  station : Option Station
  params : Params
  deriving DecidableEq, Repr

/-- The tables that the Service Controller holds. -/
def Service.tables (v : Service) : Tables :=
  { zoneCount := v.zoneCount, rows := v.rows, weekday := v.weekday, weekendSet := v.weekendSet, classes := v.classes,
    station := v.station, params := v.params }

end Sys2Proof.Machine
end

