-- ==== Sys2Proof/Certificates/Slice0/Obligations.lean ====
section
/-! DEFINITION. The statements about the part, in the order of the manual's chapters: the queue and every command, the
host link, time, service control, the tables, the journal, the passage, the emergency, the readers, screening, the
aisle link, fares, formats, and the invariants. `Answered`, `OnlyAnswered`, `Replied`, `Silent`, `Loaded`, `Good` and
`Sound` are terms of Safety. -/

open Sys2Proof Sys2Proof.Machine

/-! ## The queue and every command -/

/-- A step runs the command at the front of the queue on the state with the queue's rest; with no command waiting it
advances the interval clock by one millisecond, and a link frame that is to be sent begins to go out, with drive-enable
asserted (R97); what a holder that waits to send sends is said by TurnsBegin. Queue and clock are the model's own (log
1), and so is that a frame begins at that moment (log 19). -/
def Obligations.StepRunsTheFrontCommand : Prop :=
  (∀ (s : State) (c : Instr) (rest : List Instr), s.pending = c :: rest → step s = exec c { s with pending := rest }) ∧
    ∀ s : State, s.pending = [] →
      ∃ t, step s = .next t ∧ t.driveEnable = t.link.tx.isSome ∧
        t = { s with clock := s.clock + 1, link := t.link } ∧
        (s.link.due = false → t.link = { s.link with txBegun := s.link.tx.isSome })

/-- Every command ends in a next state, with the queue and the interval clock as they were. -/
def Obligations.EveryCommandCompletes : Prop :=
  ∀ (c : Instr) (s : State), ∃ t, exec c s = .next t ∧ t.pending = s.pending ∧ t.clock = s.clock

/-! ## The host link (R178 to R185) -/

/-- A request with tag 0 or an outstanding tag, and one that meets a full window, is refused outside the window, by the
one link refusal there is room for, or discarded; after a RESET is taken every request is discarded (R179, R184). A
request admitted to the window whose kind is outside the catalogue is answered UNKNOWN_KIND, one whose body does not
fit its kind's form BAD_LENGTH; neither changes anything else (R179 checks 3 and 4, R191; the lengths of
SET_ZONE_COUNT, JOURNAL_PEEK, SET_CLASS and SET_PARAMETERS are the model's reading, log 25). -/
def Obligations.RequestsTurnedAwayOrIllFormedChangeNothing : Prop :=
  (∀ (s : State) (i : Instr) (tag : Byte) (kind : ReqKind) (body : List Byte), requestIn i = some (tag, kind, body) →
    (s.host.resetTaken = true ∨ tag = 0 ∨ tag ∈ s.host.window ∨ (kind ≠ .reset ∧ 4 ≤ s.host.window.length)) →
    ∃ t, exec i s = .next t ∧ t = { s with host := t.host } ∧ t.host.window = s.host.window ∧
      t.formed = s.formed ++
        (if s.host.resetTaken = true ∨ s.formed.any Reply.linkRefusal = true then []
        else
          [{ tag := tag, kind := kind, linkRefusal := true,
             body := .refused (if tag = 0 ∨ tag ∈ s.host.window then .tagInUse else .busy) }])) ∧
    (∀ (s : State) (tag kind : Byte), (kind = 0 ∨ 30 < kind.toNat) → s.admits tag (.unknown kind) →
      ∃ t, exec (.unknownKind tag kind) s = .next t ∧ OnlyAnswered s t tag (.unknown kind) (.refused .unknownKind)) ∧
    ∀ (s : State) (i : Instr) (tag : Byte) (kind : ReqKind) (body : List Byte), requestIn i = some (tag, kind, body) →
      s.admits tag kind → kind.fits body = false →
      ∃ t, exec i s = .next t ∧ OnlyAnswered s t tag kind (.refused .badLength)

/-- IDENTIFY, STATUS, DENY_QUERY, SIGHTING_QUERY and JOURNAL_PEEK are answered from the state of the blocks at the
moment they are taken, in every state, and change nothing but the host link; a STATUS leaves the pending notices; a
peek returns the oldest records and the counters (R95, R160, R183; that its k travels in two bytes is the model's
reading, log 25). -/
def Obligations.RequestsThatOnlyReadChangeNothing : Prop :=
  ∀ (s : State) (tag : Byte) (card : CardNo),
    (s.admits tag .identify →
      ∃ t, exec (.identify tag []) s = .next t ∧
        OnlyAnswered s t tag .identify (.identify s.host.speed s.service.schemes)) ∧
    (s.admits tag .status →
      ∃ t, exec (.status tag []) s = .next t ∧
        OnlyAnswered s t tag .status (.status { s.statusBody with outstanding := s.host.window.length + 1 })) ∧
    (s.admits tag .denyQuery →
      ∃ t, exec (.denyQuery tag (be 4 card.toNat)) s = .next t ∧
        OnlyAnswered s t tag .denyQuery
          (match s.screening.denied card with
            | some e =>
              .denyEntry e.origin e.action e.added s.screening.deny.length
                (s.screening.deny.countP fun x => x.origin != .central)
            | none => .refused .notFound)) ∧
    (s.admits tag .sightingQuery →
      ∃ t, exec (.sightingQuery tag (be 4 card.toNat)) s = .next t ∧
        OnlyAnswered s t tag .sightingQuery
          (match s.screening.sighted card with
            | some e => .sighting e.shown e.holdsUpdate s.screening.counts
            | none => .refused .notFound)) ∧
    ∀ k, k < 65536 → s.admits tag .journalPeek →
      ∃ t, exec (.journalPeek tag (be 2 k)) s = .next t ∧
        OnlyAnswered s t tag .journalPeek
          (if 1 ≤ k ∧ k ≤ 8 then
            .peeked
              { count := s.journal.records.length, oldest := s.journal.records.head?.map Record.serial,
                next := s.journal.nextSerial, halted := s.journal.halted }
              (s.journal.records.take k)
          else .range 1)

/-- A RESET is taken whatever the window holds; its OK reply is formed, no further reply is, and nothing else of the
part changes (R184). -/
def Obligations.ResetRequestIsTaken : Prop :=
  ∀ (s : State) (tag : Byte), s.admits tag .reset →
    ∃ t, exec (.reset tag []) s = .next t ∧ t = { s with host := t.host } ∧
      t.host.window = s.host.window ++ [tag] ∧ t.host.resetTaken = true ∧
      t.formed = s.formed ++ [Reply.inWindow tag .reset .ok] ∧ t.host.notices = s.host.notices ∧
      (s.host.tx.isSome = true → t.host.tx = s.host.tx) ∧ t.host.speed = s.host.speed ∧ t.host.rxInFrame = false ∧
      t.host.tapU = s.host.tapU ∧ t.host.tapP = s.host.tapP ∧ t.host.finding = s.host.finding ∧
      t.host.findings = s.host.findings

/-- The two ends of the host line: a frame cut by silence, by a wrong CRC or by a framing error is discarded, with no
reply, no place in the window and no record, and the receiver hunts (R178). When the last byte of a frame has been
sent, the transmitter is free: a notice is over, a link refusal leaves the window alone, a reply takes its request out
of the window, and the transmitter begins the next frame, the reply formed first or else the pending notice of highest
priority, of two of one priority the one raised first; with no frame being sent nothing else happens (R180, R185,
R186). After the OK reply of a RESET the warm reset follows (R184; within the same step, the model's reading, log 7).
That the transmitter chooses at the end of a command is the model's choice (log 8). -/
def Obligations.HostFramesDiscardedAndSent : Prop :=
  ∀ s : State,
    (∀ c : Instr, c = .hostRxIdleTimeout ∨ c = .hostFrameBadCrc ∨ c = .hostFramingError →
      ∃ t, exec c s = .next t ∧ Transmits s t { s.host with rxInFrame := false } ∧ t.host.rxInFrame = false ∧
        t.host.window = s.host.window ∧ t.formed = s.formed ∧ ∀ k, t.tells k = s.tells k) ∧
    (s.host.tx = none → ∃ t, exec .hostFrameSent s = .next t ∧ Told s t [] ∧ Transmits s t s.host) ∧
    (∀ b, s.host.tx = some (.notice b) →
      ∃ t, exec .hostFrameSent s = .next t ∧ Transmits s t { s.host with tx := none } ∧
        t.host.window = s.host.window ∧ t.formed = s.host.replies ∧ ∀ k, t.tells k = s.host.notices.contains k) ∧
    ∀ r, s.host.tx = some (.reply r) →
      (r.linkRefusal = true →
        ∃ t, exec .hostFrameSent s = .next t ∧ Transmits s t { s.host with tx := none } ∧
          t.host.window = s.host.window ∧ t.formed = s.host.replies) ∧
      (r.linkRefusal = false → ¬(r.kind = .reset ∧ r.body = .ok) →
        ∃ t, exec .hostFrameSent s = .next t ∧
          Transmits s t { s.host with tx := none, window := s.host.window.erase r.tag } ∧
          t.host.window = s.host.window.erase r.tag ∧ t.formed = s.host.replies) ∧
      (r.linkRefusal = false → r.kind = .reset → r.body = .ok →
        exec .hostFrameSent s =
            exec (.warmReset s.pins.fire)
              { s with host := { s.host with tx := none, window := s.host.window.erase r.tag } } ∧
          ∃ t, exec .hostFrameSent s = .next t ∧ t.host.window = [] ∧ t.formed = [] ∧ t.host.resetTaken = false ∧
            t.service.state = (if s.missing.any then .outOfService else .suspended) ∧ t.portU.ctx = none ∧
            t.portP.ctx = none)

/-- The transmitter, whatever the command: a frame being sent goes on; when the transmitter is free the reply formed
first is begun; with no reply waiting the pending notice of highest priority, of two of one priority the one raised
first, is begun and leaves the set (R185, R186), and a CLONE_DETECTED begun sets the count of findings to 0 (R188); the
rest of the host link stays. Stated where the command itself leaves the host link alone. That the choice is made at the
end of a command is the model's choice (log 8). -/
def Obligations.TransmitterChoosesRepliesThenNotices : Prop :=
  ∀ (s : State) (strap1 strap2 : Bool),
    ∃ t, exec (.speedStrapChange strap1 strap2) s = .next t ∧
      Transmits { s with pins := { s.pins with strap1 := strap1, strap2 := strap2 } } t s.host

/-! ## Time (R64 to R66, R78) -/

/-- GET_TIME replies in every state with one snapshot of the Time Base (R66). -/
def Obligations.GetTimeRepliesOneSnapshot : Prop :=
  ∀ (s : State) (tag : Byte), s.admits tag .getTime →
    ∃ t, exec (.getTime tag []) s = .next t ∧
      OnlyAnswered s t tag .getTime
        (.time
          { now := s.time.now, set := s.time.set, offset := s.time.offset, boundary := s.time.boundary,
            serviceDay := s.time.serviceDay s.time.now,
            dayOfWeek := (s.time.serviceDay s.time.now + 5) % 7,
            minuteOfDay := s.time.minuteOfDay s.time.now })

/-- SET_TIME loads any value, four bytes (R190), makes the time SET, ages the sighting table against the new value, and
replies with the old and the new value (R65, R78; the order of several records is the model's choice, log 16). -/
def Obligations.SetTimeLoadsTheCounterAndAges : Prop :=
  ∀ (s : State) (tag : Byte) (n : Nat), n < 4294967296 → s.screening.sightOk → s.admits tag .setTime →
    ∃ t, exec (.setTime tag (be 4 n)) s = .next t ∧ t.time = { s.time with now := n, set := true } ∧
      Answered s t tag .setTime (.setTime s.time.now n) ∧
      t = { s with time := t.time, screening := t.screening, journal := t.journal, host := t.host } ∧
      t.screening = { s.screening with sightings := ({ s with time := t.time } : State).agedSightings } ∧
      s.journal.grownBy t.journal n ({ s with time := t.time } : State).agedRecords

/-- The counter advances by one at each second, and the table is aged; at its maximum the counter is held and nothing
else happens (R64, R78; that nothing is examined at the maximum, and the order of several records, are the model's
choices, log 18 and 16). -/
def Obligations.SecondTickAdvancesAndAges : Prop :=
  ∀ s : State,
    (s.screening.sightOk → s.time.now < 4294967295 →
      ∃ t, exec .secondTick s = .next t ∧ t.time = { s.time with now := s.time.now + 1 } ∧ Silent s t ∧
        t = { s with time := t.time, screening := t.screening, journal := t.journal, host := t.host } ∧
        t.screening = { s.screening with sightings := ({ s with time := t.time } : State).agedSightings } ∧
        s.journal.grownBy t.journal (s.time.now + 1) ({ s with time := t.time } : State).agedRecords) ∧
    (4294967295 ≤ s.time.now →
      ∃ t, exec .secondTick s = .next t ∧ Told s t [] ∧ t = { s with host := t.host })

/-- The three parts of an examination for one card: an expired lapse mark goes, an outlived COMMITTED entry goes, an
overdue IN_DOUBT entry is resolved ABANDONED with its record and goes (R77, R78). -/
def Obligations.AgingActsOnEachEntryByItsState : Prop :=
  ∀ (s : State) (card : CardNo) (e : Sighting), s.screening.sighted card = some e →
    (∀ st m, e.state = .committed st → st.lapse = some m → m.deadline < s.time.now →
      ∃ t, exec (.lapseMarkExpiry card) s = .next t ∧ Told s t [] ∧
        t = { s with screening := t.screening, host := t.host } ∧
        t.screening =
          { s.screening with
            sightings :=
              s.screening.sightings.map fun x =>
                if x.card = card then { e with state := .committed { st with lapse := none } } else x }) ∧
    (∀ p st m, e.state = .pendingLocal p → p.prior = some st → st.lapse = some m → m.deadline < s.time.now →
      ∃ t, exec (.lapseMarkExpiry card) s = .next t ∧ Told s t [] ∧
        t = { s with screening := t.screening, host := t.host } ∧
        t.screening =
          { s.screening with
            sightings :=
              s.screening.sightings.map fun x =>
                if x.card = card then
                  { e with state := .pendingLocal { p with prior := some { st with lapse := none } } }
                else x }) ∧
    (∀ st, e.state = .committed st → st.lapse = none → s.service.params.sightingLifetime < s.time.now - e.updated →
      ∃ t, exec (.sightingLifetimeExpiry card) s = .next t ∧ Told s t [] ∧
        t = { s with screening := t.screening, host := t.host } ∧
        t.screening = { s.screening with sightings := s.screening.sightings.filter fun x => x.card != card }) ∧
    (∀ stored serial, e.state = .inDoubt stored serial →
      s.service.params.inDoubtLifetime < s.time.now - e.updated →
      ∃ t, exec (.inDoubtLifetimeExpiry card) s = .next t ∧ Silent s t ∧
        t = { s with screening := t.screening, journal := t.journal, host := t.host } ∧
        t.screening = { s.screening with sightings := s.screening.sightings.filter fun x => x.card != card } ∧
        s.journal.grownBy t.journal s.time.now
          [{ kind := .resolved, card := some card, related := some serial, outcome := some .abandoned,
             txc := some stored.txc }])


/-! ## Service control, tables and parameters (R164 to R176) -/

/-- SUSPEND by service state (R167): at once with both ports idle, else withheld until the drain completes; the drain
answers every outstanding SUSPEND in the order of arrival. Whatever command ends the last tap in SUSPENDING completes
the drain: SUSPENDED with its notice, and these replies among those that the command forms. That each reply gives the
service state, and that the row DRAIN_COMPLETE judges the drain again, is the model's reading (log 27, 6). -/
def Obligations.SuspendWaitsForTheDrain : Prop :=
  (∀ (c : Instr) (s t : State), exec c s = .next t → (∀ p, c ≠ .powerOn p) → (∀ fire, c ≠ .warmReset fire) →
    c ≠ .hostFrameSent → s.service.state = .suspending → s.portU.ctx ≠ none ∨ s.portP.ctx ≠ none →
    t.portU.ctx = none → t.portP.ctx = none →
    t.service = { s.service with state := .suspended, suspends := [] } ∧ t.tells .serviceState = true ∧
      (s.host.resetTaken = false → ∃ before after,
        t.formed =
            s.formed ++ before ++ s.service.suspends.map (fun a => Reply.inWindow a .suspend (.serviceState .suspended))
              ++ after ∧
          ∀ r ∈ before ++ after, r.kind ≠ .suspend)) ∧
  ∀ s : State,
    (∀ tag, s.admits tag .suspend →
      (s.service.state = .inService → s.portU.ctx = none ∧ s.portP.ctx = none →
        ∃ t, exec (.suspend tag []) s = .next t ∧ Answered s t tag .suspend (.serviceState .suspended) ∧
          t = { s with portU := t.portU, portP := t.portP, service := t.service, host := t.host } ∧
          t.service = { s.service with state := .suspended } ∧ (∀ k, t.tells k = (s.tells k || k == .serviceState)) ∧
          ∀ d, t.port d =
            if (s.port d).state = .idle ∨ (s.port d).state = .done then
              { s.port d with state := .disabled, exchange := none }
            else s.port d) ∧
      (s.service.state = .inService → ¬(s.portU.ctx = none ∧ s.portP.ctx = none) →
        ∃ t, exec (.suspend tag []) s = .next t ∧ Withheld s t tag [.serviceState] ∧
          t = { s with portU := t.portU, portP := t.portP, service := t.service, host := t.host } ∧
          t.service = { s.service with state := .suspending, suspends := s.service.suspends ++ [tag] } ∧
          ∀ d, t.port d =
            if (s.port d).state = .idle ∨ (s.port d).state = .done then
              { s.port d with state := .disabled, exchange := none }
            else s.port d) ∧
      (s.service.state = .suspending →
        ∃ t, exec (.suspend tag []) s = .next t ∧ Withheld s t tag [] ∧
          t = { s with service := t.service, host := t.host } ∧
          t.service = { s.service with suspends := s.service.suspends ++ [tag] }) ∧
      (s.service.state = .suspended ∨ s.service.state = .outOfService →
        ∃ t, exec (.suspend tag []) s = .next t ∧ OnlyAnswered s t tag .suspend (.serviceState s.service.state))) ∧
    (s.service.state = .suspending → s.portU.ctx = none ∧ s.portP.ctx = none → s.host.resetTaken = false →
      ∃ t, exec .drainComplete s = .next t ∧ t = { s with service := t.service, host := t.host } ∧
        t.service = { s.service with state := .suspended, suspends := [] } ∧
        t.formed =
          s.formed ++ s.service.suspends.map (fun a => Reply.inWindow a .suspend (.serviceState .suspended)) ∧
        t.host.window = s.host.window ∧ ∀ k, t.tells k = (s.tells k || k == .serviceState)) ∧
    (s.service.state ≠ .suspending ∨ s.portU.ctx ≠ none ∨ s.portP.ctx ≠ none →
      ∃ t, exec .drainComplete s = .next t ∧ Told s t [] ∧ t = { s with host := t.host })

/-- RESUME by service state (R166, R168): from OUT_OF_SERVICE and SUSPENDED only with every item ready; from SUSPENDING
at once, every outstanding SUSPEND refused CANCELLED. Each DISABLED port that the aisle mode leaves open enters DONE.
That the reply from SUSPENDING gives the service state, and comes before the CANCELLED ones, is the model's choice (log
27 and 48). -/
def Obligations.ResumeAsksForEveryItem : Prop :=
  ∀ (s : State) (tag : Byte), s.admits tag .resume →
    (s.service.state = .outOfService ∨ s.service.state = .suspended → s.missing.any = true →
      ∃ t, exec (.resume tag []) s = .next t ∧ OnlyAnswered s t tag .resume (.notReady s.missing)) ∧
    (s.service.state = .inService →
      ∃ t, exec (.resume tag []) s = .next t ∧ OnlyAnswered s t tag .resume (.serviceState .inService)) ∧
    (((s.service.state = .outOfService ∨ s.service.state = .suspended) ∧ s.missing.any = false) ∨
        s.service.state = .suspending →
      ∃ t, exec (.resume tag []) s = .next t ∧
        t = { s with portU := t.portU, portP := t.portP, service := t.service, host := t.host } ∧
        t.service =
          { s.service with
            state := .inService,
            suspends := if s.service.state = .suspending then [] else s.service.suspends } ∧
        (∀ d, t.port d =
          if (s.port d).state = .disabled ∧ ∀ st, s.service.station = some st → st.mode.disables d = false then
            { s.port d with state := .done }
          else s.port d) ∧
        t.host.window = s.host.window ++ [tag] ∧
        t.formed =
          s.formed ++ [Reply.inWindow tag .resume (.serviceState .inService)]
            ++ (if s.service.state = .suspending then
                s.service.suspends.map (fun a => Reply.inWindow a .suspend (.refused .cancelled))
              else []) ∧
        ∀ k, t.tells k = (s.tells k || k == .serviceState))

/-- A load is refused NOT_SUSPENDED in IN_SERVICE and SUSPENDING, and RANGE with the position of the first offending
field where a value lies outside its range or breaks a condition; a refused load changes nothing (R164, R169 to R174,
R190, R191; the position where a condition is about two fields, and two body lengths, are the model's reading, log 26
and 25). -/
def Obligations.RefusedLoadsChangeNothing : Prop :=
  (∀ (s : State) (i : Instr) (tag : Byte) (kind : ReqKind) (body : List Byte), requestIn i = some (tag, kind, body) →
    kind.isLoad = true → kind.fits body = true → s.admits tag kind →
    s.service.state = .inService ∨ s.service.state = .suspending →
    ∃ t, exec i s = .next t ∧ OnlyAnswered s t tag kind (.refused .notSuspended)) ∧
    ∀ (s : State) (tag : Byte), s.service.state = .outOfService ∨ s.service.state = .suspended →
      (∀ n, n < 65536 → ¬(1 ≤ n ∧ n ≤ 16) → s.admits tag .setZoneCount →
        ∃ t, exec (.setZoneCount tag (be 2 n)) s = .next t ∧ OnlyAnswered s t tag .setZoneCount (.range 1)) ∧
      (∀ (number first second mode addr boundary n : Nat) (offset : Int), number < 65536 → first < 256 → second < 256 →
        mode < 256 → addr < 256 → -32768 ≤ offset → offset < 32768 → boundary < 65536 →
        FirstOffends
          [1 ≤ number ∧ number ≤ 4095, 1 ≤ first ∧ first ≤ 16, second = 0 ∨ (second ≤ 16 ∧ second ≠ first),
            1 ≤ mode ∧ mode ≤ 3, addr ≤ 16, -720 ≤ offset ∧ offset ≤ 840, boundary ≤ 1439]
          n →
        s.admits tag .setStation →
        ∃ t, exec
            (.setStation tag
              (be 2 number ++ be 1 first ++ be 1 second ++ be 1 mode ++ be 1 addr ++ signedBe 2 offset
                ++ be 2 boundary)) s =
              .next t ∧
          OnlyAnswered s t tag .setStation (.range n)) ∧
      (∀ (p : Params) (mask n : Nat), (∀ v ∈ p.values, v < 65536) → mask < 256 →
        FirstOffends (p.conditions mask) n → s.admits tag .setParameters →
        ∃ t, exec (.setParameters tag (p.values.flatMap (be 2) ++ be 1 mask)) s = .next t ∧
          OnlyAnswered s t tag .setParameters (.range n)) ∧
      (∀ (k flag : Nat) (r : ClassRec), k < 256 → flag < 256 → r.discount < 65536 → r.overdraft < 65536 →
        r.entryMin < 65536 → r.cap < 65536 → ¬(k ≤ 7 ∧ flag ≤ 1 ∧ r.inRange) → s.admits tag .setClass →
        ∃ t, exec
            (.setClass tag
              (be 1 k ++ be 1 flag ++ be 2 r.discount ++ be 2 r.cap ++ be 2 r.overdraft ++ be 2 r.entryMin)) s =
              .next t ∧
          OnlyAnswered s t tag .setClass
            (.range
              (if 7 < k then 1 else if 1 < flag then 2 else if 1000 < r.discount then 3
              else if 50000 < r.overdraft then 5 else 6))) ∧
      (∀ i (entries : List Nat), i < 256 → entries.length < 256 → (∀ e ∈ entries, e < 65536) →
        ¬(1 ≤ i ∧ i ≤ s.service.zoneCount.getD 0) ∨ entries.length ≠ s.service.zoneCount.getD 0 →
        s.admits tag .loadZoneRow →
        ∃ t, exec (.loadZoneRow tag (be 1 i ++ be 1 entries.length ++ entries.flatMap (be 2))) s = .next t ∧
          OnlyAnswered s t tag .loadZoneRow
            (.range (if 1 ≤ i ∧ i ≤ s.service.zoneCount.getD 0 then 2 else 1))) ∧
      (∀ i (entries before : List Nat) (e : Nat) (after : List Nat), entries = before ++ e :: after →
        (∀ x ∈ before, x ≤ 20000) → 20000 < e → (∀ x ∈ entries, x < 65536) →
        s.service.zoneCount = some entries.length → entries.length < 256 → 1 ≤ i → i ≤ entries.length →
        s.admits tag .loadZoneRow →
        ∃ t, exec (.loadZoneRow tag (be 1 i ++ be 1 entries.length ++ entries.flatMap (be 2))) s = .next t ∧
          OnlyAnswered s t tag .loadZoneRow (.range (3 + before.length))) ∧
      (∀ (set : Nat) (bands : List Band), set < 256 → bands.length < 256 →
        (∀ b ∈ bands, b.start < 65536 ∧ b.multiplier < 65536) → s.admits tag .loadBandSet →
        ∃ t, exec (.loadBandSet tag (be 1 set ++ be 1 bands.length ++ bands.flatMap Band.bytes)) s = .next t ∧
          (¬(1 ≤ set ∧ set ≤ 2) → OnlyAnswered s t tag .loadBandSet (.range 1)) ∧
          (1 ≤ set → set ≤ 2 →
            (¬(1 ≤ bands.length ∧ bands.length ≤ 8) → OnlyAnswered s t tag .loadBandSet (.range 2)) ∧
            (1 ≤ bands.length → bands.length ≤ 8 →
              ∀ before b after, bands = before ++ b :: after → before = [] ∨ bandsInRange before →
                (¬((before = [] → b.start = 0) ∧ (∀ x ∈ before, x.start < b.start) ∧ b.start ≤ 1439) →
                  OnlyAnswered s t tag .loadBandSet (.range (3 + 2 * before.length))) ∧
                ((before = [] → b.start = 0) → (∀ x ∈ before, x.start < b.start) → b.start ≤ 1439 →
                  ¬(250 ≤ b.multiplier ∧ b.multiplier ≤ 4000) →
                  OnlyAnswered s t tag .loadBandSet (.range (4 + 2 * before.length))))))

/-- An accepted zone count, zone row, band set or class record replaces what was held, whole, and nothing else (R169,
R171 to R173; the widths of zone count and valid flag are the model's reading, log 25). -/
def Obligations.TablesAreReplacedWhole : Prop :=
  ∀ (s : State) (tag : Byte), s.service.state = .outOfService ∨ s.service.state = .suspended →
    (∀ n, 1 ≤ n → n ≤ 16 → s.admits tag .setZoneCount →
      ∃ t, exec (.setZoneCount tag (be 2 n)) s = .next t ∧
        Loaded s t tag .setZoneCount { s.service with zoneCount := some n, rows := [] }) ∧
    (∀ i (entries : List Nat), s.service.zoneCount = some entries.length → entries.length ≤ 16 → 1 ≤ i →
      i ≤ entries.length → (∀ e ∈ entries, e ≤ 20000) → s.admits tag .loadZoneRow →
      ∃ t, exec (.loadZoneRow tag (be 1 i ++ be 1 entries.length ++ entries.flatMap (be 2))) s = .next t ∧
        Loaded s t tag .loadZoneRow
          { s.service with rows := (s.service.rows.filter fun r => r.1 != i) ++ [(i, entries)] }) ∧
    (∀ bands, bandsInRange bands → s.admits tag .loadBandSet →
      (∃ t, exec (.loadBandSet tag (be 1 1 ++ be 1 bands.length ++ bands.flatMap Band.bytes)) s = .next t ∧
        Loaded s t tag .loadBandSet { s.service with weekday := some bands }) ∧
      ∃ t, exec (.loadBandSet tag (be 1 2 ++ be 1 bands.length ++ bands.flatMap Band.bytes)) s = .next t ∧
        Loaded s t tag .loadBandSet { s.service with weekendSet := some bands }) ∧
    (∀ k r, k ≤ 7 → r.inRange → s.admits tag .setClass →
      ∃ t, exec (.setClass tag (ClassRec.bytes k r)) s = .next t ∧
        Loaded s t tag .setClass { s.service with classes := s.service.classes.put k r })

/-- An accepted SET_STATION: each block takes its settings at once; a load that repeats the address in use outside a
conflict leaves the link as it stands, any other restarts it, with every PRESENT row a member lost, so that one that
asserted is held, or let go where the emergency hold is 0, and the line emergency judged (R115, R144, R145, R170).
Where that ends the emergency its record and notice are made and the leaves are released (R139, R147): its peer is the
row whose loss left no contribution, the highest that was PRESENT and ASSERTED (log 44), or, where the row of the own
address went on contributing until it was blanked, that address (log 23). A load of
address 0 goes OFFLINE, which answers each outstanding SYNC_LINE with its OFFLINE reply (R110, R114), before the load's
own reply: the replies formed are these and no other. That the row of the own address is blank is the model's reading
(log 23), and the order of these replies its choice (log 47, 48). -/
def Obligations.StationLoadReachesEachBlock : Prop :=
  ∀ (s : State) (tag : Byte) (a : StationLoad), s.service.state = .outOfService ∨ s.service.state = .suspended →
    a.inRange → s.lineOk → s.link.rows.length = 16 → s.admits tag .setStation →
    ∃ t, exec (.setStation tag a.bytes) s = .next t ∧
      t.service =
        { s.service with
          station := some a.station,
          state :=
            if s.service.state = .suspended ∧ t.missing.any = true then .outOfService else s.service.state } ∧
      t.time = { s.time with offset := a.offset, boundary := a.boundary } ∧
      t.host.window = s.host.window ++ [tag] ∧
      Reply.inWindow tag .setStation (.loaded t.service.state t.missing) ∈ t.formed ∧
      (s.link.addr = a.addr → s.link.state ≠ .offline .conflict →
        t = { s with time := t.time, service := t.service, host := t.host } ∧
        t.formed = s.formed ++ [Reply.inWindow tag .setStation (.loaded t.service.state t.missing)]) ∧
      (s.link.addr ≠ a.addr ∨ s.link.state = .offline .conflict →
        t.tells .membershipChange = true ∧ t.link.addr = a.addr ∧
        t.link.state = (if a.addr = 0 then .offline .noAddress else .listening) ∧ t.link.token = .waiting ∧
        t.link.turn = 0 ∧ t.link.pointer = (if a.addr = 0 then 1 else a.addr) ∧ t.link.tx = none ∧
        t.link.deassertPending = s.link.deassertPending ∧
        t.link.queue.map QItem.msg = s.link.queue.map QItem.msg ∧ (∀ q ∈ t.link.queue, q.inTx = false) ∧
        (a.addr = 0 →
          t.link.syncs = [] ∧
          t.formed =
            s.formed ++ s.link.syncs.map (fun y => Reply.inWindow y.tag .syncLine .offline)
              ++ [Reply.inWindow tag .setStation (.loaded t.service.state t.missing)]) ∧
        (a.addr ≠ 0 → (∀ y ∈ s.link.syncs, ∃ q ∈ s.link.queue, y.tag ∈ q.marks) →
          t.link.syncs = s.link.syncs ∧
          t.formed = s.formed ++ [Reply.inWindow tag .setStation (.loaded t.service.state t.missing)]) ∧
        t.link.rows.length = 16 ∧ (∀ r ∈ t.link.rows, r.present = false ∧ r.lastHeard = none) ∧
        (∀ b, 1 ≤ b → b ≤ 16 → b ≠ a.addr → s.link.AllLostTo t.link s.clock s.service.params.emergencyHold b) ∧
        (t.link.row a.addr).contribution = .none ∧
        t.emergency = { s.emergency with line := t.lineJudged } ∧
        (t.emergency.line = s.emergency.line → t.passage = s.passage ∧ t.journal = s.journal) ∧
        (t.emergency.line ≠ s.emergency.line →
          AisleReleased s t ∧ t.tells .emergencyChange = true ∧
          ∃ b,
            (s.link.StaysHeld a.addr s.service.params.emergencyHold → b = a.addr) ∧
              (¬s.link.StaysHeld a.addr s.service.params.emergencyHold → s.link.LastAsserting b) ∧
              Journals s t [{ kind := .emergencyEnd, peer := some b, reason := some .peerLost }]) ∧
        t.portU = s.portU ∧ t.portP = s.portP ∧ t.screening = s.screening ∧ t.pins = s.pins)

/-- An accepted SET_PARAMETERS replaces every parameter together; the journal judges its halt against the new levels,
with no JOURNAL_LEVEL notice, and a sounder run now past its duration ends (R131, R158, R174); that a run once ended is
not taken up again, and the two bytes of max legs, are the model's readings (log 37 and 25). SOUNDER_EXPIRY ends the
run, whenever it is taken (log 2). -/
def Obligations.ParametersAreReplacedTogether : Prop :=
  (∀ s : State, ∃ t, exec .sounderExpiry s = .next t ∧ Told s t [] ∧ t.sounderRuns = false ∧
    t = { s with passage := { s.passage with sounder := none }, host := t.host }) ∧
  ∀ (s : State) (tag : Byte) (p : Params), s.service.state = .outOfService ∨ s.service.state = .suspended →
    p.inRange → s.admits tag .setParameters →
    ∃ t, exec (.setParameters tag p.bytes) s = .next t ∧
      Answered s t tag .setParameters (.loaded t.service.state t.missing) ∧
      t = { s with service := t.service, passage := t.passage, journal := t.journal, host := t.host } ∧
      t.service =
        { s.service with
          params := p,
          state :=
            if s.service.state = .suspended ∧ t.missing.any = true then .outOfService else s.service.state } ∧
      t.journal =
        { s.journal with
          halted :=
            if s.journal.halted = true then decide (p.resumeLevel < s.journal.records.length)
            else decide (p.haltLevel ≤ s.journal.records.length) } ∧
      t.passage = { s.passage with sounder := t.passage.sounder } ∧
      t.sounderRuns =
        (s.sounderRuns && s.passage.sounder.elim false fun from_ => decide (s.clock < from_ + 1000 * p.sounderDuration)) ∧
      ∀ k, t.tells k =
        (s.tells k || (k == .journalHalt && t.journal.halted != s.journal.halted)
          || (k == .serviceState && t.service.state != s.service.state))

/-- SELECT_SCHEME and RETIRE_SCHEME by the state of the slot, in every service state (R4, R175). -/
def Obligations.SchemeRequestsFollowTheSlot : Prop :=
  ∀ (s : State) (tag : Byte) (n : Nat), n < 256 →
    (s.admits tag .selectScheme →
      ∃ t, exec (.selectScheme tag (be 1 n)) s = .next t ∧
        (¬(1 ≤ n ∧ n ≤ 4) → OnlyAnswered s t tag .selectScheme (.range 1)) ∧
        (1 ≤ n → n ≤ 4 →
          (s.service.schemes.get n = .accepted →
            Answered s t tag .selectScheme (.schemes t.service.schemes) ∧ t.host.notices = s.host.notices ∧
            t = { s with service := t.service, host := t.host } ∧
            t.service = { s.service with schemes := t.service.schemes } ∧
            ∀ m, 1 ≤ m → m ≤ 4 →
              t.service.schemes.get m =
                if m = n then .current
                else if s.service.schemes.get m = .current then .accepted else s.service.schemes.get m) ∧
          (s.service.schemes.get n = .current →
            OnlyAnswered s t tag .selectScheme (.schemes s.service.schemes)) ∧
          (s.service.schemes.get n = .empty ∨ s.service.schemes.get n = .retired →
            OnlyAnswered s t tag .selectScheme (.refused .schemeState)))) ∧
    (s.admits tag .retireScheme →
      ∃ t, exec (.retireScheme tag (be 1 n)) s = .next t ∧
        (¬(1 ≤ n ∧ n ≤ 4) → OnlyAnswered s t tag .retireScheme (.range 1)) ∧
        (1 ≤ n → n ≤ 4 →
          (s.service.schemes.get n = .accepted →
            Answered s t tag .retireScheme (.schemes t.service.schemes) ∧ t.host.notices = s.host.notices ∧
            t = { s with service := t.service, host := t.host } ∧
            t.service = { s.service with schemes := t.service.schemes } ∧
            ∀ m, 1 ≤ m → m ≤ 4 →
              t.service.schemes.get m = if m = n then .retired else s.service.schemes.get m) ∧
          (s.service.schemes.get n = .retired →
            OnlyAnswered s t tag .retireScheme (.schemes s.service.schemes)) ∧
          (s.service.schemes.get n = .current ∨ s.service.schemes.get n = .empty →
            OnlyAnswered s t tag .retireScheme (.refused .schemeState))))

/-! ## Deny list, sighting table and journal on request (R73, R95, R160, R161) -/

/-- DENY_ADD, DENY_REMOVE and DENY_CLEAR as the next lookup finds them; the list stays in order and within its
capacity, no frame is queued, and the replies carry the counts after the edit (R73; the number of an entry's making is
the model's own, log 17). -/
def Obligations.DenyEditsTakeEffectFromTheNextLookup : Prop :=
  ∀ (s : State) (tag : Byte) (card : CardNo), s.screening.denyOk →
    (∀ action : DenyAction, s.admits tag .denyAdd →
      ∃ t, exec (.denyAdd tag (be 4 card.toNat ++ be 1 action.code)) s = .next t ∧
        (card = 0 ∨ card = BitVec.allOnes 32 → OnlyAnswered s t tag .denyAdd (.range 1)) ∧
        (card ≠ 0 → card ≠ BitVec.allOnes 32 → s.screening.denied card = none → 16384 ≤ s.screening.deny.length →
          OnlyAnswered s t tag .denyAdd (.refused .tableFull)) ∧
        (card ≠ 0 → card ≠ BitVec.allOnes 32 →
          (s.screening.denied card).isSome = true ∨ s.screening.deny.length < 16384 →
          Answered s t tag .denyAdd (.denyCounts t.screening.deny.length t.screening.localCount) ∧
            t.host.notices = s.host.notices ∧ t = { s with screening := t.screening, host := t.host } ∧
            t.screening.sightings = s.screening.sightings ∧ t.screening.denyOk ∧
            t.screening.deny.length =
              s.screening.deny.length + (if (s.screening.denied card).isSome = true then 0 else 1) ∧
            ∀ c, t.screening.denied c =
              if c = card then
                some
                  { card := card, origin := .central, action := action, added := s.time.now,
                    made := s.screening.order }
              else s.screening.denied c)) ∧
    (s.admits tag .denyRemove →
      ∃ t, exec (.denyRemove tag (be 4 card.toNat)) s = .next t ∧
        (s.screening.denied card = none → OnlyAnswered s t tag .denyRemove (.refused .notFound)) ∧
        ∀ e, s.screening.denied card = some e →
          Answered s t tag .denyRemove
              (.denyRemoved e.origin t.screening.deny.length t.screening.localCount) ∧
            t.host.notices = s.host.notices ∧ t = { s with screening := t.screening, host := t.host } ∧
            t.screening = { s.screening with deny := t.screening.deny } ∧ t.screening.denyOk ∧
            t.screening.deny.length + 1 = s.screening.deny.length ∧
            ∀ c, t.screening.denied c = if c = card then none else s.screening.denied c) ∧
    (s.admits tag .denyClear →
      ∃ t, exec (.denyClear tag []) s = .next t ∧
        Answered s t tag .denyClear
            (.denyCleared (s.screening.deny.countP fun e => e.origin == .central) t.screening.deny.length
              t.screening.deny.length) ∧
          t.host.notices = s.host.notices ∧ t = { s with screening := t.screening, host := t.host } ∧
          t.screening = { s.screening with deny := s.screening.deny.filter fun e => e.origin != .central })

/-- JOURNAL_DROP removes the oldest records when the first serial is the oldest's, and the halt is judged for the new
count; otherwise it is refused and nothing changes (R157, R161). -/
def Obligations.JournalDropRemovesTheOldest : Prop :=
  ∀ (s : State) (tag : Byte) (first n : Nat), first < 281474976710656 → n < 65536 → s.admits tag .journalDrop →
    ∃ t, exec (.journalDrop tag (be 6 first ++ be 2 n)) s = .next t ∧
      (n = 0 → OnlyAnswered s t tag .journalDrop (.range 2)) ∧
      (1 ≤ n → s.journal.records.head?.map Record.serial ≠ some first →
        OnlyAnswered s t tag .journalDrop
          (.mismatch s.journal.records.length (s.journal.records.head?.map Record.serial) s.journal.nextSerial)) ∧
      (1 ≤ n → s.journal.records.head?.map Record.serial = some first →
        Answered s t tag .journalDrop
            (.removed (min n s.journal.records.length)
              { count := s.journal.records.length - n,
                oldest := (s.journal.records.drop n).head?.map Record.serial, next := s.journal.nextSerial,
                halted := t.journal.halted }) ∧
          t = { s with journal := t.journal, host := t.host } ∧
          t.journal =
            { s.journal with
              records := s.journal.records.drop n,
              halted :=
                s.journal.halted && decide (s.service.params.resumeLevel < s.journal.records.length - n) } ∧
          ∀ k, t.tells k = (s.tells k || (k == .journalHalt && s.journal.halted && !t.journal.halted)))

/-! ## Passage on request (R114, R131 to R138) -/

/-- SYNC_LINE completes at once on an OFFLINE link and on an empty queue, else it marks every queued frame and waits;
judged again, an outstanding SYNC_LINE completes when the link is OFFLINE or none of its marked frames remains (R114;
that its row judges it again is the model's reading, log 6; that several complete in order of arrival its choice, log
47). -/
def Obligations.SyncLineWaitsForItsMarkedFrames : Prop :=
  ∀ s : State,
    (∀ tag, s.admits tag .syncLine →
      (∀ reason, s.link.state = .offline reason →
        ∃ t, exec (.syncLine tag []) s = .next t ∧ OnlyAnswered s t tag .syncLine .offline) ∧
      ((∀ reason, s.link.state ≠ .offline reason) → s.link.queue = [] →
        ∃ t, exec (.syncLine tag []) s = .next t ∧ OnlyAnswered s t tag .syncLine (.synced 0)) ∧
      ((∀ reason, s.link.state ≠ .offline reason) → s.link.queue ≠ [] →
        ∃ t, exec (.syncLine tag []) s = .next t ∧ Withheld s t tag [] ∧
          t = { s with link := t.link, host := t.host } ∧
          t.link =
            { s.link with
              queue := s.link.queue.map fun q => { q with marks := q.marks ++ [tag] },
              syncs := s.link.syncs ++ [{ tag := tag, dropped := 0 }] })) ∧
    ((s.link.syncs.map Sync.tag).Nodup → s.host.resetTaken = false →
      ∃ t, exec .syncLineComplete s = .next t ∧ t = { s with link := t.link, host := t.host } ∧
        t.host.window = s.host.window ∧ (∀ k, t.tells k = s.tells k) ∧
        t.link = { s.link with queue := t.link.queue, syncs := t.link.syncs } ∧
        t.link.queue.map QItem.msg = s.link.queue.map QItem.msg ∧
        (∀ reason, s.link.state = .offline reason →
          t.link.syncs = [] ∧
          t.formed = s.formed ++ s.link.syncs.map (fun y => Reply.inWindow y.tag .syncLine .offline)) ∧
        ((∀ reason, s.link.state ≠ .offline reason) →
          t.link.syncs = s.link.syncs.filter (fun y => s.link.queue.any fun q => q.marks.contains y.tag) ∧
          t.formed =
            s.formed
              ++ (s.link.syncs.filter fun y => !s.link.queue.any fun q => q.marks.contains y.tag).map
                  (fun y => Reply.inWindow y.tag .syncLine (.synced y.dropped))))

/-- STAFF_PASS is judged at once as a slot request and never waits (R118, R121, R137): refused GATE_STATE in an
emergency, AISLE_BUSY when no slot is granted; granted, a credit of origin STAFF stands on the lower free slot. -/
def Obligations.StaffPassIsJudgedAtOnce : Prop :=
  ∀ (s : State) (tag : Byte) (d : Direction), s.admits tag .staffPass →
    (s.emergency.line = true →
      ∃ t, exec (.staffPass tag (be 1 (directionCode d))) s = .next t ∧
        OnlyAnswered s t tag .staffPass (.refused .gateState)) ∧
    (s.emergency.line = false →
      s.passage.leaf = .fault ∨ (s.passage.claim.slot1.isSome = true ∧ s.passage.claim.slot2.isSome = true) ∨
        (∃ c, s.passage.claim.direction = some c ∧ c ≠ d) ∨ (∃ o ∈ s.passage.occupants, o.direction ≠ d) →
      ∃ t, exec (.staffPass tag (be 1 (directionCode d))) s = .next t ∧
        OnlyAnswered s t tag .staffPass (.refused .aisleBusy)) ∧
    (∀ k, s.emergency.line = false → s.passage.leaf ≠ .fault →
      (s.passage.claim.direction = none ∨ s.passage.claim.direction = some d) →
      (∀ o ∈ s.passage.occupants, o.direction = d) →
      (if s.passage.claim.slot1 = none then k = .one else s.passage.claim.slot2 = none ∧ k = .two) →
      s.leavesSettled →
      ∃ t, exec (.staffPass tag (be 1 (directionCode d))) s = .next t ∧ Replied s t tag .staffPass .ok ∧
        t = { s with passage := t.passage, journal := t.journal, host := t.host } ∧
        s.journal.grownBy t.journal s.time.now
          (if s.journal.halted = true then [] else [{ kind := .staffPass, side := some (sideOf d) }]) ∧
        t.passage.claim =
          { s.passage.claim.setSlot k (some .credit) with direction := some d, lastGranted := d } ∧
        t.passage.credits =
          s.passage.credits
            ++ [{ slot := k, direction := d, origin := .staff,
                  state :=
                    if s.passage.occupants.any fun o => o.stage == .leaf && o.credit.isNone then .assigned
                    else .unassigned (s.clock + 1000 * s.service.params.creditLifetime) }] ∧
        t.passage.occupants.map Occupant.stage = s.passage.occupants.map Occupant.stage ∧
        t.passage.leaf =
          (if s.passage.leaf = .closed ∨ s.passage.leaf = .closing then .opening else s.passage.leaf) ∧
        t.passage.latches = s.passage.latches ∧ t.passage.holdOpen = s.passage.holdOpen)

/-- HOLD_OPEN and HOLD_RELEASE (R133, R134, R138): refused GATE_STATE in FAULT, without effect when hold-open stands as
asked, else the leaves follow. That GATE_STATE goes before the OK of a hold-open in force is the model's choice (log
49). -/
def Obligations.HoldOpenMovesTheLeaves : Prop :=
  ∀ (s : State) (tag : Byte),
    (s.admits tag .holdOpen →
      (s.passage.leaf = .fault →
        ∃ t, exec (.holdOpen tag []) s = .next t ∧ OnlyAnswered s t tag .holdOpen (.refused .gateState)) ∧
      (s.passage.leaf ≠ .fault → s.passage.holdOpen = true →
        ∃ t, exec (.holdOpen tag []) s = .next t ∧ OnlyAnswered s t tag .holdOpen .ok) ∧
      (s.passage.leaf ≠ .fault → s.passage.holdOpen = false →
        ∃ t, exec (.holdOpen tag []) s = .next t ∧ Answered s t tag .holdOpen .ok ∧
          t.host.notices = s.host.notices ∧ t = { s with passage := t.passage, host := t.host } ∧
          t.passage =
            { s.passage with
              holdOpen := true,
              leaf :=
                (match s.passage.leaf with
                  | .closed => .opening
                  | .closing => .opening
                  | .opening => .opening
                  | .opened => .heldOpen
                  | .heldOpen => .heldOpen
                  | .fault => .fault),
              travel :=
                (match s.passage.leaf with
                  | .closed => some (s.clock + 1500)
                  | .closing => some (s.clock + 1500)
                  | .opened => none
                  | .opening => s.passage.travel
                  | .heldOpen => s.passage.travel
                  | .fault => s.passage.travel) })) ∧
    (s.admits tag .holdRelease →
      (s.passage.holdOpen = false →
        ∃ t, exec (.holdRelease tag []) s = .next t ∧ OnlyAnswered s t tag .holdRelease .ok) ∧
      (s.passage.holdOpen = true → s.leavesSettled →
        ∃ t, exec (.holdRelease tag []) s = .next t ∧ Answered s t tag .holdRelease .ok ∧
          t.host.notices = s.host.notices ∧ t = { s with passage := t.passage, host := t.host } ∧
          t.passage =
            { s.passage with
              holdOpen := false,
              leaf :=
                if s.passage.leaf = .heldOpen ∧ s.emergency.line = false then
                  if s.passage.credits = [] ∧ s.pins.leaf = false then .closing else .opened
                else s.passage.leaf,
              travel :=
                if s.passage.leaf = .heldOpen ∧ s.emergency.line = false then
                  if s.passage.credits = [] ∧ s.pins.leaf = false then some (s.clock + 1500) else none
                else s.passage.travel }))

/-- GATE_RESET is taken in FAULT only, starts travel towards the command, and is answered with the state its travel
reached, or FAULT (R136). That a waiting request may be granted at the acceptance, and that the row GATE_RESET_COMPLETE
judges the reply again, is the model's reading (log 12, 6). -/
def Obligations.GateResetTravelsFromFault : Prop :=
  ∀ s : State,
    (∀ tag, s.admits tag .gateReset →
      (s.passage.leaf ≠ .fault →
        ∃ t, exec (.gateReset tag []) s = .next t ∧ OnlyAnswered s t tag .gateReset (.refused .gateState)) ∧
      (s.passage.leaf = .fault →
        ∃ t, exec (.gateReset tag []) s = .next t ∧ Withheld s t tag [] ∧
          t.passage.leaf = (if s.commandOpen = true then .opening else .closing) ∧
          t.passage.travel = some (s.clock + 1500) ∧ t.passage.gateReset = some tag ∧
          t = { s with portU := t.portU, portP := t.portP, passage := t.passage, host := t.host } ∧
          (s.passage.claim.waitU = false → s.passage.claim.waitP = false →
            t.portU = s.portU ∧ t.portP = s.portP ∧
            t.passage =
              { s.passage with
                leaf := t.passage.leaf, travel := t.passage.travel, gateReset := t.passage.gateReset }))) ∧
    (∀ tag, s.passage.gateReset = some tag → s.host.resetTaken = false →
      (s.passage.leaf = .closed ∨ s.passage.leaf = .opened ∨ s.passage.leaf = .heldOpen ∨ s.passage.leaf = .fault →
        ∃ t, exec .gateResetComplete s = .next t ∧ t = { s with passage := t.passage, host := t.host } ∧
          t.passage = { s.passage with gateReset := none } ∧ t.host.window = s.host.window ∧
          t.formed =
            s.formed
              ++ [Reply.inWindow tag .gateReset
                  (if s.passage.leaf = .fault then .fault else .gate s.passage.leaf)]) ∧
      (s.passage.leaf = .opening ∨ s.passage.leaf = .closing →
        ∃ t, exec .gateResetComplete s = .next t ∧ Told s t [] ∧ t = { s with host := t.host }))

/-- ALARM_CLEAR clears the named latches and nothing else, replies with those still set, and stops the sounder when
none is; a latch cleared is latched again by the next alarm of its kind, with record, notice and sounder run (R132). -/
def Obligations.AlarmClearClearsTheNamedLatches : Prop :=
  ∀ (s : State) (tag : Byte) (named : Latches),
    s.admits tag .alarmClear →
      (named.any = false →
        ∃ t, exec (.alarmClear tag named.field) s = .next t ∧ OnlyAnswered s t tag .alarmClear (.range 1)) ∧
      (named.any = true →
        ∃ t, exec (.alarmClear tag named.field) s = .next t ∧
          Answered s t tag .alarmClear (.latches t.passage.latches) ∧ t.host.notices = s.host.notices ∧
          t = { s with passage := t.passage, host := t.host } ∧
          t.passage = { s.passage with latches := t.passage.latches, sounder := t.passage.sounder } ∧
          (∀ k, t.passage.latches.get k = (s.passage.latches.get k && !named.get k)) ∧
          t.passage.sounder = (if t.passage.latches.any = true then s.passage.sounder else none) ∧
          ∀ k side, named.get k = true →
            ((t.alarm k side).passage.latches.get k = true ∧ (t.alarm k side).tells .alarm = true ∧
              (t.alarm k side).passage.sounder = some t.clock ∧
              (t.journal.halted = false →
                t.journal.grownBy (t.alarm k side).journal t.time.now
                  [{ kind := .alarm, side := side, reason := some (.alarm k) }])))

/-! ## The emergency (R139 to R149) -/

/-- SET_EMERGENCY and CLEAR_EMERGENCY: the flag, and in the reply the flag, the own contribution and the line emergency
state as they stand after it; a flag that stands as asked changes nothing; contributions of other members stay. A
change that moves the own contribution raises EMERGENCY_CHANGE and sets or clears the DEASSERT due to the line (R104);
one that moves the line emergency state makes its record with reason HOST; one that does not makes no record (R142).
At a start credits, requests, waiting taps and leaves are as R31, R123, R139 and R146 have them, and only the drain that
a refused tap completes forms replies beside the own (R167); at an end the leaves are released and the aisle is
otherwise as it was (R139, R147). Model's choices: the reply is formed after those of the
SUSPENDs that it completes (log 48), the order of the records of a start (log 11), a SUMMON in flight is abandoned (log
41). -/
def Obligations.HostEmergencyFlagIsAnsweredWithWhatFollows : Prop :=
  ∀ (s : State) (tag : Byte) (flag : Bool), s.lineOk →
    s.admits tag (if flag then .setEmergency else .clearEmergency) →
    ∃ t, exec (if flag then .setEmergency tag [] else .clearEmergency tag []) s = .next t ∧
      t.emergency =
        { fire := s.emergency.fire, hostFlag := flag,
          line := s.emergency.fire || flag || s.link.rows.any MemberRow.contributes } ∧
      t.host.window = s.host.window ++ [tag] ∧
      (∃ before,
        t.formed =
            s.formed ++ before
              ++ [Reply.inWindow tag (if flag then .setEmergency else .clearEmergency)
                  (.emergency flag (s.emergency.fire || flag) t.emergency.line)] ∧
          (s.emergency.line = true ∨ t.emergency.line = false → before = [])) ∧
      t.link.rows = s.link.rows ∧ t.pins = s.pins ∧ t.time = s.time ∧ t.service.tables = s.service.tables ∧
      (s.emergency.hostFlag = flag →
        OnlyAnswered s t tag (if flag then .setEmergency else .clearEmergency)
          (.emergency flag (s.emergency.fire || flag) s.emergency.line)) ∧
      (t.emergency.line = s.emergency.line → t.journal = s.journal) ∧
      (s.emergency.hostFlag = !flag → s.emergency.fire = true →
        Answered s t tag (if flag then .setEmergency else .clearEmergency) (.emergency flag true true) ∧
        t.host.notices = s.host.notices ∧
        t = { s with emergency := { s.emergency with hostFlag := flag }, host := t.host }) ∧
      (s.emergency.hostFlag = !flag → s.emergency.fire = false →
        t.tells .emergencyChange = true ∧ t.link.deassertPending = !flag ∧
        (t.emergency.line = s.emergency.line →
          (∀ k, t.tells k = (s.tells k || k == .emergencyChange)) ∧
          t =
            { s with
              emergency := { s.emergency with hostFlag := flag },
              link := { s.link with deassertPending := !flag }, host := t.host }) ∧
        (flag = false → t.emergency.line = false →
          EmergencyEnded s t { kind := .emergencyEnd, reason := some .host } ∧
          t =
            { s with
              emergency := { s.emergency with hostFlag := false, line := false },
              link := { s.link with deassertPending := true }, passage := t.passage, journal := t.journal,
              host := t.host }) ∧
        (flag = true → s.emergency.line = false →
          EmergencyStarted s t { kind := .emergencyStart, reason := some .host }
            { s.link with deassertPending := false }
            [Reply.inWindow tag .setEmergency (.emergency true true true)]))

/-- A change of the fire input: only shown when the own contribution stays; else EMERGENCY_CHANGE is raised and the link
is told; the line emergency state follows, with its record, unless peers hold it (R141, R145). A start clears every
credit, whose slots stand free, with an UNUSED_CREDIT record of reason EMERGENCY and no lapse request (R123, R139). Of
the taps that wait, one at Port U is refused EMERGENCY and one at Port P goes on in READING on the free-exit path with
the time it had left (R31); in SUSPENDING, with no tap at Port P, that refusal completes the drain (R167). At an end the
leaves are released, HELD_OPEN to OPEN or closing where nothing holds them open and LEAF is clear, and the aisle is
otherwise as it was (R134, R139, R147). That a level reported again changes nothing, the order of the records of a
start, and that a SUMMON in flight is abandoned, are the model's choices (log 24, 11, 41). -/
def Obligations.FireInputMovesTheOwnContribution : Prop :=
  ∀ (s : State) (level : Bool), s.lineOk →
    (s.emergency.hostFlag = true ∨ s.emergency.fire = level →
      ∃ t, exec (.fireInputChange level) s = .next t ∧ Told s t [] ∧
        t =
          { s with
            pins := { s.pins with fire := level }, emergency := { s.emergency with fire := level }, host := t.host }) ∧
    (s.emergency.hostFlag = false → s.emergency.fire = !level → s.link.rows.any MemberRow.contributes = true →
      ∃ t, exec (.fireInputChange level) s = .next t ∧ Told s t [.emergencyChange] ∧
        t =
          { s with
            pins := { s.pins with fire := level }, emergency := { s.emergency with fire := level },
            link := { s.link with deassertPending := !level }, host := t.host }) ∧
    (s.emergency.hostFlag = false → s.emergency.fire = true → s.link.rows.any MemberRow.contributes = false →
      ∃ t, exec (.fireInputChange false) s = .next t ∧ Silent s t ∧ t.tells .emergencyChange = true ∧
        t =
          { s with
            pins := { s.pins with fire := false }, emergency := { s.emergency with fire := false, line := false },
            link := { s.link with deassertPending := true }, passage := t.passage, journal := t.journal,
            host := t.host } ∧
        EmergencyEnded s t { kind := .emergencyEnd, reason := some .fire }) ∧
    (s.emergency.hostFlag = false → s.emergency.fire = false → s.link.rows.any MemberRow.contributes = false →
      ∃ t, exec (.fireInputChange true) s = .next t ∧ t.emergency = { s.emergency with fire := true, line := true } ∧
        t.link.deassertPending = false ∧
        EmergencyStarted s t { kind := .emergencyStart, reason := some .fire }
          { s.link with deassertPending := false })

/-! ## The passage (R117 to R135) -/

/-- MOUTH_OCCUPIED (R125): the oldest occupant at LEAF that heads to the mouth moves to FAR; with none a new occupant
stands at MOUTH; with none and three occupants INTRUSION is raised. A zone occupied already does not become so (log
24). -/
def Obligations.MouthOccupiedMovesOrAppendsAnOccupant : Prop :=
  ∀ (s : State) (m : Side),
    (s.mouth m = true → ∃ t, exec (.mouthOccupied m) s = .next t ∧ Told s t [] ∧ t = { s with host := t.host }) ∧
    (s.mouth m = false →
      ∃ t, exec (.mouthOccupied m) s = .next t ∧
        t.pins =
          (match m with
            | .U => { s.pins with mouthU := true }
            | .P => { s.pins with mouthP := true }) ∧
        (∀ before o after, s.passage.occupants = before ++ o :: after → o.stage = .leaf → farMouth o.direction = m →
          (∀ x ∈ before, ¬(x.stage = .leaf ∧ farMouth x.direction = m)) →
          Told s t [] ∧ t = { s with pins := t.pins, passage := t.passage, host := t.host } ∧
          t.passage = { s.passage with occupants := before ++ { o with stage := .far } :: after }) ∧
        ((∀ x ∈ s.passage.occupants, ¬(x.stage = .leaf ∧ farMouth x.direction = m)) →
          (s.passage.occupants.length < 3 →
            Told s t [] ∧ t = { s with pins := t.pins, passage := t.passage, host := t.host } ∧
            t.passage =
              { s.passage with
                occupants :=
                  s.passage.occupants ++ [{ direction := dirOf m, stage := .mouth, credit := none }] }) ∧
          (3 ≤ s.passage.occupants.length →
            Alarmed s t .intrusion (some m) ∧
            t = { s with pins := t.pins, passage := t.passage, journal := t.journal, host := t.host } ∧
            t.passage =
              { s.passage with
                latches := t.passage.latches, lastAlarm := t.passage.lastAlarm, sounder := t.passage.sounder })))

/-- LEAF_OCCUPIED (R126, R127, R134): the body that entered is the oldest occupant at MOUTH, else one appended from the
mouth it came from, else INTRUSION is raised. At LEAF it takes the oldest UNASSIGNED credit of the claim's direction,
or raises REVERSE, FORCED or TAILGATE unless hold-open or the emergency suppresses them. CLOSING leaves reopen. -/
def Obligations.LeafOccupiedAdvancesTheBodyThatEntered : Prop :=
  ∀ s : State, s.pins.leaf = false → (s.passage.credits.map Credit.slot).Nodup →
    ∃ t, exec .leafOccupied s = .next t ∧
      t =
        { s with pins := { s.pins with leaf := true }, passage := t.passage, journal := t.journal, host := t.host } ∧
      t.passage.leaf = (if s.passage.leaf = .closing then .opening else s.passage.leaf) ∧
      t.passage.travel = (if s.passage.leaf = .closing then some (s.clock + 1500) else s.passage.travel) ∧
      t.passage.claim = s.passage.claim ∧ t.passage.holdOpen = s.passage.holdOpen ∧
      (∀ d before after,
        (∃ o, s.passage.occupants = before ++ o :: after ∧ o.stage = .mouth ∧ o.direction = d ∧
            ∀ x ∈ before, x.stage ≠ .mouth) ∨
          (s.passage.occupants = before ∧ after = [] ∧ (∀ x ∈ before, x.stage ≠ .mouth) ∧ before.length < 3 ∧
            s.mouth (sideOf d) = true ∧
            (s.mouth (farMouth d) = false ∨ s.passage.claim.direction = some d)) →
        (∀ earlier c later, s.passage.claim.direction = some d → s.passage.credits = earlier ++ c :: later →
          (∀ x ∈ earlier, x.state = .assigned) → c.state ≠ .assigned →
          Told s t [] ∧ t.journal = s.journal ∧ t.passage.latches = s.passage.latches ∧
          t.passage.occupants = before ++ { direction := d, stage := .leaf, credit := some c.slot } :: after ∧
          t.passage.credits = earlier ++ { c with state := .assigned } :: later) ∧
        (¬(s.passage.claim.direction = some d ∧ ∃ c ∈ s.passage.credits, c.state ≠ .assigned) →
          t.passage.occupants = before ++ { direction := d, stage := .leaf, credit := none } :: after ∧
          t.passage.credits = s.passage.credits ∧
          (s.passage.holdOpen = true ∨ s.emergency.line = true →
            Told s t [] ∧ t.journal = s.journal ∧ t.passage.latches = s.passage.latches) ∧
          (s.passage.holdOpen = false → s.emergency.line = false →
            Alarmed s t
              (if s.passage.claim.direction = some (dirOf (farMouth d)) then .reverse
              else if s.passage.leaf = .closed ∨ s.passage.leaf = .fault then .forced else .tailgate)
              (some (sideOf d))))) ∧
      ((∀ x ∈ s.passage.occupants, x.stage ≠ .mouth) →
        (∀ m, 3 ≤ s.passage.occupants.length → s.mouth m = true →
          (s.mouth (otherSide m) = false ∨ s.passage.claim.direction = some (dirOf m)) →
          Alarmed s t .intrusion (some m) ∧ t.passage.occupants = s.passage.occupants ∧
          t.passage.credits = s.passage.credits) ∧
        ((s.pins.mouthU = false ∧ s.pins.mouthP = false) ∨
            (s.pins.mouthU = true ∧ s.pins.mouthP = true ∧ s.passage.claim.direction = none) →
          Alarmed s t .intrusion none ∧ t.passage.occupants = s.passage.occupants ∧
          t.passage.credits = s.passage.credits))

/-- LEAF_CLEAR settles every occupant at LEAF by the mouths as they stand: on to FAR, back to MOUTH, or passed (R128).
The credits of those that go on stay, of those that step back are UNASSIGNED again with a full lifetime, of those that
passed are used, which frees their slots (R120, R129). A deferred closing starts, with one occupant at LEAF, several or
none (R134). -/
def Obligations.LeafClearSettlesTheOccupantsAtLeaf : Prop :=
  ∀ s : State, s.pins.leaf = true →
    ∃ t, exec .leafClear s = .next t ∧ Told s t [] ∧
      t =
        { s with
          pins := { s.pins with leaf := false }, portU := t.portU, portP := t.portP, passage := t.passage,
          host := t.host } ∧
      t.passage.latches = s.passage.latches ∧ t.passage.holdOpen = s.passage.holdOpen ∧
      t.passage.occupants.map (fun o => (o.direction, o.stage)) =
        s.passage.occupants.flatMap (fun o =>
          if o.stage ≠ .leaf then [(o.direction, o.stage)]
          else if s.mouth (farMouth o.direction) = true then [(o.direction, .far)]
          else if s.mouth (sideOf o.direction) = true then [(o.direction, .mouth)]
          else []) ∧
      ((s.passage.occupants.filterMap Occupant.credit).Nodup →
        t.passage.credits =
            (s.passage.credits.filter fun c =>
              !s.passage.occupants.any fun o =>
                o.credit == some c.slot && o.stage == .leaf && !s.mouth (farMouth o.direction)
                  && !s.mouth (sideOf o.direction)).map (fun c =>
              if (s.passage.occupants.any fun o =>
                  o.credit == some c.slot && o.stage == .leaf && !s.mouth (farMouth o.direction)
                    && s.mouth (sideOf o.direction)) = true then
                { c with state := .unassigned (s.clock + 1000 * s.service.params.creditLifetime) }
              else c) ∧
          t.passage.occupants =
            s.passage.occupants.flatMap (fun o =>
              if o.stage ≠ .leaf then [o]
              else if s.mouth (farMouth o.direction) = true then [{ o with stage := .far }]
              else if s.mouth (sideOf o.direction) = true then [{ o with stage := .mouth, credit := none }]
              else [])) ∧
      (s.leavesSettled →
        t.passage.leaf =
          (if s.passage.leaf = .opened ∧ s.emergency.line = false ∧ s.passage.holdOpen = false ∧
              t.passage.credits = [] then
            .closing
          else s.passage.leaf)) ∧
      ((∀ o ∈ s.passage.occupants, o.stage = .leaf →
          s.mouth (farMouth o.direction) = true ∨ s.mouth (sideOf o.direction) = true) →
        t.passage.claim = s.passage.claim ∧ t.portU = s.portU ∧ t.portP = s.portP) ∧
      (s.passage.claim.waitU = false → s.passage.claim.waitP = false →
        t.portU = s.portU ∧ t.portP = s.portP ∧
        ∀ c ∈ s.passage.credits, (∀ x ∈ t.passage.credits, x.slot ≠ c.slot) → t.passage.claim.slot c.slot = none)

/-- MOUTH_CLEAR (R129): occupants at FAR heading to the mouth complete, those at MOUTH withdraw while LEAF is clear and
advance to LEAF while it is occupied; the credits of those that leave are removed, and with no request waiting their
slots stand free. Those that advance take the UNASSIGNED credits of the claim's direction, the oldest first; each that
finds none raises REVERSE, FORCED or TAILGATE unless hold-open or the emergency suppresses it (R127, R130). With
several removals the claim is judged after each, the model's reading (log 13). -/
def Obligations.MouthClearSettlesTheOccupantsOfTheMouth : Prop :=
  ∀ (s : State) (m : Side), s.mouth m = true →
    ∃ t, exec (.mouthClear m) s = .next t ∧
      t.pins =
        (match m with
          | .U => { s.pins with mouthU := false }
          | .P => { s.pins with mouthP := false }) ∧
      t.passage.occupants.map (fun o => (o.direction, o.stage)) =
        s.passage.occupants.flatMap (fun o =>
          if o.stage = .far ∧ farMouth o.direction = m then []
          else if o.stage = .mouth ∧ sideOf o.direction = m then
            if s.pins.leaf = true then [(o.direction, .leaf)] else []
          else [(o.direction, o.stage)]) ∧
      (s.pins.leaf = false →
        Told s t [] ∧
        t = { s with pins := t.pins, portU := t.portU, portP := t.portP, passage := t.passage, host := t.host } ∧
        t.passage.latches = s.passage.latches ∧ t.passage.holdOpen = s.passage.holdOpen ∧
        t.passage.credits =
          s.passage.credits.filter (fun c =>
            !s.passage.occupants.any fun o =>
              o.credit == some c.slot &&
                ((o.stage == .far && farMouth o.direction == m) || (o.stage == .mouth && sideOf o.direction == m))) ∧
        (s.passage.claim.waitU = false → s.passage.claim.waitP = false →
          t.portU = s.portU ∧ t.portP = s.portP ∧
          ∀ c ∈ s.passage.credits, c ∉ t.passage.credits → t.passage.claim.slot c.slot = none)) ∧
      (s.pins.leaf = true → (s.passage.credits.map Credit.slot).Nodup →
        (s.passage.occupants.filterMap Occupant.credit).Nodup →
        (s.passage.claim.direction = none → s.passage.credits = []) → s.leavesSettled →
        ∀ (kept : List Credit) (free : List SlotId) (n : Nat) (kind : AlarmKind),
          kept =
            s.passage.credits.filter (fun c =>
              !s.passage.occupants.any fun o =>
                o.credit == some c.slot && o.stage == .far && farMouth o.direction == m) →
          n = s.passage.occupants.countP (fun o => o.stage == .mouth && sideOf o.direction == m) →
          free =
            (if s.passage.claim.direction = some (dirOf m) then
              ((kept.filter fun c => c.state != .assigned).map Credit.slot).take n
            else []) →
          kind =
            (if s.passage.claim.direction = some (dirOf (otherSide m)) then .reverse
            else if s.passage.leaf = .closed ∨ s.passage.leaf = .fault then .forced else .tailgate) →
          Silent s t ∧
          t =
            { s with
              pins := t.pins, portU := t.portU, portP := t.portP, passage := t.passage, journal := t.journal,
              host := t.host } ∧
          t.passage.credits = kept.map (fun c => if c.slot ∈ free then { c with state := .assigned } else c) ∧
          t.passage.occupants = settledAtMouth m free s.passage.occupants ∧
          t.passage.holdOpen = s.passage.holdOpen ∧ t.passage.leaf = s.passage.leaf ∧
          (s.passage.claim.waitU = false → s.passage.claim.waitP = false →
            t.portU = s.portU ∧ t.portP = s.portP ∧
            ∀ c ∈ s.passage.credits, c ∉ kept → t.passage.claim.slot c.slot = none) ∧
          (n = free.length ∨ s.passage.holdOpen = true ∨ s.emergency.line = true →
            Told s t [] ∧ t.journal = s.journal ∧ t.passage.latches = s.passage.latches) ∧
          (free.length < n → s.passage.holdOpen = false → s.emergency.line = false →
            Latched s t kind (some m) ∧
            (s.journal.halted = true → t.journal = s.journal) ∧
            (s.journal.halted = false → s.roomFor (n - free.length) →
              s.journal.grownBy t.journal s.time.now (List.replicate (n - free.length) (kind.noted (some m))))))

/-- The position switches end their travels and nothing else (R134); a travel that ends in OPEN with the command CLOSED
and LEAF clear closes at once; an outstanding GATE_RESET is answered with the state reached (R136), that before the OPEN
rows apply, which is the model's reading (log 14). -/
def Obligations.SwitchesEndTheTravels : Prop :=
  ∀ s : State,
    (∃ t, exec .openSwitchReached s = .next t ∧
      t = { s with pins := { s.pins with openSwitch := true }, passage := t.passage, host := t.host } ∧
      (∀ k, t.tells k = s.tells k) ∧ t.host.window = s.host.window ∧
      (s.passage.leaf ≠ .opening → t.passage = s.passage ∧ t.formed = s.formed) ∧
      (s.passage.leaf = .opening →
        t.passage =
          { s.passage with
            leaf :=
              if s.passage.holdOpen = true ∨ s.emergency.line = true then .heldOpen
              else if s.passage.credits ≠ [] ∨ s.pins.leaf = true then .opened else .closing,
            travel :=
              if s.passage.holdOpen = true ∨ s.emergency.line = true ∨ s.passage.credits ≠ [] ∨ s.pins.leaf = true then
                none
              else some (s.clock + 1500),
            gateReset := none } ∧
        (s.host.resetTaken = false →
          t.formed =
            s.formed
              ++ s.passage.gateReset.toList.map (fun tag =>
                Reply.inWindow tag .gateReset
                  (.gate (if s.passage.holdOpen = true ∨ s.emergency.line = true then .heldOpen else .opened)))))) ∧
    (∃ t, exec .closedSwitchReached s = .next t ∧
      t = { s with pins := { s.pins with closedSwitch := true }, passage := t.passage, host := t.host } ∧
      (∀ k, t.tells k = s.tells k) ∧ t.host.window = s.host.window ∧
      (s.passage.leaf ≠ .closing → t.passage = s.passage ∧ t.formed = s.formed) ∧
      (s.passage.leaf = .closing →
        t.passage = { s.passage with leaf := .closed, travel := none, gateReset := none } ∧
        (s.host.resetTaken = false →
          t.formed =
            s.formed
              ++ s.passage.gateReset.toList.map (fun tag => Reply.inWindow tag .gateReset (.gate .closed))))) ∧
    ∀ switch, ∃ t, exec (.switchLost switch) s = .next t ∧ Told s t [] ∧
      t =
        { s with
          pins :=
            (match switch with
              | .opened => { s.pins with openSwitch := false }
              | .closed => { s.pins with closedSwitch := false }),
          host := t.host }

/-- The travel timer puts OPENING and CLOSING leaves in FAULT: every credit is cleared and its slot free, with an
UNUSED_CREDIT record of reason GATE_FAULT and, for origin TAP, the lapse request of R89; the GATE_FAULT record and
notice follow, and an outstanding GATE_RESET is answered FAULT (R123, R135, R136). The lapse requests mark the COMMITTED
entries of this gate's own images and queue their LAPSE frames, and nothing else of table and link changes (R89, R112 to
R114). That the GATE_FAULT record comes last is the model's reading (log 46), and that the replies of SYNC_LINEs which
the frames end come before that of the GATE_RESET its choice (log 47). In the other leaf states no travel timer runs. -/
def Obligations.TravelTimeoutIsALeafFault : Prop :=
  ∀ s : State,
    (s.passage.leaf ≠ .opening → s.passage.leaf ≠ .closing →
      ∃ t, exec .travelTimeout s = .next t ∧ Told s t [] ∧ t = { s with host := t.host }) ∧
    ∀ travel,
      s.passage.leaf =
        (match travel with
          | .opening => LeafState.opening
          | .closing => LeafState.closing) →
      ∃ t, exec .travelTimeout s = .next t ∧ t.passage.leaf = .fault ∧ t.passage.travel = none ∧
        t.passage.credits = [] ∧ (∀ c ∈ s.passage.credits, t.passage.claim.slot c.slot = none) ∧
        t.passage.lastFault = some travel ∧ t.passage.gateReset = none ∧
        t.passage.holdOpen = s.passage.holdOpen ∧ t.passage.latches = s.passage.latches ∧
        t.tells .gateFault = true ∧ t.pins = s.pins ∧ t.time = s.time ∧ t.service = s.service ∧
        t.emergency = s.emergency ∧ t.portU = s.portU ∧ t.portP = s.portP ∧
        (s.passage.credits = [] →
          t = { s with passage := t.passage, journal := t.journal, host := t.host } ∧
          t.passage.occupants = s.passage.occupants ∧ t.passage.claim = s.passage.claim) ∧
        Journals s t
          (s.faultRecords s.link s.passage.credits
            ++ [{ kind := .gateFault,
                  reason := some (match travel with
                    | .opening => .opening
                    | .closing => .closing) }]) ∧
        Lapsed s t s.passage.credits ∧ t.link = s.link.withFrames (s.passage.credits.flatMap s.lapseFrames) ∧
        t.formed =
          s.formed ++ s.syncAnswers (s.passage.credits.flatMap s.lapseFrames)
            ++ (if s.host.resetTaken = true then []
                else s.passage.gateReset.toList.map fun tag => Reply.inWindow tag .gateReset .fault)

/-- An UNASSIGNED credit that reaches its deadline leaves the list, frees its slot (R120), is recorded EXPIRED, and for
origin TAP sets the lapse mark and queues the LAPSE frame of a COMMITTED entry of this gate's own image (R89, R112 to
R114, R122). In every other case, a credit of another origin, a card without an entry, an entry that is PENDING_LOCAL,
IN_DOUBT or a peer's, no mark is set and no frame is queued. -/
def Obligations.CreditExpiryRecordsAndLapses : Prop :=
  ∀ (s : State) (k : SlotId),
    ((∀ c ∈ s.passage.credits, c.slot = k → c.state = .assigned) →
      ∃ t, exec (.creditExpiry k) s = .next t ∧ Told s t [] ∧ t = { s with host := t.host }) ∧
    ∀ before c after, s.passage.credits = before ++ c :: after → c.slot = k → c.state ≠ .assigned →
      (∀ x ∈ before ++ after, x.slot ≠ k) →
      ∃ t, exec (.creditExpiry k) s = .next t ∧ t.passage.credits = before ++ after ∧
        t.pins = s.pins ∧ t.time = s.time ∧ t.service = s.service ∧ t.emergency = s.emergency ∧
        t.passage.latches = s.passage.latches ∧
        t.passage.occupants.map Occupant.stage = s.passage.occupants.map Occupant.stage ∧
        (s.passage.claim.waitU = false → s.passage.claim.waitP = false →
          t.passage.claim.slot k = none ∧ t.portU = s.portU ∧ t.portP = s.portP) ∧
        Journals s t (c.unused .expired :: s.link.dropRecords (s.lapseFrames c)) ∧
        Lapsed s t [c] ∧ t.link = s.link.withFrames (s.lapseFrames c) ∧
        t.formed = s.formed ++ s.syncAnswers (s.lapseFrames c) ∧
        ((∀ serial card e st, c.origin = .tap serial card → s.screening.sighted card = some e →
            e.state = .committed st → st.origin ≠ .own) →
          t.screening = s.screening ∧ t.link = s.link ∧ t.formed = s.formed ∧ Journals s t [c.unused .expired]) ∧
        ∀ serial card e st, c.origin = .tap serial card → s.screening.sighted card = some e →
          e.state = .committed st → st.origin = .own →
          t.screening.sighted card =
              some
                { e with
                  state :=
                    .committed
                      { st with
                        lapse :=
                          some
                            { side := sideOf c.direction, deadline := s.time.now + s.service.params.regrantWindow } } } ∧
            t.link = s.link.withFrame (.lapse card e.baseline (sideOf c.direction)) ∧
            ∃ q ∈ t.link.queue, q.msg = .lapse card e.baseline (sideOf c.direction)

/-- A waiting request is granted when the conditions of R118 hold for it; of two that both meet them, the one whose
direction was not granted last (R119). The port enters READING, its deadline going on with the time it had left, and
asks for the header (R11 to R13). That the row SLOT_GRANT judges them again is the model's reading (log 6); that the
header is asked for at once, a SUMMON in flight abandoned, is its choice (log 41). -/
def Obligations.WaitingRequestsAreGrantedByTurns : Prop :=
  ∀ s : State,
    (∀ side k, s.passage.claim.waits side = true → s.grantable (dirOf side) = true →
      (s.passage.claim.waits (otherSide side) = true → s.grantable (dirOf (otherSide side)) = true →
        s.passage.claim.lastGranted = dirOf (otherSide side)) →
      (if s.passage.claim.slot1 = none then k = .one else k = .two) →
      ∃ t, exec .slotGrant s = .next t ∧ Told s t [] ∧
        t = { s with portU := t.portU, portP := t.portP, passage := t.passage, host := t.host } ∧
        t.passage = { s.passage with claim := t.passage.claim } ∧
        t.passage.claim =
          { (s.passage.claim.setWait side false).setSlot k (some (.context side)) with
            direction := some (dirOf side), lastGranted := dirOf side } ∧
        t.port (otherSide side) = s.port (otherSide side) ∧
        t.port side =
          { s.port side with
            state := .reading, attempts := 0, aisleWait := none,
            exchange := some { request := .fetch .header, windowError := false, earlierError := false },
            deadline :=
              (match (s.port side).deadline with
                | .paused left => .running (s.clock + left)
                | .running until_ => .running until_
                | .stopped => .stopped),
            ctx := (s.port side).ctx.map fun c => { c with path := some .normal, slot := some k } }) ∧
    ((∀ side, ¬(s.passage.claim.waits side = true ∧ s.grantable (dirOf side) = true)) →
      ∃ t, exec .slotGrant s = .next t ∧ Told s t [] ∧ t = { s with host := t.host }) ∧
    ∀ d, s.grantable d = true ↔
      (s.passage.claim.direction = none ∨ s.passage.claim.direction = some d) ∧
      (s.passage.claim.slot1 = none ∨ s.passage.claim.slot2 = none) ∧ s.passage.leaf ≠ .fault ∧
      ∀ o ∈ s.passage.occupants, o.direction = d

/-! ## The reader ports (R7 to R24) -/

/-- An OK answer to a SUMMON (R9 to R12, R22, R30): in IDLE a detection with checks 1 to 3, or the refusal of several
cards; in WAIT_AISLE the card is still there, replaced, or joined by another; in DONE it keeps the port there. A port
to be disabled enters DISABLED after such an end, the model's reading (log 32); in SUSPENDING, with the other port idle,
the end of a tap completes the drain (R167). -/
def Obligations.SummonAnswersActByPortState : Prop :=
  ∀ (s : State) (side : Side) (card : CardNo) (collided : Bool) (x : Exchange),
    (s.port side).exchange = some x → x.request = .summon →
    ∃ t, exec (.summonAnswer side card collided) s = .next t ∧
      ((s.port side).state ≠ .waitAisle → t.port (otherSide side) = s.port (otherSide side)) ∧
      ((s.port side).state = .done ∨ (s.port side).state = .disabled →
        Told s t [] ∧ t = { s with portU := t.portU, portP := t.portP, host := t.host } ∧
        t.port side = { s.port side with exchange := none }) ∧
      ((s.port side).state = .idle → collided = true → Refused s t side .multipleCards none none) ∧
      ((s.port side).state = .idle → collided = false →
        (s.service.state ≠ .inService →
          TapGone s t side ∧
          t = { s with portU := t.portU, portP := t.portP, service := t.service, host := t.host } ∧
          t.port side =
            { s.port side with
              state := .disabled, exchange := none, deadline := .stopped, aisleWait := none, ctx := none }) ∧
        (s.service.state = .inService → s.journal.halted = true → s.holdsNoEntry side (some card) →
          Refused s t side .journalFull (some card) none) ∧
        (s.service.state = .inService → s.journal.halted = false → s.emergency.line = true →
          (side = .U → s.holdsNoEntry side (some card) → Refused s t side .emergency (some card) none) ∧
          (side = .P →
            Told s t [] ∧ t = { s with portP := t.portP, host := t.host } ∧
            t.portP =
              { s.portP.asking .reading (.fetch .header) with
                deadline := .running (s.clock + 300), aisleWait := none,
                ctx := some { TapContext.fresh side (some card) with path := some .freeExit } })) ∧
        (s.service.state = .inService → s.journal.halted = false → s.emergency.line = false →
          Told s t [] ∧ t = { s with portU := t.portU, portP := t.portP, passage := t.passage, host := t.host } ∧
          t.passage = { s.passage with claim := t.passage.claim } ∧
          (∀ k, s.grantable (dirOf side) = true → (if s.passage.claim.slot1 = none then k = .one else k = .two) →
            t.passage.claim =
              { (s.passage.claim.setWait side false).setSlot k (some (.context side)) with
                direction := some (dirOf side), lastGranted := dirOf side } ∧
            t.port side =
              { (s.port side).asking .reading (.fetch .header) with
                deadline := .running (s.clock + 300), aisleWait := none,
                ctx := some { TapContext.fresh side (some card) with path := some .normal, slot := some k } }) ∧
          (s.grantable (dirOf side) = false →
            t.passage.claim = s.passage.claim.setWait side true ∧
            t.port side =
              { s.port side with
                state := .waitAisle, exchange := none, deadline := .paused 300,
                aisleWait := some (s.clock + 1000 * s.service.params.aisleWait),
                ctx := some (TapContext.fresh side (some card)) }))) ∧
      ((s.port side).state = .waitAisle → ∀ c, (s.port side).ctx = some c → c.side = side → c.slot = none →
        t.port (otherSide side) = s.port (otherSide side) ∧
        (collided = true → s.holdsNoEntry side c.card →
          Refused s t side .multipleCards c.card (c.image.map fun i => i.image.balance) ∧
          t.passage.claim.waits side = false) ∧
        (collided = false → c.card = some card →
          Told s t [] ∧ t = { s with portU := t.portU, portP := t.portP, host := t.host } ∧
          t.port side = { s.port side with exchange := none }) ∧
        (collided = false → c.card ≠ some card →
          TapGone s t side ∧
          t =
            { s with
              portU := t.portU, portP := t.portP, passage := t.passage, service := t.service, host := t.host } ∧
          t.passage = { s.passage with claim := s.passage.claim.setWait side false } ∧
          t.port side =
            { s.port side with
              state := if s.disabled side = true then .disabled else .done,
              exchange := none, deadline := .stopped, aisleWait := none, ctx := none }))

/-- READING fetches the header, then both images; a header that R1 does not accept is refused CARD_UNREADABLE; with the
last area the tap time is taken and checks 5 to 9 follow in order (R5, R13, R14, R20, R32, R33; what makes a header
accepted, an image valid and the current one is said by CardAreasAreJudgedByTheirRules). Check 10 ends in a CLONE with
its blocking write, during which STOP is lit (R24, R79, R81 to R83), or grants a REGRANT or RECOVERED passage (R80,
R82); check 11 refuses, or grants EXIT_GRACE or FREE without a write (R44, R86). The frame of each of these joins the
queue by R112 to R114, and the rest of the link stays; in SUSPENDING, with the other port idle, each end of the tap
completes the drain (R167), its replies after those of SYNC_LINEs by log 47. Each image is judged as its area is
received, the model's reading (log 15); entries are numbered by log 17, and a STOP hold runs on through a success by log
39. -/
def Obligations.ReadingLeadsToTheChecksInOrder : Prop :=
  (∀ (s : State) (side : Side) (c : TapContext) (card : CardNo) (x : Exchange) (content : List Byte),
    (s.port side).state = .reading → (s.port side).exchange = some x → (s.port side).ctx = some c →
    c.card = some card → c.side = side → s.holdsNoEntry side (some card) →
    (x.request = .fetch .header → content.length = 8 →
      ∃ t, exec (.fetchAnswer side .header content) s = .next t ∧
        (∀ h, Header.accept card content = some h →
          Told s t [] ∧ t = { s with portU := t.portU, portP := t.portP, host := t.host } ∧
          t.port (otherSide side) = s.port (otherSide side) ∧
          t.port side =
            { (s.port side).asking .reading (.fetch .imageA) with ctx := some { c with header := some h } }) ∧
        (Header.accept card content = none →
          Refused s t side .cardUnreadable (some card) (c.image.map fun i => i.image.balance))) ∧
    (∀ h, c.header = some h → content.length = 40 →
      (x.request = .fetch .imageA →
        ∃ t, exec (.fetchAnswer side .imageA content) s = .next t ∧
          Told s t [] ∧ t = { s with portU := t.portU, portP := t.portP, host := t.host } ∧
          t.port (otherSide side) = s.port (otherSide side) ∧
          t.port side =
            { (s.port side).asking .reading (.fetch .imageB) with
              ctx := some { c with areaA := some (s.service.readArea card content) } }) ∧
      (x.request = .fetch .imageB → c.image = none →
        ∃ t, exec (.fetchAnswer side .imageB content) s = .next t ∧
          (h.status = .blocked → Refused s t side .blocked (some card) none) ∧
          (h.status = .active → (s.service.classes.get h.cls).valid = false →
            Refused s t side .classUnknown (some card) none) ∧
          (h.status = .active → (s.service.classes.get h.cls).valid = true →
            (h.expiry < s.time.serviceDay s.time.now → Refused s t side .expired (some card) none) ∧
            (s.time.serviceDay s.time.now ≤ h.expiry →
              (∀ e, s.screening.denied card = some e →
                (e.action = .refuse → Refused s t side .denied (some card) none) ∧
                (e.action = .refuseAndBlock →
                  Told s t [] ∧ t = { s with portU := t.portU, portP := t.portP, host := t.host } ∧
                  t.port (otherSide side) = s.port (otherSide side) ∧
                  t.port side =
                    { (s.port side).asking .writing (.store .header { h with status := .blocked }.bytes) with
                      deadline := .stopped,
                      ctx :=
                        some
                          { c with
                            areaB := some (s.service.readArea card content), tapTime := some s.time.now,
                            verdict := some (.refused .denied) } } ∧
                  (t.lamps side).stop = true)) ∧
              (s.screening.denied card = none →
                ∀ reason,
                  chooseImage (c.areaA.bind AreaRead.valid) (s.service.readArea card content).valid = .refuse reason →
                  Refused s t side reason (some card) none)))))) ∧
  ∀ (s : State) (side : Side) (c : TapContext) (card : CardNo) (h : Header) (i : ImageRead) (content : List Byte),
    s.ReachesCheckTen side c card h i content →
    (∀ e, s.screening.sighted card = some e → e.Cloned i.image.seen →
      ∃ t, exec (.fetchAnswer side .imageB content) s = .next t ∧ CloneFound s t card ∧
        t =
          { s with
            portU := t.portU, portP := t.portP, screening := t.screening, link := t.link, journal := t.journal,
            host := t.host } ∧
        t.port (otherSide side) = s.port (otherSide side) ∧ (t.lamps side).stop = true ∧
        t.port side =
          { (s.port side).asking .writing (.store .header { h with status := .blocked }.bytes) with
            deadline := .stopped,
            ctx := some { c.screened s card content i .clone with verdict := some (.refused .clone) } } ∧
        (∀ o, o ≠ card → t.screening.sighted o = s.screening.sighted o) ∧
        (∀ p, e.state = .pendingLocal p →
          t.screening.sighted card = some { e with state := .pendingLocal { p with cloneMark := true } }) ∧
        ((∀ p, e.state ≠ .pendingLocal p) → t.screening.sighted card = some e) ∧
        t.link = s.link.withFrame (.denyAdd card) ∧ t.formed = s.formed ++ s.syncAnswers [.denyAdd card] ∧
        Journals s t (s.link.dropRecords [.denyAdd card])) ∧
    (∀ e st m, s.screening.sighted card = some e → e.state = .committed st → e.baseline = i.image.seen →
      st.lapse = some m → m.side = side → s.time.now ≤ m.deadline →
      ∃ t, exec (.fetchAnswer side .imageB content) s = .next t ∧
        Granted s t side c .regrant i.image.balance .regrant [.regrant card i.image.seen]
          (s.link.dropRecords [.regrant card i.image.seen]
            ++ [{ kind := .regrant, side := some side, card := some card, txc := some i.image.txc }]) ∧
        t.screening.deny = s.screening.deny ∧
        (s.passage.leaf ≠ .fault ∨ s.passage.credits = [] →
          (∃ order, t.screening.sighted card =
            some
              { e with
                updated := s.time.now, touched := order,
                state := .committed { st with lapse := none, regranted := true } }) ∧
          (∀ o, o ≠ card → t.screening.sighted o = s.screening.sighted o) ∧
          ∃ q ∈ t.link.queue, q.msg = .regrant card i.image.seen)) ∧
    (∀ e stored serial, s.screening.sighted card = some e → e.state = .inDoubt stored serial →
      i.image.seen ≠ e.baseline → i.image.seen = stored →
      ∃ t, exec (.fetchAnswer side .imageB content) s = .next t ∧
        Granted s t side c .recovered i.image.balance .recovered [.sighting card e.baseline stored]
          ({ kind := .resolved, card := some card, related := some serial, outcome := some .committed,
             txc := some stored.txc, side := some side, balance := some i.image.balance } ::
            s.link.dropRecords [.sighting card e.baseline stored]) ∧
        t.screening.deny = s.screening.deny ∧
        (s.passage.leaf ≠ .fault ∨ s.passage.credits = [] →
          (∃ order, t.screening.sighted card =
            some
              { e with
                baseline := stored, updated := s.time.now, touched := order,
                state := .committed { origin := .own, lapse := none, regranted := false } }) ∧
          (∀ o, o ≠ card → t.screening.sighted o = s.screening.sighted o) ∧
          ∃ q ∈ t.link.queue, q.msg = .sighting card e.baseline stored)) ∧
    ∀ prior records, s.Clears side card i prior records →
      (ruleTap s.service s.time side (c.path.getD .normal) (s.service.classes.get h.cls) s.time.now i.image =
          .exitGrace →
        ∃ t, exec (.fetchAnswer side .imageB content) s = .next t ∧
          Granted s t side c .exitGrace i.image.balance .grace []
            (records
              ++ [{ kind := .exitGrace, side := some side, card := some card, balance := some i.image.balance }]) ∧
          t.screening.deny = s.screening.deny ∧
          (s.passage.leaf ≠ .fault ∨ s.passage.credits = [] → t.SetBack card i.image.seen prior)) ∧
      (ruleTap s.service s.time side (c.path.getD .normal) (s.service.classes.get h.cls) s.time.now i.image = .free →
        ∃ t, exec (.fetchAnswer side .imageB content) s = .next t ∧
          TapClosed s t side
            { outcome := .free, card := some card, fare := none, balance := some i.image.balance } [] ∧
          t.passage.credits = s.passage.credits ∧ t.screening.deny = s.screening.deny ∧
          t.SetBack card i.image.seen prior ∧ Journals s t records) ∧
      ∀ reason,
        ruleTap s.service s.time side (c.path.getD .normal) (s.service.classes.get h.cls) s.time.now i.image =
          .refuse reason →
        ∃ t, exec (.fetchAnswer side .imageB content) s = .next t ∧
          TapClosed s t side
            { outcome := .refused reason, card := some card, fare := none, balance := some i.image.balance } [] ∧
          (t.port side).stopHold = some (s.clock + 2000) ∧ t.passage.credits = s.passage.credits ∧
          t.screening.deny = s.screening.deny ∧ t.SetBack card i.image.seen prior ∧
          Journals s t
            (records
              ++ if reason = .journalFull then []
                else
                  [{ kind := .refusal, side := some side, card := some card, reason := some (.refusal reason),
                     balance := some i.image.balance }])

/-- A tap that check 10 finds CLEAR, against each state of the card's entry (R79, R82), and that check 11 lets write
forms its new image, its txc one greater than the image read's, its scheme the CURRENT slot and its stamp the one
correct for that slot over the card number and the other fields, holds the card's entry PENDING_LOCAL with its STORE
sent, and stores the image in the other slot (R6, R16, R84). An entry that stood IN_DOUBT leaves its RESOLVED record
(R77); a new entry is numbered by log 17. -/
def Obligations.ATapThatPassesStoresItsNewImage : Prop :=
  ∀ (s : State) (side : Side) (c : TapContext) (card : CardNo) (content : List Byte) (h : Header) (i : ImageRead)
    (d : Decision) (body img : Image) (k : Nat) (prior : Option Standing) (records : List RecBody),
    s.ReachesCheckTen side c card h i content → s.Clears side card i prior records →
    ruleTap s.service s.time side (c.path.getD .normal) (s.service.classes.get h.cls) s.time.now i.image =
      .write d body →
    1 ≤ k → k ≤ 4 → (∀ m, 1 ≤ m → m ≤ 4 → (s.service.schemes.get m = .current ↔ m = k)) →
    img = { body with txc := i.image.txc + 1, scheme := k, stamp := img.stamp } →
    img.stamp = Config.stampOf k (stampInput card img.covered) →
    ∃ t, exec (.fetchAnswer side .imageB content) s = .next t ∧ Silent s t ∧ (records = [] → Told s t []) ∧
      t =
        { s with
          portU := t.portU, portP := t.portP, screening := t.screening, journal := t.journal, host := t.host } ∧
      t.port (otherSide side) = s.port (otherSide side) ∧
      t.port side =
        { (s.port side).asking .writing (.store i.slot.other.area img.bytes) with
          ctx :=
            some
              { c.screened s card content i .clear with
                decision := some d, newImage := some img, storeSent := true } } ∧
      s.journal.grownBy t.journal s.time.now records ∧ t.screening.deny = s.screening.deny ∧
      (∃ e, t.screening.sighted card = some e ∧ e.card = card ∧ e.baseline = i.image.seen ∧
        e.state =
          .pendingLocal { side := side, prior := prior, stored := some img.seen, cloneMark := false, held := none } ∧
        (prior = none → e.updated = s.time.now) ∧
        ∀ x, s.screening.sighted card = some x → prior ≠ none → e.updated = x.updated) ∧
      (s.screening.sightings.length < 1024 → ∀ o, o ≠ card → t.screening.sighted o = s.screening.sighted o) ∧
      (s.screening.sighted card = none → s.screening.sightings.length < 1024 →
        t.screening.sightings.length = s.screening.sightings.length + 1)

/-- A matching readback commits the tap (R17, R43, R45, R85): the commit record comes first, the entry is COMMITTED at
the new image, the SIGHTING frame is queued, and an unmarked held update is applied to the entry (R88, R92): `fate` is
what comes of it, `frames` are the frames that all this queues, by R112 to R114, and no other record, frame or reply
follows but the replies of the drain that the end completes (R167; after those of SYNC_LINEs, log 47). With the clone
mark clear the tap result follows, a STOP hold running on (log 39). On the NORMAL path outside an emergency a credit is
formed on the context's slot; else none is, and the slot is released (R43). In leaf FAULT the credit is cleared at once
with its UNUSED_CREDIT record, and the lapse mark is set with its LAPSE frame or not, as it falls (R89, R121, R123, log
9). With the mark set the record carries CLONE, no credit is formed, the slot is released, and the CLONE effects and the
blocking write follow (R17, R20, R83), STOP lit (R24). -/
def Obligations.AMatchingReadbackCommits : Prop :=
  ∀ (s : State) (side : Side) (c : TapContext) (card : CardNo) (i : ImageRead) (d : Decision) (img : Image)
    (e : Sighting) (p : PendingTap) (fate : HeldEnd) (frames : List LinkMsg) (commit : RecBody),
    s.ReadsBack side c card i d img e p → fate = heldEnd p.applies card (some img.seen) →
    frames = .sighting card e.baseline img.seen :: (cloneFrames p.cloneMark card ++ fate.frames card) →
    commit =
      { kind := d.kind.record, side := some side, card := some card, txc := some img.txc, fare := some d.charge,
        balance := some img.balance, reason := if p.cloneMark = true then some .clone else none } →
    ∃ t, exec (.fetchAnswer side i.slot.other.area img.bytes) s = .next t ∧
      (p.cloneMark = false →
        TapEnded s t side
          { outcome := .committed d.kind, card := some card, fare := some d.charge, balance := some img.balance } ∧
        (t.port side).stopHold = (s.port side).stopHold ∧
        (c.slot = none → t.passage = s.passage ∧ t.port (otherSide side) = s.port (otherSide side)) ∧
        (∀ k, c.slot = some k → c.path ≠ some .normal ∨ s.emergency.line = true →
          t.passage.credits = s.passage.credits ∧
          (s.passage.claim.waitU = false → s.passage.claim.waitP = false →
            t.passage.claim.slot k = none ∧ t.port (otherSide side) = s.port (otherSide side))) ∧
        (∀ k, c.slot = some k → c.path = some .normal → s.emergency.line = false → s.passage.leaf ≠ .fault →
          CreditFormed s t k (dirOf side) (.tap s.journal.nextSerial card) ∧
          t.port (otherSide side) = s.port (otherSide side)) ∧
        (∀ k, c.slot = some k → c.path = some .normal → s.emergency.line = false → s.passage.leaf = .fault →
          t.passage.credits = [] ∧
          (s.passage.credits = [] →
            t.passage.claim.slot k = none ∧ t.passage.leaf = .fault ∧
            t.port (otherSide side) = s.port (otherSide side) ∧
            (∀ o, o ≠ card → t.screening.sighted o = s.screening.sighted o) ∧
            (fate.isLate = true → LateFound s t card 1) ∧ (fate.isLate = false → NoFinding s t) ∧
            ∃ commitFirst lapseFrames order unused,
              unused =
                { kind := .unusedCredit, side := some side, reason := some .gateFault, card := some card,
                  related := some s.journal.nextSerial } ∧
              lapseFrames =
                (if commitFirst = true ∧ fate.isAdopted = false then [.lapse card img.seen side] else []) ∧
              t.screening.sighted card =
                fate.leaves card img.seen
                  (some
                    { origin := .own, regranted := false,
                      lapse :=
                        if commitFirst = true then
                          some { side := side, deadline := s.time.now + s.service.params.regrantWindow }
                        else none })
                  s.time.now order ∧
              t.link = s.link.withFrames (frames ++ lapseFrames) ∧
              t.formed = s.formed ++ s.syncAnswers (frames ++ lapseFrames) ++ s.drainAnswers side ∧
              Journals s t
                (commit ::
                  if commitFirst = true then
                    s.link.dropRecords frames ++ fate.records card ++ [unused]
                      ++ (s.link.withFrames frames).dropRecords lapseFrames
                  else unused :: s.link.dropRecords frames ++ fate.records card))) ∧
        (c.slot = none ∨ c.path ≠ some .normal ∨ s.emergency.line = true ∨ s.passage.leaf ≠ .fault →
          (∃ order,
            t.screening.sighted card =
              fate.leaves card img.seen (some { origin := .own, lapse := none, regranted := false }) s.time.now order) ∧
          (∀ o, o ≠ card → t.screening.sighted o = s.screening.sighted o) ∧
          (fate.isLate = true → LateFound s t card 1) ∧ (fate.isLate = false → NoFinding s t) ∧
          t.link = s.link.withFrames frames ∧
          t.formed = s.formed ++ s.syncAnswers frames ++ s.drainAnswers side ∧
          Journals s t (commit :: s.link.dropRecords frames ++ fate.records card))) ∧
      (p.cloneMark = true → ∀ h, c.header = some h → s.passage.claim.waits side = false →
        t.port side =
          { (s.port side).asking .writing (.store .header { h with status := .blocked }.bytes) with
            deadline := .stopped,
            ctx := some { c with slot := none, cloneSeen := true, verdict := some .committedClone } } ∧
        (t.lamps side).stop = true ∧ t.host.tapU = s.host.tapU ∧ t.host.tapP = s.host.tapP ∧
        t.service = s.service ∧ t.passage.credits = s.passage.credits ∧
        (∀ k, c.slot = some k → s.passage.claim.waitU = false → s.passage.claim.waitP = false →
          t.passage.claim.slot k = none) ∧
        (∃ order,
          t.screening.sighted card =
            fate.leaves card img.seen (some { origin := .own, lapse := none, regranted := false }) s.time.now order) ∧
        (∀ o, o ≠ card → t.screening.sighted o = s.screening.sighted o) ∧
        (fate.isLate = false → CloneFound s t card) ∧ (fate.isLate = true → LateFound s t card 2) ∧
        t.link = s.link.withFrames frames ∧ t.formed = s.formed ++ s.syncAnswers frames ∧
        Journals s t (commit :: s.link.dropRecords frames ++ fate.records card))

/-- Polls, STORE answers, closing windows and readbacks (R7 to R9, R12, R13, R16 to R20): a poll starts a SUMMON in
IDLE, WAIT_AISLE and DONE where no exchange is in flight (log 33); an answer outside an exchange is discarded, and one
that does not fit the request in flight by kind, area or length is of class CHECK and leaves the exchange open (R8,
R194); a STORE that ends leads to its readback; a failed attempt adds one to the count, and below 3 the request is sent
again; a FETCH that fails is CARD_UNREADABLE in READING and IN_DOUBT at a readback; a SUMMON is not retried on silence
in IDLE and DONE, which adds nothing to the count (log 38), and is in WAIT_AISLE, where the third silence ends the tap
(to DISABLED where the port is to be, log 32). A readback that differs looks at the old area: unchanged, the first time,
the STORE is sent again; else the tap is void, WRITE_FAILED or CLONE, its entry set back (R86; first in the step, log
10) and a held update, marking or not, applied to what that leaves (R88, R92), and clone mark seen set with CLONE (log
51). A tap IN_DOUBT has its entry converted, within the in-doubt limit (R87). A blocking write ends with its
CARD_BLOCKED record and the verdict fixed before it. In SUSPENDING, with the other port idle, each end of a tap
completes the drain (R167), its replies after those of SYNC_LINEs by log 47; that the record of a refusal comes before
those of its held update is the model's choice (log 40). -/
def Obligations.ExchangesStartAreRetriedAndEnd : Prop :=
  ∀ (s : State) (side : Side),
    (∃ t, exec (.pollTimer side) s = .next t ∧ Told s t [] ∧
        t = { s with portU := t.portU, portP := t.portP, host := t.host } ∧
        t.port (otherSide side) = s.port (otherSide side) ∧
        t.port side =
          if ((s.port side).state = .idle ∨ (s.port side).state = .waitAisle ∨ (s.port side).state = .done) ∧
              (s.port side).exchange = none then
            (s.port side).asking (s.port side).state .summon
          else s.port side) ∧
    ((s.port side).exchange = none →
      ∀ card collided area content seen c,
        c ∈ [Instr.summonAnswer side card collided, .fetchAnswer side area content, .storeAnswer side area,
          .answerWindowClose side seen] →
        ∃ t, exec c s = .next t ∧ Told s t [] ∧ t = { s with host := t.host }) ∧
    (∀ x c, (s.port side).exchange = some x →
      ((∃ card collided, c = Instr.summonAnswer side card collided ∧ x.request ≠ .summon) ∨
        (∃ area content, c = Instr.fetchAnswer side area content ∧
          (x.request = .fetch area → content.length ≠ if area = .header then 8 else 40)) ∨
        (∃ area, c = Instr.storeAnswer side area ∧ ∀ bytes, x.request ≠ .store area bytes)) →
      ∃ t, exec c s = .next t ∧ Told s t [] ∧ t = { s with portU := t.portU, portP := t.portP, host := t.host } ∧
        t.port (otherSide side) = s.port (otherSide side) ∧
        t.port side = { s.port side with exchange := some { x with windowError := true } }) ∧
    (∀ x area bytes, (s.port side).exchange = some x → x.request = .store area bytes →
      (∃ t, exec (.storeAnswer side area) s = .next t ∧ Told s t [] ∧
        t = { s with portU := t.portU, portP := t.portP, host := t.host } ∧
        t.port (otherSide side) = s.port (otherSide side) ∧
        t.port side = (s.port side).asking .confirming (.fetch area)) ∧
      ∀ seen, 2 ≤ (s.port side).attempts →
        ∃ t, exec (.answerWindowClose side seen) s = .next t ∧ Told s t [] ∧
          t = { s with portU := t.portU, portP := t.portP, host := t.host } ∧
          t.port (otherSide side) = s.port (otherSide side) ∧
          t.port side = (s.port side).asking .confirming (.fetch area)) ∧
    (∀ x seen, (s.port side).exchange = some x → x.request ≠ .summon → (s.port side).attempts < 2 →
      ∃ t, exec (.answerWindowClose side seen) s = .next t ∧ Told s t [] ∧
        t = { s with portU := t.portU, portP := t.portP, host := t.host } ∧
        t.port (otherSide side) = s.port (otherSide side) ∧
        t.port side =
          { s.port side with
            attempts := (s.port side).attempts + 1,
            exchange :=
              some
                { x with
                  windowError := false,
                  earlierError := x.earlierError || x.windowError || seen.isSome } }) ∧
    (∀ x area seen c, (s.port side).exchange = some x → x.request = .fetch area → 2 ≤ (s.port side).attempts →
      (s.port side).state = .reading → (s.port side).ctx = some c → c.side = side → s.holdsNoEntry side c.card →
      ∃ t, exec (.answerWindowClose side seen) s = .next t ∧
        Refused s t side .cardUnreadable c.card (c.image.map fun i => i.image.balance)) ∧
    (∀ x, (s.port side).exchange = some x → x.request = .summon → x.windowError = false →
      (s.port side).state = .idle ∨ ((s.port side).state = .done ∧ x.earlierError = false) →
      ∃ t, exec (.answerWindowClose side none) s = .next t ∧ Told s t [] ∧
        t = { s with portU := t.portU, portP := t.portP, host := t.host } ∧
        t.port (otherSide side) = s.port (otherSide side) ∧
        t.port side = { s.port side with state := .idle, exchange := none }) ∧
    (∀ x error, (s.port side).exchange = some x → x.request = .summon →
      (s.port side).state = .idle ∨ (s.port side).state = .done →
      ∃ t, exec (.answerWindowClose side (some error)) s = .next t ∧ Told s t [] ∧
        t = { s with portU := t.portU, portP := t.portP, host := t.host } ∧
        t.port (otherSide side) = s.port (otherSide side) ∧
        t.port side =
          { s.port side with
            attempts := (s.port side).attempts + 1,
            exchange :=
              if (s.port side).attempts < 2 then some { x with windowError := false, earlierError := true } else none }) ∧
    (∀ x seen, (s.port side).exchange = some x → x.request = .summon → (s.port side).state = .waitAisle →
      ∃ t, exec (.answerWindowClose side seen) s = .next t ∧
        t.port (otherSide side) = s.port (otherSide side) ∧
        ((s.port side).attempts < 2 →
          Told s t [] ∧ t = { s with portU := t.portU, portP := t.portP, host := t.host } ∧
          t.port side =
            { s.port side with
              attempts := (s.port side).attempts + 1,
              exchange :=
                some
                  { x with
                    windowError := false,
                    earlierError := x.earlierError || x.windowError || seen.isSome } }) ∧
        (2 ≤ (s.port side).attempts →
          ((x.earlierError || x.windowError || seen.isSome) = true →
            Told s t [] ∧ t = { s with portU := t.portU, portP := t.portP, host := t.host } ∧
            t.port side = { s.port side with attempts := (s.port side).attempts + 1, exchange := none }) ∧
          ((x.earlierError || x.windowError || seen.isSome) = false →
            TapGone s t side ∧
            t =
              { s with
                portU := t.portU, portP := t.portP, passage := t.passage, service := t.service, host := t.host } ∧
            t.passage = { s.passage with claim := s.passage.claim.setWait side false } ∧
            t.port side =
              { s.port side with
                state := if s.disabled side = true then .disabled else .idle,
                attempts := (s.port side).attempts + 1, exchange := none, deadline := .stopped, aisleWait := none,
                ctx := none }))) ∧
    (∀ x c, (s.port side).state = .confirming → (s.port side).exchange = some x → (s.port side).ctx = some c →
      c.side = side →
      (∀ area seen, x.request = .fetch area → area ≠ .header → 2 ≤ (s.port side).attempts →
        ∃ t, exec (.answerWindowClose side seen) s = .next t ∧ EndedInDoubt s t side c) ∧
      (∀ (card : CardNo) (h : Header) (i : ImageRead) (d : Decision) (img : Image) (content : List Byte),
        c.card = some card → c.header = some h → c.image = some i → c.decision = some d → c.newImage = some img →
        content.length = 40 →
        (x.request = .fetch i.slot.other.area → content ≠ img.bytes →
          ∃ t, exec (.fetchAnswer side i.slot.other.area content) s = .next t ∧ Told s t [] ∧
            t = { s with portU := t.portU, portP := t.portP, host := t.host } ∧
            t.port (otherSide side) = s.port (otherSide side) ∧
            t.port side = (s.port side).asking .confirming (.fetch i.slot.area)) ∧
        (x.request = .fetch i.slot.area →
          (c.areaBytes i.slot = some content → c.storeRetried = false →
            ∃ t, exec (.fetchAnswer side i.slot.area content) s = .next t ∧ Told s t [] ∧
              t = { s with portU := t.portU, portP := t.portP, host := t.host } ∧
              t.port (otherSide side) = s.port (otherSide side) ∧
              t.port side =
                { (s.port side).asking .writing (.store i.slot.other.area img.bytes) with
                  ctx := some { c with storeRetried := true } }) ∧
          (c.areaBytes i.slot ≠ some content ∨ c.storeRetried = true →
            ∀ e p fate, s.screening.sighted card = some e → e.state = .pendingLocal p → p.side = side →
              fate = e.heldBack p →
              ∃ t, exec (.fetchAnswer side i.slot.area content) s = .next t ∧
                (∃ order, t.screening.sighted card = fate.leaves card e.baseline p.prior s.time.now order) ∧
                (p.held = none ∨ s.screening.sightings.length ≤ 1024 →
                  ∀ o, o ≠ card → t.screening.sighted o = s.screening.sighted o) ∧
                (p.cloneMark = false →
                  Refused s t side .writeFailed (some card) (some i.image.balance) (fate.frames card)
                    (s.link.dropRecords (fate.frames card) ++ fate.records card) ∧
                  (fate.isLate = true → LateFound s t card 1) ∧ (fate.isLate = false → NoFinding s t) ∧
                  t.passage.credits = s.passage.credits) ∧
                (p.cloneMark = true →
                  CloneFound s t card (if fate.isLate = true then 2 else 1) ∧
                  t.link = s.link.withFrames (fate.frames card ++ [.denyAdd card]) ∧
                  t.formed = s.formed ++ s.syncAnswers (fate.frames card ++ [.denyAdd card]) ∧
                  Journals s t
                    (s.link.dropRecords (fate.frames card) ++ fate.records card
                      ++ (s.link.withFrames (fate.frames card)).dropRecords [.denyAdd card]) ∧
                  t.service = s.service ∧ t.passage = s.passage ∧ (t.lamps side).stop = true ∧
                  t.port side =
                    { (s.port side).asking .writing (.store .header { h with status := .blocked }.bytes) with
                      deadline := .stopped,
                      ctx := some { c with cloneSeen := true, verdict := some (.refused .clone) } })))) ∧
      ∀ h v command confirmed, c.header = some h → c.verdict = some v → x.request = .fetch .header →
        ((∃ content, content.length = 8 ∧ command = Instr.fetchAnswer side .header content ∧
            confirmed = decide (content = { h with status := .blocked }.bytes)) ∨
          (∃ seen, 2 ≤ (s.port side).attempts ∧ command = .answerWindowClose side seen ∧ confirmed = false)) →
        (v = .committedClone →
          ∃ t, exec command s = .next t ∧
            TapClosed s t side
              { outcome := .clone, card := c.card, fare := c.decision.map Decision.charge,
                balance := c.newImage.map Image.balance }
              [] ∧
            (t.port side).stopHold = some (s.clock + 2000) ∧ t.screening = s.screening ∧
            t.passage.credits = s.passage.credits ∧
            Journals s t
              [{ kind := .cardBlocked, side := some side, card := c.card, reason := some .clone,
                 outcome := some (if confirmed = true then .committed else .voided) }]) ∧
        ∀ reason, v = .refused reason → reason = .denied ∨ reason = .clone → s.holdsNoEntry side c.card →
          ∃ t, exec command s = .next t ∧
            TapClosed s t side
              { outcome := .refused reason, card := c.card, fare := none,
                balance := c.image.map fun i => i.image.balance }
              [] ∧
            (t.port side).stopHold = some (s.clock + 2000) ∧ t.screening = s.screening ∧
            t.passage.credits = s.passage.credits ∧
            Journals s t
              [{ kind := .cardBlocked, side := some side, card := c.card,
                 reason := some (if reason = .denied then .denied else .clone),
                 outcome := some (if confirmed = true then .committed else .voided) },
                { kind := .refusal, side := some side, card := c.card, reason := some (.refusal reason),
                  balance := c.image.map fun i => i.image.balance }])

/-- The timers of a tap (R12, R15, R19): the aisle wait ends in AISLE_BUSY with the request withdrawn, and a SUMMON in
flight is abandoned, which is the model's choice (log 41); the dialogue deadline ends in CARD_UNREADABLE before the
STORE and IN_DOUBT after it, with the slot released and no credit, and the exchange it abandons is a failed attempt
(R8); a stopped or paused deadline does not expire. A tap IN_DOUBT has its entry converted, within the in-doubt limit
(R87, R88); in SUSPENDING, with the other port idle, each of these ends completes the drain (R167), its replies after
those of SYNC_LINEs by log 47; that the record of a refusal comes before those of its held update is the model's choice
(log 40). The STOP hold ends (R24). The commands say when a timer runs out (log 2). -/
def Obligations.TapTimersEndTheTap : Prop :=
  ∀ (s : State) (side : Side),
    (∃ t, exec (.stopHoldExpiry side) s = .next t ∧ Told s t [] ∧
      t = { s with portU := t.portU, portP := t.portP, host := t.host } ∧
      t.port side = { s.port side with stopHold := none } ∧ t.port (otherSide side) = s.port (otherSide side)) ∧
    ((s.port side).state ≠ .waitAisle →
      ∃ t, exec (.aisleWaitExpiry side) s = .next t ∧ Told s t [] ∧ t = { s with host := t.host }) ∧
    (∀ c, (s.port side).state = .waitAisle → (s.port side).ctx = some c → c.side = side → c.slot = none →
      s.holdsNoEntry side c.card →
      ∃ t, exec (.aisleWaitExpiry side) s = .next t ∧
        Refused s t side .aisleBusy c.card (c.image.map fun i => i.image.balance) ∧
        t.passage = { s.passage with claim := s.passage.claim.setWait side false } ∧
        t.port (otherSide side) = s.port (otherSide side) ∧ t.screening = s.screening ∧ t.link = s.link) ∧
    ((∀ until_, (s.port side).deadline ≠ .running until_) →
      ∃ t, exec (.dialogueDeadlineExpiry side) s = .next t ∧ Told s t [] ∧ t = { s with host := t.host }) ∧
    ∀ c until_, (s.port side).deadline = .running until_ → (s.port side).ctx = some c → c.side = side →
      (c.storeSent = false → s.holdsNoEntry side c.card →
        ∃ t, exec (.dialogueDeadlineExpiry side) s = .next t ∧
          Refused s t side .cardUnreadable c.card (c.image.map fun i => i.image.balance) ∧
          (s.passage.claim.waits side = false →
            (t.port side).attempts = (s.port side).attempts + if (s.port side).exchange.isSome = true then 1 else 0)) ∧
      (c.storeSent = true →
        ∃ t, exec (.dialogueDeadlineExpiry side) s = .next t ∧ EndedInDoubt s t side c ∧
          (s.passage.claim.waits side = false →
            (t.port side).attempts = (s.port side).attempts + if (s.port side).exchange.isSome = true then 1 else 0))

/-! ## The aisle link (R98 to R112) -/

/-- The three ways a turn begins (R101, R103, R105, R108): a TOKEN taken, in any token state, so that a holder keeps
the token and begins a new turn; the silence timeout; the end of the lone holder's wait. A LISTENING part becomes
MEMBER. With something to send the part then waits to send it, else it is the lone holder. What it sends
is chosen at its first bit, by the priorities of R104, four frames a turn at most, then the invitation of an invitation
turn or the pass (R104 to R106). That the first bit goes out at the next idle millisecond, or has gone out when the next
LINK_FRAME_SENT comes, that EMERGENCY goes once a turn, and that a JOIN_REPLY not yet sent gives way to a turn, are the
model's readings and choices (log 19, 22, 45). -/
def Obligations.TurnsBegin : Prop :=
  ∀ s : State,
    (∀ src : Byte, (∀ reason, s.link.state ≠ .offline reason) → 1 ≤ src.toNat → src.toNat ≤ 16 →
      src.toNat ≠ s.link.addr → s.link.rows.length = 16 →
      ∃ t, exec (.linkToken src) s = .next t ∧ Silent s t ∧
        t = { s with link := t.link, journal := t.journal, host := t.host } ∧ t.link.state = .member ∧
        TurnBegun s.emergency.own s.clock (s.heardFrom src).link t.link ∧
        (s.link.state = .listening ∨ (s.link.row src.toNat).present = false → t.tells .membershipChange = true) ∧
        s.journal.grownBy t.journal s.time.now
          (if (s.link.row src.toNat).present = true ∨ s.journal.halted = true then []
          else [{ kind := .membership, peer := some src.toNat, reason := some .heard }])) ∧
    (s.link.state = .listening ∨ (s.link.state = .member ∧ s.link.token = .waiting) →
      ∃ t, exec .silenceTimeout s = .next t ∧ t = { s with link := t.link, host := t.host } ∧
        t.link.state = .member ∧ TurnBegun s.emergency.own s.clock s.link t.link ∧
        Told s t (if s.link.state = .listening then [.membershipChange] else [])) ∧
    (¬(s.link.state = .listening ∨ (s.link.state = .member ∧ s.link.token = .waiting)) →
      ∃ t, exec .silenceTimeout s = .next t ∧ Told s t [] ∧ t = { s with host := t.host }) ∧
    (s.link.loneWait.isSome = true →
      ∃ t, exec .loneHolderWaitEnd s = .next t ∧ Told s t [] ∧ t = { s with link := t.link, host := t.host } ∧
        t.link.state = s.link.state ∧ TurnBegun s.emergency.own s.clock s.link t.link) ∧
    (s.link.loneWait = none →
      ∃ t, exec .loneHolderWaitEnd s = .next t ∧ Told s t [] ∧ t = { s with host := t.host }) ∧
    (s.link.due = true →
      ∃ m, FrameChosen s.emergency.own s.link m ∧
        (s.pending = [] →
          step s = .next { s with clock := s.clock + 1, link := { m with txBegun := m.tx.isSome } }) ∧
        exec .linkFrameSent s = exec .linkFrameSent { s with link := m })

/-- JOIN_INVITE is answered with JOIN_REPLY, any token dropped; the expected JOIN_REPLY in the invitation's window makes
its gate PRESENT with reason JOINED and is passed the token, another in that window drops the token, and any outside a
window is only heard (R102, R106, R107, R109, R111). That a JOIN_REPLY begun in the window and taken after it has closed
still counts, and that one taken before the window has opened is no answer, are the model's reading (log 20). The
JOIN_REPLY, and the TOKEN that follows an accepted invitation, are chosen in the step that calls for them, and a later
JOIN_INVITE takes the place of an earlier one not yet answered, the model's choices (log 19, 45). -/
def Obligations.InvitationsAreAnsweredAndJoin : Prop :=
  ∀ (s : State) (src : Byte), (∀ reason, s.link.state ≠ .offline reason) → 1 ≤ src.toNat → src.toNat ≤ 16 →
    src.toNat ≠ s.link.addr → s.link.rows.length = 16 →
    (∃ t, exec (.linkJoinInvite src) s = .next t ∧ t = { s with link := t.link, journal := t.journal, host := t.host } ∧
      Silent s t ∧ t.link.state = s.link.state ∧ t.link.token = .waiting ∧
      t.link.tx = some (.joinReply src.toNat) ∧ t.link.turn = s.link.turn ∧
      t.link.queue.map QItem.msg = s.link.queue.map QItem.msg ∧
      t.link.rows = (s.heardFrom src).link.rows ∧
      ((s.link.row src.toNat).present = false → t.tells .membershipChange = true) ∧
      s.journal.grownBy t.journal s.time.now
        (if (s.link.row src.toNat).present = true ∨ s.journal.halted = true then []
        else [{ kind := .membership, peer := some src.toNat, reason := some .heard }])) ∧
    (∀ closed, s.link.token = .inviting src.toNat closed → s.link.window.isSome = true →
      ∃ t, exec (.linkJoinReply src) s = .next t ∧ Silent s t ∧
        t = { s with link := t.link, journal := t.journal, host := t.host } ∧
        t.link.token = .passing src.toNat 1 ∧ t.link.tx = some (.token src.toNat) ∧
        t.link.turn = s.link.turn ∧ t.link.rows = (s.heardFrom src).link.rows ∧
        ((s.link.row src.toNat).present = false → t.tells .membershipChange = true) ∧
        s.journal.grownBy t.journal s.time.now
          (if (s.link.row src.toNat).present = true ∨ s.journal.halted = true then []
          else [{ kind := .membership, peer := some src.toNat, reason := some .joined }])) ∧
    (∀ a closed, s.link.token = .inviting a closed → src.toNat ≠ a → s.link.window.isSome = true →
      ∃ t, exec (.linkJoinReply src) s = .next t ∧ Silent s t ∧
        t = { s with link := t.link, journal := t.journal, host := t.host } ∧ t.link.token = .waiting ∧
        t.link.tx = none ∧ t.link.turn = s.link.turn ∧ t.link.rows = (s.heardFrom src).link.rows ∧
        t.link.queue.map QItem.msg = s.link.queue.map QItem.msg) ∧
    (s.link.token = .waiting → (s.link.row src.toNat).present = true →
      ∃ t, exec (.linkJoinReply src) s = .next t ∧ Told s t [] ∧ t = { s.heardFrom src with host := t.host }) ∧
    (s.link.token ≠ .waiting → s.link.window = none ∨ (∀ a closed, s.link.token ≠ .inviting a closed) →
      ∃ t, exec (.linkJoinReply src) s = .next t ∧ Silent s t ∧
        t = { s with link := t.link, journal := t.journal, host := t.host } ∧
        t.link =
          { s.link with
            rows := (s.heardFrom src).link.rows, rxBegun := false, silence := t.link.silence })

/-- An inbound SIGHTING against each state of the card's entry (R92, R93), from a gate that is PRESENT (R76: a full
table gives up the COMMITTED entry of the oldest update; R74: a deny list full of CENTRAL entries takes no other). A
CLONE_LATE finding adds one to the count of findings (R188), and its DENY_ADD frame is all that changes the link beside
the hearing of its source (R112 to R114).
Entries are numbered by their updates, which is the model's choice (log 17). -/
def Obligations.SightingFramesFollowTheTable : Prop :=
  ∀ (s : State) (src : Byte) (card : CardNo) (rt wt : BitVec 16) (rs ws : Stamp), s.meets src →
    (s.link.row src.toNat).present = true →
    ∃ t, exec (.linkSighting src card rt rs wt ws) s = .next t ∧
      (card = 0 ∨ card = BitVec.allOnes 32 ∨ wt.toNat ≠ rt.toNat + 1 →
        Told s t [] ∧ t = { s.heardFrom src with host := t.host }) ∧
      (card ≠ 0 → card ≠ BitVec.allOnes 32 → wt.toNat = rt.toNat + 1 →
        (s.screening.sighted card = none → s.screening.sightings.length < 1024 →
          Told s t [] ∧ t = { s.heardFrom src with screening := t.screening, host := t.host } ∧
          t.screening.deny = s.screening.deny ∧
          t.screening.sightings =
            s.screening.sightings
              ++ [{ card := card, baseline := { txc := wt.toNat, stamp := ws }, updated := s.time.now,
                    touched := s.screening.order,
                    state := .committed { origin := .peer src.toNat, lapse := none, regranted := false } }]) ∧
        (s.screening.sighted card = none → 1024 ≤ s.screening.sightings.length → ∀ old st,
          old ∈ s.screening.sightings → old.state = .committed st →
          (∀ x ∈ s.screening.sightings, x ≠ old → (∃ other, x.state = .committed other) →
            old.updated < x.updated ∨ (old.updated = x.updated ∧ old.touched < x.touched)) →
          Told s t [] ∧ t = { s.heardFrom src with screening := t.screening, host := t.host } ∧
          t.screening.deny = s.screening.deny ∧
          t.screening.sightings =
            (s.screening.sightings.filter fun x => x.card != old.card)
              ++ [{ card := card, baseline := { txc := wt.toNat, stamp := ws }, updated := s.time.now,
                    touched := s.screening.order,
                    state := .committed { origin := .peer src.toNat, lapse := none, regranted := false } }]) ∧
        ∀ e, s.screening.sighted card = some e →
          (∀ st, e.state = .committed st →
            (e.baseline = { txc := wt.toNat, stamp := ws } →
              Told s t [] ∧ t = { s.heardFrom src with host := t.host }) ∧
            (e.baseline ≠ { txc := wt.toNat, stamp := ws } →
              e.baseline = { txc := rt.toNat, stamp := rs } ∨ e.baseline.txc < rt.toNat →
              Told s t [] ∧ t = { s.heardFrom src with screening := t.screening, host := t.host } ∧
              t.screening.deny = s.screening.deny ∧
              t.screening.sighted card =
                some
                  { e with
                    baseline := { txc := wt.toNat, stamp := ws }, updated := s.time.now,
                    touched := s.screening.order,
                    state := .committed { origin := .peer src.toNat, lapse := none, regranted := false } }) ∧
            (e.baseline ≠ { txc := wt.toNat, stamp := ws } → e.baseline ≠ { txc := rt.toNat, stamp := rs } →
              rt.toNat ≤ e.baseline.txc →
              t.screening.sightings = s.screening.sightings ∧ t.tells .cloneDetected = true ∧
              t.host.finding = some { card := card, kind := .cloneLate } ∧
              (s.host.tx.isSome = true → t.host.findings = min 65535 (s.host.findings + 1)) ∧
              (s.screening.deny.length < 16384 ∨ 0 < s.screening.localCount →
                (t.screening.denied card).isSome = true) ∧
              ((s.screening.denied card).isSome = true ∨
                  (16384 ≤ s.screening.deny.length ∧ s.screening.localCount = 0) →
                t.screening.deny = s.screening.deny) ∧
              t =
                { s.heardFrom src with
                  screening := t.screening, link := (s.heardFrom src).link.withFrame (.denyAdd card),
                  journal := t.journal, host := t.host } ∧
              t.formed = s.formed ++ (s.heardFrom src).syncAnswers [.denyAdd card] ∧
              (∃ q ∈ t.link.queue, q.msg = .denyAdd card) ∧
              Journals s t
                ((s.heardFrom src).link.dropRecords [.denyAdd card]
                  ++ [{ kind := .cloneLate, card := some card, peer := some src.toNat }]))) ∧
          (∀ p, e.state = .pendingLocal p →
            Told s t [] ∧ t = { s.heardFrom src with screening := t.screening, host := t.host } ∧
            t.screening.deny = s.screening.deny ∧
            t.screening.sighted card =
              some
                { e with
                  state :=
                    .pendingLocal
                      { p with
                        cloneMark := p.cloneMark || decide (e.baseline = { txc := rt.toNat, stamp := rs }),
                        held :=
                          some
                            { src := src.toNat, read := { txc := rt.toNat, stamp := rs },
                              written := { txc := wt.toNat, stamp := ws },
                              marking := decide (e.baseline = { txc := rt.toNat, stamp := rs }) } } }) ∧
          (∀ stored serial, e.state = .inDoubt stored serial →
            (stored = { txc := rt.toNat, stamp := rs } ∨ e.baseline = { txc := rt.toNat, stamp := rs } ∨
                stored.txc = rt.toNat →
              t.screening.sighted card =
                  some
                    { e with
                      baseline := { txc := wt.toNat, stamp := ws }, updated := s.time.now,
                      touched := s.screening.order,
                      state := .committed { origin := .peer src.toNat, lapse := none, regranted := false } } ∧
                s.journal.grownBy t.journal s.time.now
                  [{ kind := .resolved, card := some card, related := some serial, txc := some stored.txc,
                     peer := some src.toNat,
                     outcome :=
                       some (if stored = { txc := rt.toNat, stamp := rs } then .committed else .voided) }]) ∧
            (¬(stored = { txc := rt.toNat, stamp := rs } ∨ e.baseline = { txc := rt.toNat, stamp := rs } ∨
                stored.txc = rt.toNat) →
              Told s t [] ∧ t = { s.heardFrom src with host := t.host })))

/-- Inbound LAPSE, REGRANT and DENY_ADD (R74, R90 to R92, R94): a lapse mark on an equal COMMITTED image; a live mark
removed, with DOUBLE_REGRANT, a finding that is counted (R188), where this gate has regranted the image; a PEER deny
entry, for which the oldest LOCAL or
PEER entry goes at a local count of 512 or in a full list. In every other case the frame has no effect. Stated from a
gate that is PRESENT to a part without the token; what a data frame does to the tables does not depend on either. The
number of an entry's making is the model's choice (log 17), and so is an unbounded lapse deadline (log 42). -/
def Obligations.LapseRegrantAndDenyFramesAct : Prop :=
  (∀ (s : State) (src : Byte) (card : CardNo) (rt wt : BitVec 16) (rs ws : Stamp) (side : Side) (c : Instr),
    (∀ reason, s.link.state ≠ .offline reason) → 1 ≤ src.toNat → src.toNat ≤ 16 → src.toNat ≠ s.link.addr →
    s.link.rows.length = 16 →
    c ∈ [Instr.linkSighting src card rt rs wt ws, .linkLapse src card rt rs (match side with | .U => 1 | .P => 2),
      .linkRegrant src card rt rs, .linkDenyAdd src card] →
    ∃ t u, exec c s = .next t ∧ exec c (s.asMet src) = .next u ∧ t.screening = u.screening ∧
      t.host.finding = u.host.finding ∧ (s.host.tx.isSome = true → t.host.findings = u.host.findings) ∧
      t.link.rows.map MemberRow.view = u.link.rows.map MemberRow.view ∧
      ((s.link.row src.toNat).present = false →
        t.tells .membershipChange = true ∧
        (s.journal.halted = false → ∃ more,
          s.journal.grownBy t.journal s.time.now
            ({ kind := .membership, peer := some src.toNat, reason := some .heard } :: more)))) ∧
  ∀ (s : State) (src : Byte) (card : CardNo) (txc : BitVec 16) (stamp : Stamp), s.meets src →
    (s.link.row src.toNat).present = true →
    (∀ (side : Side),
      ∃ t, exec (.linkLapse src card txc stamp (match side with | .U => 1 | .P => 2)) s = .next t ∧ Told s t [] ∧
        t = { s.heardFrom src with screening := t.screening, host := t.host } ∧
        t.screening = { s.screening with sightings := t.screening.sightings } ∧
        (∀ c, c ≠ card → t.screening.sighted c = s.screening.sighted c) ∧
        (∀ e st, card ≠ 0 → card ≠ BitVec.allOnes 32 → s.screening.sighted card = some e →
          e.state = .committed st → e.baseline = { txc := txc.toNat, stamp := stamp } →
          t.screening.sighted card =
            some
              { e with
                state :=
                  .committed
                    { st with
                      lapse :=
                        some { side := side, deadline := s.time.now + s.service.params.regrantWindow } } }) ∧
        (card = 0 ∨ card = BitVec.allOnes 32 ∨
            (∀ e st, s.screening.sighted card = some e → e.state = .committed st →
              e.baseline ≠ { txc := txc.toNat, stamp := stamp }) →
          t.screening = s.screening)) ∧
    (∃ t, exec (.linkRegrant src card txc stamp) s = .next t ∧
      t = { s.heardFrom src with screening := t.screening, journal := t.journal, host := t.host } ∧
      t.screening = { s.screening with sightings := t.screening.sightings } ∧
      (∀ e st, card ≠ 0 → card ≠ BitVec.allOnes 32 → s.screening.sighted card = some e → e.state = .committed st →
        e.baseline = { txc := txc.toNat, stamp := stamp } →
        t.screening.sighted card =
            some
              { e with
                state :=
                  .committed { st with lapse := st.lapse.filter fun m => decide (m.deadline < s.time.now) } } ∧
          (st.regranted = true →
            t.tells .cloneDetected = true ∧ t.host.finding = some { card := card, kind := .doubleRegrant } ∧
            (s.host.tx.isSome = true → t.host.findings = min 65535 (s.host.findings + 1)) ∧
            s.journal.grownBy t.journal s.time.now
              (if s.journal.halted = true then []
              else [{ kind := .doubleRegrant, card := some card, peer := some src.toNat }])) ∧
          (st.regranted = false → Told s t [] ∧ t.journal = s.journal)) ∧
      (card = 0 ∨ card = BitVec.allOnes 32 ∨
          (∀ e st, s.screening.sighted card = some e → e.state = .committed st →
            e.baseline ≠ { txc := txc.toNat, stamp := stamp }) →
        Told s t [] ∧ t.screening = s.screening ∧ t.journal = s.journal)) ∧
    ∃ t, exec (.linkDenyAdd src card) s = .next t ∧ Told s t [] ∧
      t = { s.heardFrom src with screening := t.screening, host := t.host } ∧
      t.screening.sightings = s.screening.sightings ∧
      (card = 0 ∨ card = BitVec.allOnes 32 ∨ (s.screening.denied card).isSome = true →
        t.screening = s.screening) ∧
      (card ≠ 0 → card ≠ BitVec.allOnes 32 → s.screening.denied card = none → s.screening.denyOk →
        t.screening.denyOk ∧
        (16384 ≤ s.screening.deny.length → s.screening.localCount = 0 → t.screening = s.screening) ∧
        (s.screening.deny.length < 16384 ∨ 0 < s.screening.localCount →
          t.screening.denied card =
            some
              { card := card, origin := .peer src.toNat, action := .refuseAndBlock, added := s.time.now,
                made := s.screening.order }) ∧
        (s.screening.deny.length < 16384 → s.screening.localCount < 512 →
          t.screening.localCount = s.screening.localCount + 1 ∧
          t.screening.deny.length = s.screening.deny.length + 1 ∧
          ∀ c, c ≠ card → t.screening.denied c = s.screening.denied c) ∧
        (s.screening.localCount = 512 ∨ (16384 ≤ s.screening.deny.length ∧ 0 < s.screening.localCount) →
          ∀ old ∈ s.screening.deny, old.origin ≠ .central →
            (∀ x ∈ s.screening.deny, x.origin ≠ .central → x ≠ old →
              old.added < x.added ∨ (old.added = x.added ∧ old.made < x.made)) →
            t.screening.localCount = s.screening.localCount ∧
            t.screening.deny.length = s.screening.deny.length ∧ t.screening.denied old.card = none ∧
            ∀ c, c ≠ card → c ≠ old.card → t.screening.denied c = s.screening.denied c))

/-- EMERGENCY frames and the deadlines of a row (R143 to R145): the row's contribution, the line emergency state judged
from it, and for a change its record and notice; a judging that finds the state as it was does nothing further. A
refresh deadline that an ASSERT frame has restarted is not reached, and the row stays ASSERTED (R144). From a gate that
was ABSENT the row is heard first, with its MEMBERSHIP record, and then acted on; a token held makes no difference
(R102, R106, R111). A start and an end of the emergency do to aisle, ports, drain and records what the fire input's do
(R31, R123, R139, R146, R147, R167). That a start records EMERGENCY_START before what it brings about, and that a SUMMON
in flight is abandoned, are the model's choices (log 11, 41); that the refresh deadline alone is compared with the
interval clock is its choice too (log 2). -/
def Obligations.PeerContributionsMoveTheLineEmergency : Prop :=
  (∀ (s : State) (src : Byte) (c : Instr) (u : State) (after : Contribution) (start finish : Reason),
      s.lineOk → s.link.rows.length = 16 → 1 ≤ src.toNat → src.toNat ≤ 16 →
      ((s.meets src ∧ (s.link.row src.toNat).present = true ∧ u = s.heardFrom src ∧
            ((c = .linkEmergency src 1 ∧ after = .asserted (s.clock + 10000)) ∨
              (c = .linkEmergency src 2 ∧ after = .none)) ∧
            start = .peerAssert ∧ finish = .peerDeassert) ∨
          ((∃ d, (s.link.row src.toNat).contribution = .asserted d ∧ d ≤ s.clock) ∧ u = s ∧ c = .refreshDeadline src ∧
            after = .none ∧ finish = .peerRefresh) ∨
          ((∃ d, (s.link.row src.toNat).contribution = .held d) ∧ u = s ∧ c = .holdDeadline src ∧ after = .none ∧
            finish = .peerHold)) →
      ∃ t, exec c s = .next t ∧ (t.link.row src.toNat).contribution = after ∧
        t.emergency = { s.emergency with line := t.lineJudged } ∧ t.pins = s.pins ∧ t.time = s.time ∧
        t.service.tables = s.service.tables ∧
        (t.emergency.line = s.emergency.line →
          Told s t [] ∧
          t =
            { u with
              link := u.link.setRow src.toNat { u.link.row src.toNat with contribution := after }, host := t.host }) ∧
        (t.emergency.line ≠ s.emergency.line →
          (t.emergency.line = true →
            EmergencyStarted s t { kind := .emergencyStart, peer := some src.toNat, reason := some start }
              (u.link.setRow src.toNat { u.link.row src.toNat with contribution := after })) ∧
          (t.emergency.line = false →
            EmergencyEnded s t { kind := .emergencyEnd, peer := some src.toNat, reason := some finish } ∧
            t =
              { u with
                link := u.link.setRow src.toNat { u.link.row src.toNat with contribution := after },
                emergency := { s.emergency with line := false }, passage := t.passage, journal := t.journal,
                host := t.host }))) ∧
    (∀ (s : State) (src : Byte) (d : Nat), (s.link.row src.toNat).contribution = .asserted d → s.clock < d →
      ∃ t, exec (.refreshDeadline src) s = .next t ∧ Told s t [] ∧ t = { s with host := t.host }) ∧
    ∀ (s : State) (src code : Byte), code = 1 ∨ code = 2 → s.lineOk → (∀ reason, s.link.state ≠ .offline reason) →
      1 ≤ src.toNat → src.toNat ≤ 16 → src.toNat ≠ s.link.addr → s.link.rows.length = 16 →
      ∃ t u, exec (.linkEmergency src code) s = .next t ∧ exec (.linkEmergency src code) (s.asMet src) = .next u ∧
        t.emergency = u.emergency ∧ t.link.rows.map MemberRow.view = u.link.rows.map MemberRow.view ∧
        t.passage = u.passage ∧ t.portU = u.portU ∧ t.portP = u.portP ∧ t.screening = u.screening ∧
        (t.emergency.line ≠ s.emergency.line → t.tells .emergencyChange = true) ∧
        (s.link.window = none → t.link.token = s.link.token) ∧
        ((s.link.row src.toNat).present = false →
          t.tells .membershipChange = true ∧
          (s.journal.halted = false → ∃ more,
            s.journal.grownBy t.journal s.time.now
              ({ kind := .membership, peer := some src.toNat, reason := some .heard } :: more)) ∧
          (s.journal.halted = false → s.roomFor 2 → t.emergency.line ≠ s.emergency.line → ∃ more,
            s.journal.grownBy t.journal s.time.now
              ({ kind := .membership, peer := some src.toNat, reason := some .heard } ::
                { kind := if t.emergency.line = true then .emergencyStart else .emergencyEnd, peer := some src.toNat,
                  reason := some (if t.emergency.line = true then .peerAssert else .peerDeassert) } :: more)))

/-- OFFLINE nothing is received, and while the part drives the line its monitor does not run (R97). A start of
transmission restarts the silence timeout of a part without the token and drops the token of a holder, whose queued
frames stay, and whose invitation not yet begun is not sent; damaged and discarded frames are not acted on, and a
holder keeps its token through them, but for an invitation whose window has closed meanwhile, which then fails. A frame
that carries the own address puts the link OFFLINE by CONFLICT with its MEMBERSHIP record (R98, R99, R101, R106, R108
to R110, R144) and is not acted on further; each outstanding SYNC_LINE is answered OFFLINE (R114) unless a RESET
has been taken (R184), and an emergency
that ends with the members lost releases the leaves (R139, R147), its peer the row whose loss left no contribution, the
highest that was PRESENT and ASSERTED (log 44). Model's readings and choices: what a frame begun in
an invitation window does (log 20); that a conflicting frame is not acted on (log 21); that a JOIN_REPLY chosen stays
chosen at a start of transmission (log 45); that silence starts afresh at a discarded frame also while that reply is
driven (log 19); that an EMERGENCY_END comes before the ADDRESS_CONFLICT record (log 44); the order of the replies to
several SYNC_LINEs (log 47). -/
def Obligations.MonitorDamageAndConflict : Prop :=
  ∀ s : State,
    (∀ reason dest src card rt rs wt ws txc stamp side code c, s.link.state = .offline reason →
      c ∈ [Instr.lineTransmissionStart dest, .linkRxIdleTimeout, .linkFrameDiscarded, .linkFramingError,
        .linkToken src, .linkJoinInvite src, .linkJoinReply src, .linkSighting src card rt rs wt ws,
        .linkLapse src card txc stamp side, .linkRegrant src card txc stamp, .linkDenyAdd src card,
        .linkEmergency src code] →
      ∃ t, exec c s = .next t ∧ Told s t [] ∧ t = { s with host := t.host }) ∧
    (∀ dest, s.driveEnable = true →
      ∃ t, exec (.lineTransmissionStart dest) s = .next t ∧ Told s t [] ∧ t = { s with host := t.host }) ∧
    ((∀ reason, s.link.state ≠ .offline reason) →
      (∀ dest, s.driveEnable = false → s.link.token = .waiting →
        ∃ t, exec (.lineTransmissionStart dest) s = .next t ∧ Told s t [] ∧
          t =
            { s with
              link :=
                { s.link with
                  rxBegun := dest.any fun d => d.toNat == s.link.addr || d == 255,
                  silence := some (s.clock + silenceMs s.link.addr) },
              host := t.host }) ∧
      (∀ dest a, s.driveEnable = false → s.link.token = .inviting a false → s.link.window.isSome = true →
        dest.any (fun d => d.toNat == s.link.addr || d == 255) = true →
        ∃ t, exec (.lineTransmissionStart dest) s = .next t ∧ Told s t [] ∧
          t = { s with link := { s.link with rxBegun := true }, host := t.host }) ∧
      (∀ dest, s.driveEnable = false →
        s.link.token = .sending ∨ (∃ a n, s.link.token = .passing a n) ∨
          (∃ a closed, s.link.token = .inviting a closed ∧
            (closed = true ∨ s.link.window = none ∨
              dest.any (fun d => d.toNat == s.link.addr || d == 255) = false)) →
        ∃ t, exec (.lineTransmissionStart dest) s = .next t ∧ Told s t [] ∧
          t = { s with link := t.link, host := t.host } ∧ t.link.token = .waiting ∧ t.link.tx = none ∧
          t.link.due = false ∧ t.link.turn = s.link.turn ∧ t.link.pointer = s.link.pointer ∧
          t.link.rows = s.link.rows ∧ t.link.state = s.link.state ∧
          t.link.queue.map QItem.msg = s.link.queue.map QItem.msg ∧ (∀ q ∈ t.link.queue, q.inTx = false)) ∧
      (∀ c, c = .linkFrameDiscarded ∨ (c = .linkFramingError ∧ s.link.rxBegun = true) →
        s.link.token = .waiting →
        ∃ t, exec c s = .next t ∧ Told s t [] ∧
          t =
            { s with
              link := { s.link with rxBegun := false, silence := some (s.clock + silenceMs s.link.addr) },
              host := t.host }) ∧
      (∀ c, c = .linkFrameDiscarded ∨ (c = .linkFramingError ∧ s.link.rxBegun = true) →
        s.link.token ≠ .waiting → (∀ a, s.link.token ≠ .inviting a true) →
        ∃ t, exec c s = .next t ∧ Told s t [] ∧
          t =
            { s with
              link :=
                { s.link with
                  rxBegun := false,
                  silence := if s.link.state = .listening then some (s.clock + silenceMs s.link.addr) else none },
              host := t.host }) ∧
      ((∀ a, s.link.token ≠ .inviting a true) →
        ∃ t, exec .linkRxIdleTimeout s = .next t ∧ Told s t [] ∧
          t = { s with link := { s.link with rxBegun := false }, host := t.host }) ∧
      (∀ c a, c = .linkFrameDiscarded ∨ (c = .linkFramingError ∧ s.link.rxBegun = true) ∨ c = .linkRxIdleTimeout →
        s.link.token = .inviting a true →
        ∃ t, exec c s = .next t ∧ Told s t [] ∧ t = { s with link := t.link, host := t.host } ∧
          t.link.rows = s.link.rows ∧ t.link.turn = s.link.turn ∧ t.link.rxBegun = false ∧
          t.link.queue.map QItem.msg = s.link.queue.map QItem.msg ∧
          (∀ b, s.link.successor = some b → t.link.tx = some (.token b) ∧ t.link.token = .passing b 1) ∧
          (s.link.successor = none → t.link.tx = none ∧ t.link.token = .sending ∧ t.link.loneWait.isSome = true)) ∧
      (s.link.rxBegun = false →
        ∃ t, exec .linkFramingError s = .next t ∧ Told s t [] ∧ t = { s with host := t.host }) ∧
      ∀ src card rt rs wt ws txc stamp c, src.toNat = s.link.addr → 1 ≤ src.toNat → src.toNat ≤ 16 → s.lineOk →
        s.link.rows.length = 16 →
        c ∈ [Instr.linkToken src, .linkJoinInvite src, .linkJoinReply src, .linkSighting src card rt rs wt ws,
          .linkLapse src card txc stamp 1, .linkRegrant src card txc stamp, .linkDenyAdd src card,
          .linkEmergency src 1] →
        ∃ t, exec c s = .next t ∧ t.link.state = .offline .conflict ∧ t.link.token = .waiting ∧ t.link.tx = none ∧
          (∀ r ∈ t.link.rows, r.present = false) ∧
          t.link.rows.map MemberRow.lastHeard = s.link.rows.map MemberRow.lastHeard ∧ t.link.syncs = [] ∧
          (s.host.resetTaken = false →
            t.formed = s.formed ++ s.link.syncs.map (fun y => Reply.inWindow y.tag .syncLine .offline)) ∧
          t.link.queue.map QItem.msg = s.link.queue.map QItem.msg ∧ t.tells .membershipChange = true ∧
          t.portU = s.portU ∧ t.portP = s.portP ∧ t.screening = s.screening ∧
          (∀ b, 1 ≤ b → b ≤ 16 → s.link.AllLostTo t.link s.clock s.service.params.emergencyHold b) ∧
          t.emergency = { s.emergency with line := t.lineJudged } ∧
          (t.emergency.line = s.emergency.line → t.passage = s.passage) ∧
          (t.emergency.line ≠ s.emergency.line → AisleReleased s t ∧ t.tells .emergencyChange = true) ∧
          (t.emergency.line = s.emergency.line →
            Journals s t [{ kind := .membership, peer := some s.link.addr, reason := some .addressConflict }]) ∧
          (t.emergency.line ≠ s.emergency.line →
            ∃ b, s.link.LastAsserting b ∧
              Journals s t
                [{ kind := .emergencyEnd, peer := some b, reason := some .peerLost },
                  { kind := .membership, peer := some s.link.addr, reason := some .addressConflict }]))

/-- Frames sent and windows without an answer (R97, R103 to R107, R112): when a frame has been sent drive-enable is
released, and a queued frame leaves the queue, which completes the SYNC_LINEs it was the last marked frame of (R114);
TOKEN and JOIN_INVITE open a window of 2 ms; a pass is tried twice, then its successor is LOST, and what it asserted is
held, or let go where the emergency hold is 0, and an emergency that ends with it makes its record, after that of the
loss and with this peer, and releases the leaves (R139, R144, R145, R147); an invitation without an answer fails, unless
a frame begun within its window is still being taken; no window expires before it is open. After a data or an EMERGENCY
frame the turn goes on: with less than four frames sent and one more to send, an invitation due or a successor, the part
waits to send what TurnsBegin says, and else it is the lone holder (R104 to R106). When a frame begins, what a frame met
in an invitation does, that EMERGENCY goes once a turn, and the order of the replies to several SYNC_LINEs, are the
model's readings and choices (log 19, 20, 22, 47). -/
def Obligations.FramesSentAndWindowsUnanswered : Prop :=
  ∀ s : State,
    (s.link.tx = none → s.link.due = false →
      ∃ t, exec .linkFrameSent s = .next t ∧ Told s t [] ∧ t = { s with host := t.host }) ∧
    (∃ t, exec .linkFrameSent s = .next t ∧ t.driveEnable = false) ∧
    (s.link.window = none →
      (∃ t, exec .passWindowExpiry s = .next t ∧ Told s t [] ∧ t = { s with host := t.host }) ∧
      ∃ t, exec .inviteWindowExpiry s = .next t ∧ Told s t [] ∧ t = { s with host := t.host }) ∧
    (∀ before q after, s.link.tx = some .data → s.link.due = false → s.link.queue = before ++ q :: after →
      q.inTx = true → (∀ x ∈ before, x.inTx = false) →
      s.link.syncs = [] ∨
        ((∀ reason, s.link.state ≠ .offline reason) ∧ (s.link.syncs.map Sync.tag).Nodup ∧ s.host.resetTaken = false) →
      ∃ t, exec .linkFrameSent s = .next t ∧ t = { s with link := t.link, host := t.host } ∧
        t.host.window = s.host.window ∧ (∀ k, t.tells k = s.tells k) ∧
        ((∀ y ∈ s.link.syncs, ∃ x ∈ before ++ after, y.tag ∈ x.marks) → Told s t []) ∧
        t.link.syncs = s.link.syncs.filter (fun y => (before ++ after).any fun x => x.marks.contains y.tag) ∧
        t.formed =
          s.formed
            ++ (s.link.syncs.filter fun y => !(before ++ after).any fun x => x.marks.contains y.tag).map
                (fun y => Reply.inWindow y.tag .syncLine (.synced y.dropped)) ∧
        ∃ queue, queue.map QItem.msg = (before ++ after).map QItem.msg ∧
          TurnGoesOn s.emergency.own s.clock
            { s.link with queue := queue, syncs := t.link.syncs, sent := s.link.sent + 1 } t.link) ∧
    (∀ assert, s.link.tx = some (.emergency assert) → s.link.due = false →
      ∃ t, exec .linkFrameSent s = .next t ∧ Told s t [] ∧ t = { s with link := t.link, host := t.host } ∧
        TurnGoesOn s.emergency.own s.clock
          { s.link with
            sent := s.link.sent + 1, emergencySent := true,
            deassertPending := if assert = true then s.link.deassertPending else false }
          t.link) ∧
    (∀ a, s.link.tx = some (.token a) ∨ s.link.tx = some (.invite a) → s.link.due = false →
      ∃ t, exec .linkFrameSent s = .next t ∧ Told s t [] ∧
        t =
          { s with
            link :=
              { s.link with
                tx := none, txBegun := false, window := some (s.clock + 2),
                queue := s.link.queue.map fun q => { q with inTx := false } },
            host := t.host }) ∧
    (∀ a, s.link.tx = some (.joinReply a) → s.link.due = false →
      ∃ t, exec .linkFrameSent s = .next t ∧ Told s t [] ∧
        t =
          { s with
            link :=
              { s.link with
                tx := none, txBegun := false, queue := s.link.queue.map fun q => { q with inTx := false } },
            host := t.host }) ∧
    (∀ a, s.link.token = .passing a 1 → s.link.window.isSome = true →
      ∃ t, exec .passWindowExpiry s = .next t ∧ Told s t [] ∧ t = { s with link := t.link, host := t.host } ∧
        t.link.tx = some (.token a) ∧ t.link.token = .passing a 2 ∧ t.link.window = none ∧
        t.link.rows = s.link.rows) ∧
    (∀ a, s.link.token = .passing a 2 → s.link.window.isSome = true → s.lineOk → 1 ≤ a → a ≤ 16 →
      s.link.rows.length = 16 →
      ∃ t, exec .passWindowExpiry s = .next t ∧ t.tells .membershipChange = true ∧
        (t.link.row a).present = false ∧ (t.link.row a).lastHeard = (s.link.row a).lastHeard ∧
        (s.link.row a).contribution.LostTo (t.link.row a).contribution s.clock s.service.params.emergencyHold ∧
        t.emergency = { s.emergency with line := t.lineJudged } ∧
        (t.emergency.line = s.emergency.line → t.passage = s.passage) ∧
        (t.emergency.line ≠ s.emergency.line → AisleReleased s t ∧ t.tells .emergencyChange = true) ∧
        t.portU = s.portU ∧ t.portP = s.portP ∧ t.screening = s.screening ∧
        (∀ b, b ≠ a → t.link.row b = s.link.row b) ∧
        Journals s t
          ({ kind := .membership, peer := some a, reason := some .lost } ::
            if t.emergency.line = s.emergency.line then []
            else [{ kind := .emergencyEnd, peer := some a, reason := some .peerLost }]) ∧
        (∀ b, t.link.successor = some b → t.link.tx = some (.token b) ∧ t.link.token = .passing b 1) ∧
        (t.link.successor = none → t.link.tx = none ∧ t.link.token = .sending ∧ t.link.loneWait.isSome = true)) ∧
    (∀ a, s.link.token = .inviting a false → s.link.window.isSome = true → s.link.rxBegun = true →
      ∃ t, exec .inviteWindowExpiry s = .next t ∧ Told s t [] ∧ t = { s with link := t.link, host := t.host } ∧
        t.link.token = .inviting a true ∧ t.link.rows = s.link.rows) ∧
    (∀ a, s.link.token = .inviting a false → s.link.window.isSome = true → s.link.rxBegun = false →
      ∃ t, exec .inviteWindowExpiry s = .next t ∧ Told s t [] ∧ t = { s with link := t.link, host := t.host } ∧
        t.link.rows = s.link.rows ∧
        (∀ b, s.link.successor = some b → t.link.tx = some (.token b) ∧ t.link.token = .passing b 1) ∧
        (s.link.successor = none → t.link.tx = none ∧ t.link.token = .sending ∧ t.link.loneWait.isSome = true))

/-! ## Local time and fares (R35 to R40, R50 to R62, R68, R69) -/

/-- Local time (R68, R69): the minute of day from the floor remainder of the local seconds, the service day from the
boundary, 0 before the first boundary, the day of week by day 0 a Saturday. -/
def Obligations.LocalTimeAndServiceDay : Prop :=
  ∀ (tb : TimeBase) (t n : Nat),
    (∃ days : Int,
      86400 * days + 60 * (tb.minuteOfDay t : Int) ≤ (t : Int) + 60 * tb.offset ∧
        (t : Int) + 60 * tb.offset < 86400 * days + 60 * (tb.minuteOfDay t : Int) + 60) ∧
      tb.minuteOfDay t ≤ 1439 ∧ (-720 ≤ tb.offset → (t : Int) + 60 * tb.offset < 0 → t < 43200) ∧
      ((t : Int) + 60 * tb.offset - 60 * (tb.boundary : Int) < 0 → tb.serviceDay t = 0) ∧
      (0 ≤ (t : Int) + 60 * tb.offset - 60 * (tb.boundary : Int) →
        86400 * (tb.serviceDay t : Int) ≤ (t : Int) + 60 * tb.offset - 60 * (tb.boundary : Int) ∧
          (t : Int) + 60 * tb.offset - 60 * (tb.boundary : Int) < 86400 * ((tb.serviceDay t : Int) + 1)) ∧
      dayOfWeek n < 7 ∧ dayOfWeek (n + 1) = (dayOfWeek n + 1) % 7 ∧ dayOfWeek 0 = 5

/-- A priced exit runs the nine stages (R51, R52, R54 to R62) over tables that are ready: base, band, scaling, discount,
surcharge, what the chain has paid, cap, overdraft limit and new values. The matrix entry M[i][j] on which every base
rests is entry j of the row i held, so that after an accepted LOAD_ZONE_ROW of row i it is entry j of that load and
every other row is as it was (R50, R171). The charge never exceeds J; under a cap the
spent value never passes the greater of cap and spent before; a balance never rises and keeps the limit. -/
def Obligations.FaresFollowTheStages : Prop :=
  ∀ (v : Service) (tb : TimeBase) (cls : ClassRec) (here : Zones) (img : Image) (tx : Nat),
    (∀ (before after : List (Nat × List Nat)) (i k : Nat) (entries : List Nat) (x : Nat),
      v.rows = before ++ (i, entries) :: after → (∀ r ∈ before, r.1 ≠ i) → entries[k]? = some x →
      v.fare i (k + 1) = x) ∧
    (∀ (s : State) (tag : Byte) (i : Nat) (entries : List Nat),
      s.service.state = .outOfService ∨ s.service.state = .suspended → s.service.zoneCount = some entries.length →
      entries.length ≤ 16 → 1 ≤ i → i ≤ entries.length → (∀ x ∈ entries, x ≤ 20000) → s.admits tag .loadZoneRow →
      ∃ t, exec (.loadZoneRow tag (be 1 i ++ be 1 entries.length ++ entries.flatMap (be 2))) s = .next t ∧
        (∀ k x, entries[k]? = some x → t.service.fare i (k + 1) = x) ∧
        ∀ m j, m ≠ i → t.service.fare m j = s.service.fare m j) ∧
    (1 ≤ v.zoneCount.getD 0 → v.bandsReady = true →
      (∀ bands, v.weekday = some bands ∨ v.weekendSet = some bands → bandsInRange bands) →
      (∃ base rate f1 f2, v.exitBase img.originZones.list here.list base ∧ v.bandRate tb img.chainStart rate ∧
        f1 = min 65535 ((base * rate + 500) / 1000) ∧ f2 = f1 - (f1 * cls.discount + 500) / 1000 ∧
        v.priceExit tb cls here img tx =
          priced tb cls img tx
            (if v.params.tMax < tx - img.chainStart then min 65535 (f2 + v.params.surcharge) else f2) img.chainPaid
            (if img.capDay = tb.serviceDay tx then img.spent else 0)) ∧
      ∃ base rate f1, v.dearestOrigin here.list base ∧ v.bandRate tb tx rate ∧
        f1 = min 65535 ((base * rate + 500) / 1000) ∧
        v.priceMissing tb cls here img tx =
          priced tb cls img tx (f1 - (f1 * cls.discount + 500) / 1000) 0
            (if img.capDay = tb.serviceDay tx then img.spent else 0)) ∧
      ∀ j p t q, priced tb cls img tx j p t = some q →
        q.charge ≤ j ∧ (cls.cap ≠ 0 → q.spent ≤ max cls.cap t) ∧ q.balance ≤ img.balance ∧
          -(cls.overdraft : Int) ≤ q.balance

/-- Check 11 (R27, R35 to R40): the entry rules at Port U, the exit rules at Port P, the free-exit rule on its path,
each with every field of the new image. -/
def Obligations.CheckElevenFollowsTheRules : Prop :=
  ∀ (v : Service) (tb : TimeBase) (cls : ClassRec) (tapTime : Nat) (img : Image) (st : Station), v.station = some st →
    (img.journey = .outside →
      (img.balance < cls.entryMin → ruleTap v tb .U .normal cls tapTime img = .refuse .insufficient) ∧
      (cls.entryMin ≤ img.balance →
        ((∃ e, img.lastExit = some e ∧ tapTime - e.time ≤ v.params.transferWindow) ∧
            img.chainLegs < v.params.maxLegs →
          ruleTap v tb .U .normal cls tapTime img =
            .write { kind := .entry, charge := 0 }
              { img with
                journey := .inSystem, entryStation := st.number, entryZones := st.zones, entryTime := tapTime,
                chainLegs := img.chainLegs + 1, graceUsed := false }) ∧
        (¬((∃ e, img.lastExit = some e ∧ tapTime - e.time ≤ v.params.transferWindow) ∧
              img.chainLegs < v.params.maxLegs) →
          ruleTap v tb .U .normal cls tapTime img =
            .write { kind := .entry, charge := 0 }
              { img with
                journey := .inSystem, entryStation := st.number, entryZones := st.zones, entryTime := tapTime,
                originZones := st.zones, chainStart := tapTime, chainPaid := 0, chainLegs := 1,
                graceUsed := false })) ∧
      ((∃ e, img.lastExit = some e ∧ e.station = st.number ∧ tapTime - e.time ≤ v.params.grace) →
        ruleTap v tb .P .normal cls tapTime img = .exitGrace) ∧
      (¬(∃ e, img.lastExit = some e ∧ e.station = st.number ∧ tapTime - e.time ≤ v.params.grace) →
        (v.priceMissing tb cls st.zones img tapTime = none →
          ruleTap v tb .P .normal cls tapTime img = .refuse .insufficient) ∧
        ∀ q, v.priceMissing tb cls st.zones img tapTime = some q →
          ruleTap v tb .P .normal cls tapTime img =
            .write { kind := .missingEntryExit, charge := q.charge }
              { img with
                lastExit := some { station := st.number, time := tapTime }, balance := q.balance,
                chainPaid := q.paid, spent := q.spent, capDay := q.capDay, graceUsed := false, chainLegs := 4 }) ∧
      ruleTap v tb .P .freeExit cls tapTime img = .free) ∧
    (img.journey = .inSystem →
      (img.entryStation = st.number ∧ tapTime - img.entryTime ≤ v.params.grace →
        ruleTap v tb .U .normal cls tapTime img =
          (if img.graceUsed = true then .refuse .passback
          else .write { kind := .graceEntry, charge := 0 } { img with graceUsed := true })) ∧
      (¬(img.entryStation = st.number ∧ tapTime - img.entryTime ≤ v.params.grace) →
        ruleTap v tb .U .normal cls tapTime img =
          (if img.balance - (v.params.penalty : Int) < cls.entryMin then .refuse .insufficient
          else
            .write { kind := .penaltyEntry, charge := v.params.penalty }
              { img with
                entryStation := st.number, entryZones := st.zones, entryTime := tapTime, originZones := st.zones,
                chainStart := tapTime, chainPaid := 0, chainLegs := 1, graceUsed := false,
                balance := img.balance - (v.params.penalty : Int) })) ∧
      (v.priceExit tb cls st.zones img tapTime = none →
        ruleTap v tb .P .normal cls tapTime img = .refuse .insufficient) ∧
      (∀ q, v.priceExit tb cls st.zones img tapTime = some q →
        ruleTap v tb .P .normal cls tapTime img =
          .write { kind := .exit, charge := q.charge }
            { img with
              journey := .outside, lastExit := some { station := st.number, time := tapTime }, balance := q.balance,
              chainPaid := q.paid, spent := q.spent, capDay := q.capDay, graceUsed := false }) ∧
      ruleTap v tb .P .freeExit cls tapTime img =
        .write { kind := .freeExit, charge := 0 }
          { img with
            journey := .outside, lastExit := some { station := st.number, time := tapTime }, graceUsed := false })

/-! ## Formats (R190 to R193) -/

/-- When a header is accepted, when an image is valid, and which image is the current one (R1 to R3, R5, R193). A
header is accepted for the card that was detected, with a status, a class of 0 to 7 and any expiry. An image is valid
with every field in its range, a scheme slot that is ACCEPTED or CURRENT, and the stamp correct for that slot over the
card number and its bytes before the stamp. Of two valid images the one with the higher txc is current, were it by 1;
equal txc are CARD_INCONSISTENT, no valid image is STAMP_BAD, a current image with txc 65,535 is CARD_EXHAUSTED. -/
def Obligations.CardAreasAreJudgedByTheirRules : Prop :=
  (∀ (card : CardNo) (content : List Byte) (h : Header),
    Header.accept card content = some h ↔
      content = h.bytes ∧ h.card = card ∧ card ≠ 0 ∧ card ≠ BitVec.allOnes 32 ∧ h.cls ≤ 7 ∧ h.expiry ≤ 65535) ∧
    (∀ (v : Service) (card : CardNo) (content : List Byte),
      (v.readArea card content).bytes = content ∧
        ∀ i : Image, (v.readArea card content).valid = some i ↔
          content = i.bytes ∧ i.inRange ∧
            (v.schemes.get i.scheme = .accepted ∨ v.schemes.get i.scheme = .current) ∧
            i.stamp = Config.stampOf i.scheme (stampInput card i.covered)) ∧
    ∀ a b : Option Image,
      (a = none → b = none → chooseImage a b = .refuse .stampBad) ∧
      (∀ x y, a = some x → b = some y → x.txc = y.txc → chooseImage a b = .refuse .cardInconsistent) ∧
      (∀ x, a = some x → (∀ y, b = some y → y.txc < x.txc) →
        (x.txc < 65535 → chooseImage a b = .image { slot := .A, image := x }) ∧
        (65535 ≤ x.txc → chooseImage a b = .refuse .cardExhausted)) ∧
      ∀ y, b = some y → (∀ x, a = some x → x.txc < y.txc) →
        (y.txc < 65535 → chooseImage a b = .image { slot := .B, image := y }) ∧
        (65535 ≤ y.txc → chooseImage a b = .refuse .cardExhausted)

/-- What is written is read back, with no bit lost: a header and an image by the checks of R1 and R2, a host frame as
the one command of its kind, and each frame of the aisle link as its command at every gate it is addressed to. The byte
receivers stand beside the commands by the model's choice (log 30). -/
def Obligations.WhatIsWrittenIsReadBack : Prop :=
  (∀ h : Header, h.card ≠ 0 → h.card ≠ BitVec.allOnes 32 → h.cls ≤ 7 → h.expiry ≤ 65535 →
    h.bytes.length = 8 ∧ Header.accept h.card h.bytes = some h) ∧
    (∀ i : Image, i.inRange → i.bytes.length = 40 ∧ Image.read i.bytes = some i) ∧
    (∀ (tag kind : Byte) (body : List Byte), body.length ≤ 1024 →
      hostRun none (hostFrame tag kind body) = (none, [requestOf tag kind body])) ∧
    ∀ (src dest : Byte) (rx : LinkRx), 1 ≤ src.toNat → src.toNat ≤ 16 → 1 ≤ dest.toNat → dest.toNat ≤ 16 →
      linkRun dest.toNat rx (linkFrame dest.toNat src.toNat 1 []) = (none, [.linkToken src]) ∧
      linkRun dest.toNat rx (linkFrame dest.toNat src.toNat 2 []) = (none, [.linkJoinInvite src]) ∧
      linkRun dest.toNat rx (linkFrame dest.toNat src.toNat 3 []) = (none, [.linkJoinReply src]) ∧
      linkRun dest.toNat rx (linkFrame 255 src.toNat 8 (b1 1)) = (none, [.linkEmergency src 1]) ∧
      linkRun dest.toNat rx (linkFrame 255 src.toNat 8 (b1 2)) = (none, [.linkEmergency src 2]) ∧
      ∀ m : LinkMsg, m.inRange →
        linkRun dest.toNat rx (linkFrame 255 src.toNat m.code m.body) = (none, [m.command src])

/-! ## Resets (R25, R48, R96, R116, R140, R148, R149, R163, R176, R177, R184, R189) -/

/-- POWER_ON: every block at its power-on value, with the aisle, the straps and the fire input as the pins stand; a
fire input that stands makes the journal's first record and the one notice. What State.reset adds to the spec (quiet
pins, four ACCEPTED slots) is the model's choice (log 3, 4); clock, free choices and queue go on (log 34). -/
def Obligations.PowerOnStartsEveryBlock : Prop :=
  exec (.powerOn quietPins) State.reset = .next State.reset ∧
    ∀ (s : State) (p : Pins), ∃ t, exec (.powerOn p) s = .next t ∧ t.pins = p ∧ t.clock = s.clock ∧
      t.freeReads = s.freeReads ∧ t.pending = s.pending ∧
      (∀ side, (t.port side).state = .disabled ∧ (t.port side).ctx = none ∧ (t.port side).exchange = none ∧
        (t.port side).attempts = 0 ∧ (t.port side).deadline = .stopped ∧ (t.port side).aisleWait = none ∧
        (t.port side).stopHold = none) ∧
      t.screening.deny = [] ∧ t.screening.sightings = [] ∧
      LinkAtRest t.link 0 ∧ t.link.rows.length = 16 ∧ t.link.queue = [] ∧
      AisleAtRest t.passage p p.fire s.clock .outbound ∧
      t.emergency = { fire := p.fire, hostFlag := false, line := p.fire } ∧
      t.journal.records = numbered 1 0 (if p.fire = true then [{ kind := .emergencyStart, reason := some .fire }] else []) ∧
      t.journal.nextSerial = (if p.fire = true then 2 else 1) ∧ t.journal.halted = false ∧
      t.time = { now := 0, set := false, offset := 0, boundary := 180 } ∧
      t.service =
        { state := .outOfService, zoneCount := none, rows := [], weekday := none, weekendSet := none,
          classes := .initial, station := none, params := .default, schemes := t.service.schemes, suspends := [] } ∧
      (∀ n, 1 ≤ n → n ≤ 4 →
        t.service.schemes.get n =
          if s.service.schemes.get n = .current then .accepted else s.service.schemes.get n) ∧
      t.host.speed = speedOf p ∧ t.host.rxInFrame = false ∧ t.host.window = [] ∧ t.formed = [] ∧
      (∀ k, t.tells k = (p.fire && k == .emergencyChange)) ∧ t.host.tapU = none ∧ t.host.tapP = none ∧
      t.host.finding = none ∧ t.host.findings = 0 ∧ t.host.resetTaken = false

/-- WARM_RESET: time, tables, settings, parameters, scheme slots, host flag, line address, journal and tap results are
kept; contexts, claims, credits, latches, hold-open, the window and every pending notice go; each PENDING_LOCAL entry
is settled; the line emergency is judged from fire input and host flag; the service state from the readiness items. An
entry whose STORE was sent becomes IN_DOUBT with its record, any other is set back to what it was, a held update is
applied, and the effects of a clone mark follow (R86 to R88, R96; that the table's order is taken is the model's choice,
log 16). `u` is the part after that: against it the credits cleared, which make no record, leave the lapse marks and
LAPSE frames of those of origin TAP (R89, R123), the queue keeps its frames, without marks and none in transmission
(R112, R113, R116; that a frame in transmission is cut last is the model's choice, log 52), and the record of the
emergency follows (log 53). With no tap pending and no credit standing, the journal grows by the change of the
emergency alone and the tables of the Screening Unit and the outbound queue stay as they are. -/
def Obligations.WarmResetKeepsWhatItsRulesKeep : Prop :=
  ∀ (s : State) (fire : Bool), ∃ t bodies, exec (.warmReset fire) s = .next t ∧
    t.pins = { s.pins with fire := fire } ∧ t.clock = s.clock ∧ t.pending = s.pending ∧ t.time = s.time ∧
    t.service =
      { s.service with state := if s.missing.any = true then .outOfService else .suspended, suspends := [] } ∧
    (∀ side, (t.port side).state = .disabled ∧ (t.port side).ctx = none ∧ (t.port side).exchange = none ∧
      (t.port side).deadline = .stopped ∧ (t.port side).aisleWait = none ∧ (t.port side).stopHold = none) ∧
    (s.screening.sightOk → ∀ e ∈ t.screening.sightings, e.isPending = false) ∧
    LinkAtRest t.link s.link.addr ∧ t.link.rows.length = s.link.rows.length ∧
    AisleAtRest t.passage t.pins (fire || s.emergency.hostFlag) s.clock s.passage.claim.lastGranted ∧
    t.emergency =
      { fire := fire, hostFlag := s.emergency.hostFlag, line := fire || s.emergency.hostFlag } ∧
    s.journal.grownBy t.journal s.time.now bodies ∧
    t.host.speed = speedOf t.pins ∧ t.host.rxInFrame = false ∧ t.host.window = [] ∧ t.formed = [] ∧
    (∀ k, t.tells k = (k == .serviceState)) ∧ t.host.tapU = s.host.tapU ∧ t.host.tapP = s.host.tapP ∧
    t.host.finding = none ∧ t.host.findings = 0 ∧ t.host.resetTaken = false ∧
    (∀ b ∈ bodies, b.kind ≠ .unusedCredit) ∧
    (s.screening.sightOk → s.screening.sightings.length ≤ 1024 →
      ∃ u frames change, PendingSettled s s.screening.sightings u ∧
        frames = s.passage.credits.flatMap u.lapseFrames ∧
        change =
          (if s.emergency.line = (fire || s.emergency.hostFlag) then []
          else if s.emergency.line = true then [{ kind := .emergencyEnd, reason := some .reset }]
          else [{ kind := .emergencyStart, reason := some .fire }]) ∧
        Lapsed u t s.passage.credits ∧
        t.link.queue = (u.link.withFrames frames).queue.map (fun q => { q with marks := [], inTx := false }) ∧
        Journals u t (u.link.dropRecords frames ++ change)) ∧
    ((∀ e ∈ s.screening.sightings, e.isPending = false) → s.passage.credits = [] →
      t.screening = s.screening ∧ t.link.queue.map QItem.msg = s.link.queue.map QItem.msg ∧
      bodies =
        (if s.journal.halted = true ∨ s.emergency.line = (fire || s.emergency.hostFlag) then []
        else if s.emergency.line = true then [{ kind := .emergencyEnd, reason := some .reset }]
        else [{ kind := .emergencyStart, reason := some .fire }]))

/-! ## Every command -/

/-- The tables change only while the service state is OUT_OF_SERVICE or SUSPENDED, and in those states no tap context
is past detection (R169); only a power-on changes them otherwise (R176). A RETIRED scheme slot stays RETIRED (R4). -/
def Obligations.TablesChangeOnlyOutOfService : Prop :=
  ∀ (c : Instr) (s t : State), exec c s = .next t →
    ((∀ p, c ≠ .powerOn p) → t.service.tables ≠ s.service.tables →
      s.service.state = .outOfService ∨ s.service.state = .suspended) ∧
    ((s.service.state = .outOfService ∨ s.service.state = .suspended → s.portU.ctx = none ∧ s.portP.ctx = none) →
      t.service.state = .outOfService ∨ t.service.state = .suspended → t.portU.ctx = none ∧ t.portP.ctx = none) ∧
    ∀ n, s.service.schemes.get n = .retired → t.service.schemes.get n = .retired

/-- No record is changed after it is appended (R150): a command other than a power-on only appends, with serials that
go on by one and the counter's value as their time, and while the journal stays halted only REVENUE records; only a
JOURNAL_DROP removes, from the front (R152, R156, R161). Of the records that a command appends, the one that carries
the count to the notice level raises JOURNAL_LEVEL, and the one that begins the halt raises JOURNAL_HALT, sets the halt
and lets no EVENT after it; no other append raises either (R154, R155). Of the notices nothing is said for a
WARM_RESET, which empties their set, and for the end of a host frame, which takes the one sent. -/
def Obligations.RecordsNeverChange : Prop :=
  ∀ (c : Instr) (s t : State), exec c s = .next t → (∀ p, c ≠ .powerOn p) →
    (∃ bodies, s.journal.grownBy t.journal t.time.now bodies ∧
      (s.journal.halted = true → ∀ b ∈ bodies, b.kind.cls = .revenue) ∧
      (bodies ≠ [] →
        Logged s t t.time.now bodies ∧
          ((∀ fire, c ≠ .warmReset fire) → c ≠ .hostFrameSent → LevelsTold s t))) ∨
    ∃ tag body n, c = .journalDrop tag body ∧ t.journal.records = s.journal.records.drop n ∧
      t.journal.nextSerial = s.journal.nextSerial

/-- Good states lead to good states, whatever the command: serials without a gap, the halt below its level, the line
emergency as judged, deny list and sighting table in their form, queues and counts within their capacities. -/
def Obligations.StepKeepsGood : Prop := ∀ s t : State, Good s → step s = .next t → Good t

/-- Sound states lead to sound states, whatever the command, among good ones: the sighting table within 1,024 entries
and 64 IN_DOUBT, one PENDING_LOCAL entry to a tap, at most two credits, each on its own slot in the claim's direction,
a drain that waits for a tap, the journal within 2,048 records (R75, R76, R87, R117, R121, R156, R159, R167). -/
def Obligations.StepKeepsSound : Prop := ∀ s t : State, Good s → Sound s → step s = .next t → Sound t

/-- The state after reset is good and sound. -/
def Obligations.ResetIsGood : Prop := Good State.reset ∧ Sound State.reset
end

