-- ==== Sys2Proof/Laws/State.lean ====
section
/-! SUPPORT. The fields of State after each update of one block: what is updated, and everything else unchanged. -/

namespace Sys2Proof.Machine

variable (s : State)

@[simp] theorem State.onPins_pins (f : Pins → Pins) : (s.onPins f).pins = f s.pins := rfl
@[simp] theorem State.onPins_clock (f : Pins → Pins) : (s.onPins f).clock = s.clock := rfl
@[simp] theorem State.onPins_freeReads (f : Pins → Pins) : (s.onPins f).freeReads = s.freeReads := rfl
@[simp] theorem State.onPins_portU (f : Pins → Pins) : (s.onPins f).portU = s.portU := rfl
@[simp] theorem State.onPins_portP (f : Pins → Pins) : (s.onPins f).portP = s.portP := rfl
@[simp] theorem State.onPins_screening (f : Pins → Pins) : (s.onPins f).screening = s.screening := rfl
@[simp] theorem State.onPins_link (f : Pins → Pins) : (s.onPins f).link = s.link := rfl
@[simp] theorem State.onPins_passage (f : Pins → Pins) : (s.onPins f).passage = s.passage := rfl
@[simp] theorem State.onPins_emergency (f : Pins → Pins) : (s.onPins f).emergency = s.emergency := rfl
@[simp] theorem State.onPins_journal (f : Pins → Pins) : (s.onPins f).journal = s.journal := rfl
@[simp] theorem State.onPins_time (f : Pins → Pins) : (s.onPins f).time = s.time := rfl
@[simp] theorem State.onPins_service (f : Pins → Pins) : (s.onPins f).service = s.service := rfl
@[simp] theorem State.onPins_host (f : Pins → Pins) : (s.onPins f).host = s.host := rfl
@[simp] theorem State.onPins_pending (f : Pins → Pins) : (s.onPins f).pending = s.pending := rfl

@[simp] theorem State.onScreening_pins (f : Screening → Screening) : (s.onScreening f).pins = s.pins := rfl
@[simp] theorem State.onScreening_clock (f : Screening → Screening) : (s.onScreening f).clock = s.clock := rfl
@[simp] theorem State.onScreening_freeReads (f : Screening → Screening) : (s.onScreening f).freeReads = s.freeReads := rfl
@[simp] theorem State.onScreening_portU (f : Screening → Screening) : (s.onScreening f).portU = s.portU := rfl
@[simp] theorem State.onScreening_portP (f : Screening → Screening) : (s.onScreening f).portP = s.portP := rfl
@[simp] theorem State.onScreening_screening (f : Screening → Screening) : (s.onScreening f).screening = f s.screening := rfl
@[simp] theorem State.onScreening_link (f : Screening → Screening) : (s.onScreening f).link = s.link := rfl
@[simp] theorem State.onScreening_passage (f : Screening → Screening) : (s.onScreening f).passage = s.passage := rfl
@[simp] theorem State.onScreening_emergency (f : Screening → Screening) : (s.onScreening f).emergency = s.emergency := rfl
@[simp] theorem State.onScreening_journal (f : Screening → Screening) : (s.onScreening f).journal = s.journal := rfl
@[simp] theorem State.onScreening_time (f : Screening → Screening) : (s.onScreening f).time = s.time := rfl
@[simp] theorem State.onScreening_service (f : Screening → Screening) : (s.onScreening f).service = s.service := rfl
@[simp] theorem State.onScreening_host (f : Screening → Screening) : (s.onScreening f).host = s.host := rfl
@[simp] theorem State.onScreening_pending (f : Screening → Screening) : (s.onScreening f).pending = s.pending := rfl

@[simp] theorem State.onLink_pins (f : Link → Link) : (s.onLink f).pins = s.pins := rfl
@[simp] theorem State.onLink_clock (f : Link → Link) : (s.onLink f).clock = s.clock := rfl
@[simp] theorem State.onLink_freeReads (f : Link → Link) : (s.onLink f).freeReads = s.freeReads := rfl
@[simp] theorem State.onLink_portU (f : Link → Link) : (s.onLink f).portU = s.portU := rfl
@[simp] theorem State.onLink_portP (f : Link → Link) : (s.onLink f).portP = s.portP := rfl
@[simp] theorem State.onLink_screening (f : Link → Link) : (s.onLink f).screening = s.screening := rfl
@[simp] theorem State.onLink_link (f : Link → Link) : (s.onLink f).link = f s.link := rfl
@[simp] theorem State.onLink_passage (f : Link → Link) : (s.onLink f).passage = s.passage := rfl
@[simp] theorem State.onLink_emergency (f : Link → Link) : (s.onLink f).emergency = s.emergency := rfl
@[simp] theorem State.onLink_journal (f : Link → Link) : (s.onLink f).journal = s.journal := rfl
@[simp] theorem State.onLink_time (f : Link → Link) : (s.onLink f).time = s.time := rfl
@[simp] theorem State.onLink_service (f : Link → Link) : (s.onLink f).service = s.service := rfl
@[simp] theorem State.onLink_host (f : Link → Link) : (s.onLink f).host = s.host := rfl
@[simp] theorem State.onLink_pending (f : Link → Link) : (s.onLink f).pending = s.pending := rfl

@[simp] theorem State.onPassage_pins (f : Passage → Passage) : (s.onPassage f).pins = s.pins := rfl
@[simp] theorem State.onPassage_clock (f : Passage → Passage) : (s.onPassage f).clock = s.clock := rfl
@[simp] theorem State.onPassage_freeReads (f : Passage → Passage) : (s.onPassage f).freeReads = s.freeReads := rfl
@[simp] theorem State.onPassage_portU (f : Passage → Passage) : (s.onPassage f).portU = s.portU := rfl
@[simp] theorem State.onPassage_portP (f : Passage → Passage) : (s.onPassage f).portP = s.portP := rfl
@[simp] theorem State.onPassage_screening (f : Passage → Passage) : (s.onPassage f).screening = s.screening := rfl
@[simp] theorem State.onPassage_link (f : Passage → Passage) : (s.onPassage f).link = s.link := rfl
@[simp] theorem State.onPassage_passage (f : Passage → Passage) : (s.onPassage f).passage = f s.passage := rfl
@[simp] theorem State.onPassage_emergency (f : Passage → Passage) : (s.onPassage f).emergency = s.emergency := rfl
@[simp] theorem State.onPassage_journal (f : Passage → Passage) : (s.onPassage f).journal = s.journal := rfl
@[simp] theorem State.onPassage_time (f : Passage → Passage) : (s.onPassage f).time = s.time := rfl
@[simp] theorem State.onPassage_service (f : Passage → Passage) : (s.onPassage f).service = s.service := rfl
@[simp] theorem State.onPassage_host (f : Passage → Passage) : (s.onPassage f).host = s.host := rfl
@[simp] theorem State.onPassage_pending (f : Passage → Passage) : (s.onPassage f).pending = s.pending := rfl

@[simp] theorem State.onEmergency_pins (f : Emergency → Emergency) : (s.onEmergency f).pins = s.pins := rfl
@[simp] theorem State.onEmergency_clock (f : Emergency → Emergency) : (s.onEmergency f).clock = s.clock := rfl
@[simp] theorem State.onEmergency_freeReads (f : Emergency → Emergency) : (s.onEmergency f).freeReads = s.freeReads := rfl
@[simp] theorem State.onEmergency_portU (f : Emergency → Emergency) : (s.onEmergency f).portU = s.portU := rfl
@[simp] theorem State.onEmergency_portP (f : Emergency → Emergency) : (s.onEmergency f).portP = s.portP := rfl
@[simp] theorem State.onEmergency_screening (f : Emergency → Emergency) : (s.onEmergency f).screening = s.screening := rfl
@[simp] theorem State.onEmergency_link (f : Emergency → Emergency) : (s.onEmergency f).link = s.link := rfl
@[simp] theorem State.onEmergency_passage (f : Emergency → Emergency) : (s.onEmergency f).passage = s.passage := rfl
@[simp] theorem State.onEmergency_emergency (f : Emergency → Emergency) : (s.onEmergency f).emergency = f s.emergency := rfl
@[simp] theorem State.onEmergency_journal (f : Emergency → Emergency) : (s.onEmergency f).journal = s.journal := rfl
@[simp] theorem State.onEmergency_time (f : Emergency → Emergency) : (s.onEmergency f).time = s.time := rfl
@[simp] theorem State.onEmergency_service (f : Emergency → Emergency) : (s.onEmergency f).service = s.service := rfl
@[simp] theorem State.onEmergency_host (f : Emergency → Emergency) : (s.onEmergency f).host = s.host := rfl
@[simp] theorem State.onEmergency_pending (f : Emergency → Emergency) : (s.onEmergency f).pending = s.pending := rfl

@[simp] theorem State.onJournal_pins (f : Journal → Journal) : (s.onJournal f).pins = s.pins := rfl
@[simp] theorem State.onJournal_clock (f : Journal → Journal) : (s.onJournal f).clock = s.clock := rfl
@[simp] theorem State.onJournal_freeReads (f : Journal → Journal) : (s.onJournal f).freeReads = s.freeReads := rfl
@[simp] theorem State.onJournal_portU (f : Journal → Journal) : (s.onJournal f).portU = s.portU := rfl
@[simp] theorem State.onJournal_portP (f : Journal → Journal) : (s.onJournal f).portP = s.portP := rfl
@[simp] theorem State.onJournal_screening (f : Journal → Journal) : (s.onJournal f).screening = s.screening := rfl
@[simp] theorem State.onJournal_link (f : Journal → Journal) : (s.onJournal f).link = s.link := rfl
@[simp] theorem State.onJournal_passage (f : Journal → Journal) : (s.onJournal f).passage = s.passage := rfl
@[simp] theorem State.onJournal_emergency (f : Journal → Journal) : (s.onJournal f).emergency = s.emergency := rfl
@[simp] theorem State.onJournal_journal (f : Journal → Journal) : (s.onJournal f).journal = f s.journal := rfl
@[simp] theorem State.onJournal_time (f : Journal → Journal) : (s.onJournal f).time = s.time := rfl
@[simp] theorem State.onJournal_service (f : Journal → Journal) : (s.onJournal f).service = s.service := rfl
@[simp] theorem State.onJournal_host (f : Journal → Journal) : (s.onJournal f).host = s.host := rfl
@[simp] theorem State.onJournal_pending (f : Journal → Journal) : (s.onJournal f).pending = s.pending := rfl

@[simp] theorem State.onTime_pins (f : TimeBase → TimeBase) : (s.onTime f).pins = s.pins := rfl
@[simp] theorem State.onTime_clock (f : TimeBase → TimeBase) : (s.onTime f).clock = s.clock := rfl
@[simp] theorem State.onTime_freeReads (f : TimeBase → TimeBase) : (s.onTime f).freeReads = s.freeReads := rfl
@[simp] theorem State.onTime_portU (f : TimeBase → TimeBase) : (s.onTime f).portU = s.portU := rfl
@[simp] theorem State.onTime_portP (f : TimeBase → TimeBase) : (s.onTime f).portP = s.portP := rfl
@[simp] theorem State.onTime_screening (f : TimeBase → TimeBase) : (s.onTime f).screening = s.screening := rfl
@[simp] theorem State.onTime_link (f : TimeBase → TimeBase) : (s.onTime f).link = s.link := rfl
@[simp] theorem State.onTime_passage (f : TimeBase → TimeBase) : (s.onTime f).passage = s.passage := rfl
@[simp] theorem State.onTime_emergency (f : TimeBase → TimeBase) : (s.onTime f).emergency = s.emergency := rfl
@[simp] theorem State.onTime_journal (f : TimeBase → TimeBase) : (s.onTime f).journal = s.journal := rfl
@[simp] theorem State.onTime_time (f : TimeBase → TimeBase) : (s.onTime f).time = f s.time := rfl
@[simp] theorem State.onTime_service (f : TimeBase → TimeBase) : (s.onTime f).service = s.service := rfl
@[simp] theorem State.onTime_host (f : TimeBase → TimeBase) : (s.onTime f).host = s.host := rfl
@[simp] theorem State.onTime_pending (f : TimeBase → TimeBase) : (s.onTime f).pending = s.pending := rfl

@[simp] theorem State.onService_pins (f : Service → Service) : (s.onService f).pins = s.pins := rfl
@[simp] theorem State.onService_clock (f : Service → Service) : (s.onService f).clock = s.clock := rfl
@[simp] theorem State.onService_freeReads (f : Service → Service) : (s.onService f).freeReads = s.freeReads := rfl
@[simp] theorem State.onService_portU (f : Service → Service) : (s.onService f).portU = s.portU := rfl
@[simp] theorem State.onService_portP (f : Service → Service) : (s.onService f).portP = s.portP := rfl
@[simp] theorem State.onService_screening (f : Service → Service) : (s.onService f).screening = s.screening := rfl
@[simp] theorem State.onService_link (f : Service → Service) : (s.onService f).link = s.link := rfl
@[simp] theorem State.onService_passage (f : Service → Service) : (s.onService f).passage = s.passage := rfl
@[simp] theorem State.onService_emergency (f : Service → Service) : (s.onService f).emergency = s.emergency := rfl
@[simp] theorem State.onService_journal (f : Service → Service) : (s.onService f).journal = s.journal := rfl
@[simp] theorem State.onService_time (f : Service → Service) : (s.onService f).time = s.time := rfl
@[simp] theorem State.onService_service (f : Service → Service) : (s.onService f).service = f s.service := rfl
@[simp] theorem State.onService_host (f : Service → Service) : (s.onService f).host = s.host := rfl
@[simp] theorem State.onService_pending (f : Service → Service) : (s.onService f).pending = s.pending := rfl

@[simp] theorem State.onHost_pins (f : HostLink → HostLink) : (s.onHost f).pins = s.pins := rfl
@[simp] theorem State.onHost_clock (f : HostLink → HostLink) : (s.onHost f).clock = s.clock := rfl
@[simp] theorem State.onHost_freeReads (f : HostLink → HostLink) : (s.onHost f).freeReads = s.freeReads := rfl
@[simp] theorem State.onHost_portU (f : HostLink → HostLink) : (s.onHost f).portU = s.portU := rfl
@[simp] theorem State.onHost_portP (f : HostLink → HostLink) : (s.onHost f).portP = s.portP := rfl
@[simp] theorem State.onHost_screening (f : HostLink → HostLink) : (s.onHost f).screening = s.screening := rfl
@[simp] theorem State.onHost_link (f : HostLink → HostLink) : (s.onHost f).link = s.link := rfl
@[simp] theorem State.onHost_passage (f : HostLink → HostLink) : (s.onHost f).passage = s.passage := rfl
@[simp] theorem State.onHost_emergency (f : HostLink → HostLink) : (s.onHost f).emergency = s.emergency := rfl
@[simp] theorem State.onHost_journal (f : HostLink → HostLink) : (s.onHost f).journal = s.journal := rfl
@[simp] theorem State.onHost_time (f : HostLink → HostLink) : (s.onHost f).time = s.time := rfl
@[simp] theorem State.onHost_service (f : HostLink → HostLink) : (s.onHost f).service = s.service := rfl
@[simp] theorem State.onHost_host (f : HostLink → HostLink) : (s.onHost f).host = f s.host := rfl
@[simp] theorem State.onHost_pending (f : HostLink → HostLink) : (s.onHost f).pending = s.pending := rfl

@[simp] theorem State.onPort_pins (side : Side) (f : Port → Port) : (s.onPort side f).pins = s.pins := by
  cases side <;> rfl
@[simp] theorem State.onPort_clock (side : Side) (f : Port → Port) : (s.onPort side f).clock = s.clock := by
  cases side <;> rfl
@[simp] theorem State.onPort_freeReads (side : Side) (f : Port → Port) : (s.onPort side f).freeReads = s.freeReads := by
  cases side <;> rfl
@[simp] theorem State.onPort_screening (side : Side) (f : Port → Port) : (s.onPort side f).screening = s.screening := by
  cases side <;> rfl
@[simp] theorem State.onPort_link (side : Side) (f : Port → Port) : (s.onPort side f).link = s.link := by
  cases side <;> rfl
@[simp] theorem State.onPort_passage (side : Side) (f : Port → Port) : (s.onPort side f).passage = s.passage := by
  cases side <;> rfl
@[simp] theorem State.onPort_emergency (side : Side) (f : Port → Port) : (s.onPort side f).emergency = s.emergency := by
  cases side <;> rfl
@[simp] theorem State.onPort_journal (side : Side) (f : Port → Port) : (s.onPort side f).journal = s.journal := by
  cases side <;> rfl
@[simp] theorem State.onPort_time (side : Side) (f : Port → Port) : (s.onPort side f).time = s.time := by
  cases side <;> rfl
@[simp] theorem State.onPort_service (side : Side) (f : Port → Port) : (s.onPort side f).service = s.service := by
  cases side <;> rfl
@[simp] theorem State.onPort_host (side : Side) (f : Port → Port) : (s.onPort side f).host = s.host := by
  cases side <;> rfl
@[simp] theorem State.onPort_pending (side : Side) (f : Port → Port) : (s.onPort side f).pending = s.pending := by
  cases side <;> rfl

@[simp] theorem State.onPort_port (side : Side) (f : Port → Port) : (s.onPort side f).port side = f (s.port side) := by
  cases side <;> rfl

@[simp] theorem State.onPort_other (side : Side) (f : Port → Port) :
    (s.onPort side f).port (otherSide side) = s.port (otherSide side) := by
  cases side <;> rfl

@[simp] theorem State.withQueue_pins (q : List Instr) : (s.withQueue q).pins = s.pins := rfl
@[simp] theorem State.withQueue_clock (q : List Instr) : (s.withQueue q).clock = s.clock := rfl
@[simp] theorem State.withQueue_freeReads (q : List Instr) : (s.withQueue q).freeReads = s.freeReads := rfl
@[simp] theorem State.withQueue_portU (q : List Instr) : (s.withQueue q).portU = s.portU := rfl
@[simp] theorem State.withQueue_portP (q : List Instr) : (s.withQueue q).portP = s.portP := rfl
@[simp] theorem State.withQueue_screening (q : List Instr) : (s.withQueue q).screening = s.screening := rfl
@[simp] theorem State.withQueue_link (q : List Instr) : (s.withQueue q).link = s.link := rfl
@[simp] theorem State.withQueue_passage (q : List Instr) : (s.withQueue q).passage = s.passage := rfl
@[simp] theorem State.withQueue_emergency (q : List Instr) : (s.withQueue q).emergency = s.emergency := rfl
@[simp] theorem State.withQueue_journal (q : List Instr) : (s.withQueue q).journal = s.journal := rfl
@[simp] theorem State.withQueue_time (q : List Instr) : (s.withQueue q).time = s.time := rfl
@[simp] theorem State.withQueue_service (q : List Instr) : (s.withQueue q).service = s.service := rfl
@[simp] theorem State.withQueue_host (q : List Instr) : (s.withQueue q).host = s.host := rfl
@[simp] theorem State.withQueue_pending (q : List Instr) : (s.withQueue q).pending = q := rfl

@[simp] theorem State.idle_pins : s.idle.pins = s.pins := rfl
@[simp] theorem State.idle_clock : s.idle.clock = s.clock + 1 := rfl
@[simp] theorem State.idle_freeReads : s.idle.freeReads = s.freeReads := rfl
@[simp] theorem State.idle_portU : s.idle.portU = s.portU := rfl
@[simp] theorem State.idle_portP : s.idle.portP = s.portP := rfl
@[simp] theorem State.idle_screening : s.idle.screening = s.screening := rfl
@[simp] theorem State.idle_link : s.idle.link = s.link.beginTx s.clock s.emergency.own := rfl
@[simp] theorem State.idle_passage : s.idle.passage = s.passage := rfl
@[simp] theorem State.idle_emergency : s.idle.emergency = s.emergency := rfl
@[simp] theorem State.idle_journal : s.idle.journal = s.journal := rfl
@[simp] theorem State.idle_time : s.idle.time = s.time := rfl
@[simp] theorem State.idle_service : s.idle.service = s.service := rfl
@[simp] theorem State.idle_host : s.idle.host = s.host := rfl
@[simp] theorem State.idle_pending : s.idle.pending = s.pending := rfl

/-! ## The next frame of a turn and its first bit (R97, R103, R104) -/

/-- What the choice of the next frame of a turn leaves as it is. -/
structure Link.SameButSending (l m : Link) : Prop where
  addr : m.addr = l.addr
  state : m.state = l.state
  rows : m.rows = l.rows
  turn : m.turn = l.turn
  sent : m.sent = l.sent
  emergencySent : m.emergencySent = l.emergencySent
  rxBegun : m.rxBegun = l.rxBegun
  silence : m.silence = l.silence
  deassertPending : m.deassertPending = l.deassertPending
  syncs : m.syncs = l.syncs

theorem Link.pass_same (clock : Nat) (l : Link) : l.SameButSending (l.pass clock) := by
  unfold Link.pass
  split <;> constructor <;> rfl

theorem Link.endFrames_same (clock : Nat) (l : Link) : l.SameButSending (l.endFrames clock) := by
  unfold Link.endFrames
  split
  · split
    · constructor <;> rfl
    · exact l.pass_same clock
  · exact l.pass_same clock

theorem Link.nextInTurn_same (clock : Nat) (own : Bool) (l : Link) : l.SameButSending (l.nextInTurn clock own) := by
  unfold Link.nextInTurn
  split
  · exact l.endFrames_same clock
  · split
    · constructor <;> rfl
    · constructor <;> rfl
    · exact l.endFrames_same clock

theorem Link.goOn_same (clock : Nat) (own : Bool) (l : Link) : l.SameButSending (l.goOn clock own) := by
  unfold Link.goOn
  split
  · constructor <;> rfl
  · exact l.nextInTurn_same clock own

theorem Link.choose_same (clock : Nat) (own : Bool) (l : Link) : l.SameButSending (l.choose clock own) := by
  unfold Link.choose
  split
  · exact l.nextInTurn_same clock own
  · constructor <;> rfl

theorem Link.beginTx_same (clock : Nat) (own : Bool) (l : Link) : l.SameButSending (l.beginTx clock own) := by
  obtain ⟨h0, h1, h2, h3, h4, h5, h6, h7, h8, h9⟩ := l.choose_same clock own
  exact ⟨h0, h1, h2, h3, h4, h5, h6, h7, h8, h9⟩

/-- With nothing waiting to be chosen, a first bit changes nothing but `txBegun`. -/
theorem Link.beginTx_not_due (clock : Nat) (own : Bool) {l : Link} (h : l.due = false) :
    l.beginTx clock own = { l with txBegun := l.tx.isSome } := by
  simp [Link.beginTx, Link.choose, h]

/-- While a frame waits to be chosen nothing is on its way. -/
theorem Link.goOn_waits (clock : Nat) (own : Bool) {l : Link} (h : (l.nextInTurn clock own).tx.isSome = true) :
    l.goOn clock own = { l.cutTx with due := true } := if_pos h

/-- With nothing to send a turn goes on as its choice gives: the lone holder waits. -/
theorem Link.goOn_rests (clock : Nat) (own : Bool) {l : Link} (h : (l.nextInTurn clock own).tx = none) :
    l.goOn clock own = l.nextInTurn clock own := by
  simp [Link.goOn, h]

@[simp] theorem Link.beginTx_addr (clock : Nat) (own : Bool) (l : Link) : (l.beginTx clock own).addr = l.addr :=
  (l.beginTx_same clock own).addr
@[simp] theorem Link.beginTx_state (clock : Nat) (own : Bool) (l : Link) : (l.beginTx clock own).state = l.state :=
  (l.beginTx_same clock own).state
@[simp] theorem Link.beginTx_rows (clock : Nat) (own : Bool) (l : Link) : (l.beginTx clock own).rows = l.rows :=
  (l.beginTx_same clock own).rows
@[simp] theorem Link.beginTx_turn (clock : Nat) (own : Bool) (l : Link) : (l.beginTx clock own).turn = l.turn :=
  (l.beginTx_same clock own).turn
@[simp] theorem Link.beginTx_sent (clock : Nat) (own : Bool) (l : Link) : (l.beginTx clock own).sent = l.sent :=
  (l.beginTx_same clock own).sent
@[simp] theorem Link.beginTx_emergencySent (clock : Nat) (own : Bool) (l : Link) : (l.beginTx clock own).emergencySent = l.emergencySent :=
  (l.beginTx_same clock own).emergencySent
@[simp] theorem Link.beginTx_rxBegun (clock : Nat) (own : Bool) (l : Link) : (l.beginTx clock own).rxBegun = l.rxBegun :=
  (l.beginTx_same clock own).rxBegun
@[simp] theorem Link.beginTx_silence (clock : Nat) (own : Bool) (l : Link) : (l.beginTx clock own).silence = l.silence :=
  (l.beginTx_same clock own).silence
@[simp] theorem Link.beginTx_deassertPending (clock : Nat) (own : Bool) (l : Link) : (l.beginTx clock own).deassertPending = l.deassertPending :=
  (l.beginTx_same clock own).deassertPending
@[simp] theorem Link.beginTx_syncs (clock : Nat) (own : Bool) (l : Link) : (l.beginTx clock own).syncs = l.syncs :=
  (l.beginTx_same clock own).syncs
@[simp] theorem Link.beginTx_driving (clock : Nat) (own : Bool) (l : Link) :
    (l.beginTx clock own).driving = (l.choose clock own).tx.isSome := by
  simp [Link.driving, Link.beginTx]
@[simp] theorem Link.cutTx_driving (l : Link) : l.cutTx.driving = false := rfl
@[simp] theorem Link.send_driving (l : Link) (tx : LinkTx) : (l.send tx).driving = false := rfl

end Sys2Proof.Machine
end

