-- ==== Sys2Proof/Laws/Ops.lean ====
section
/-! SUPPORT. What the shared operations of the host line and the journal leave unchanged, field by field, and what
they do to replies and notices. -/

namespace Sys2Proof.Machine

variable (s : State)

/-! ## Notices and replies -/

@[simp] theorem State.raise_pins (k : NoticeKind) : (s.raise k).pins = s.pins := by
  rfl
@[simp] theorem State.raise_clock (k : NoticeKind) : (s.raise k).clock = s.clock := by
  rfl
@[simp] theorem State.raise_freeReads (k : NoticeKind) : (s.raise k).freeReads = s.freeReads := by
  rfl
@[simp] theorem State.raise_portU (k : NoticeKind) : (s.raise k).portU = s.portU := by
  rfl
@[simp] theorem State.raise_portP (k : NoticeKind) : (s.raise k).portP = s.portP := by
  rfl
@[simp] theorem State.raise_screening (k : NoticeKind) : (s.raise k).screening = s.screening := by
  rfl
@[simp] theorem State.raise_link (k : NoticeKind) : (s.raise k).link = s.link := by
  rfl
@[simp] theorem State.raise_passage (k : NoticeKind) : (s.raise k).passage = s.passage := by
  rfl
@[simp] theorem State.raise_emergency (k : NoticeKind) : (s.raise k).emergency = s.emergency := by
  rfl
@[simp] theorem State.raise_journal (k : NoticeKind) : (s.raise k).journal = s.journal := by
  rfl
@[simp] theorem State.raise_time (k : NoticeKind) : (s.raise k).time = s.time := by
  rfl
@[simp] theorem State.raise_service (k : NoticeKind) : (s.raise k).service = s.service := by
  rfl
@[simp] theorem State.raise_pending (k : NoticeKind) : (s.raise k).pending = s.pending := by
  rfl

@[simp] theorem State.noteFinding_pins (c : CardNo) (k : FindingKind) : (s.noteFinding c k).pins = s.pins := by
  rfl
@[simp] theorem State.noteFinding_clock (c : CardNo) (k : FindingKind) : (s.noteFinding c k).clock = s.clock := by
  rfl
@[simp] theorem State.noteFinding_freeReads (c : CardNo) (k : FindingKind) : (s.noteFinding c k).freeReads = s.freeReads := by
  rfl
@[simp] theorem State.noteFinding_portU (c : CardNo) (k : FindingKind) : (s.noteFinding c k).portU = s.portU := by
  rfl
@[simp] theorem State.noteFinding_portP (c : CardNo) (k : FindingKind) : (s.noteFinding c k).portP = s.portP := by
  rfl
@[simp] theorem State.noteFinding_screening (c : CardNo) (k : FindingKind) : (s.noteFinding c k).screening = s.screening := by
  rfl
@[simp] theorem State.noteFinding_link (c : CardNo) (k : FindingKind) : (s.noteFinding c k).link = s.link := by
  rfl
@[simp] theorem State.noteFinding_passage (c : CardNo) (k : FindingKind) : (s.noteFinding c k).passage = s.passage := by
  rfl
@[simp] theorem State.noteFinding_emergency (c : CardNo) (k : FindingKind) : (s.noteFinding c k).emergency = s.emergency := by
  rfl
@[simp] theorem State.noteFinding_journal (c : CardNo) (k : FindingKind) : (s.noteFinding c k).journal = s.journal := by
  rfl
@[simp] theorem State.noteFinding_time (c : CardNo) (k : FindingKind) : (s.noteFinding c k).time = s.time := by
  rfl
@[simp] theorem State.noteFinding_service (c : CardNo) (k : FindingKind) : (s.noteFinding c k).service = s.service := by
  rfl
@[simp] theorem State.noteFinding_pending (c : CardNo) (k : FindingKind) : (s.noteFinding c k).pending = s.pending := by
  rfl

@[simp] theorem State.giveResult_pins (d : Side) (r : TapResult) : (s.giveResult d r).pins = s.pins := by
  rfl
@[simp] theorem State.giveResult_clock (d : Side) (r : TapResult) : (s.giveResult d r).clock = s.clock := by
  rfl
@[simp] theorem State.giveResult_freeReads (d : Side) (r : TapResult) : (s.giveResult d r).freeReads = s.freeReads := by
  rfl
@[simp] theorem State.giveResult_portU (d : Side) (r : TapResult) : (s.giveResult d r).portU = s.portU := by
  rfl
@[simp] theorem State.giveResult_portP (d : Side) (r : TapResult) : (s.giveResult d r).portP = s.portP := by
  rfl
@[simp] theorem State.giveResult_screening (d : Side) (r : TapResult) : (s.giveResult d r).screening = s.screening := by
  rfl
@[simp] theorem State.giveResult_link (d : Side) (r : TapResult) : (s.giveResult d r).link = s.link := by
  rfl
@[simp] theorem State.giveResult_passage (d : Side) (r : TapResult) : (s.giveResult d r).passage = s.passage := by
  rfl
@[simp] theorem State.giveResult_emergency (d : Side) (r : TapResult) : (s.giveResult d r).emergency = s.emergency := by
  rfl
@[simp] theorem State.giveResult_journal (d : Side) (r : TapResult) : (s.giveResult d r).journal = s.journal := by
  rfl
@[simp] theorem State.giveResult_time (d : Side) (r : TapResult) : (s.giveResult d r).time = s.time := by
  rfl
@[simp] theorem State.giveResult_service (d : Side) (r : TapResult) : (s.giveResult d r).service = s.service := by
  rfl
@[simp] theorem State.giveResult_pending (d : Side) (r : TapResult) : (s.giveResult d r).pending = s.pending := by
  rfl

@[simp] theorem State.reply_pins (tag : Byte) (kind : ReqKind) (body : ReplyBody) : (s.reply tag kind body).pins = s.pins := by
  unfold State.reply; split <;> rfl
@[simp] theorem State.reply_clock (tag : Byte) (kind : ReqKind) (body : ReplyBody) : (s.reply tag kind body).clock = s.clock := by
  unfold State.reply; split <;> rfl
@[simp] theorem State.reply_freeReads (tag : Byte) (kind : ReqKind) (body : ReplyBody) : (s.reply tag kind body).freeReads = s.freeReads := by
  unfold State.reply; split <;> rfl
@[simp] theorem State.reply_portU (tag : Byte) (kind : ReqKind) (body : ReplyBody) : (s.reply tag kind body).portU = s.portU := by
  unfold State.reply; split <;> rfl
@[simp] theorem State.reply_portP (tag : Byte) (kind : ReqKind) (body : ReplyBody) : (s.reply tag kind body).portP = s.portP := by
  unfold State.reply; split <;> rfl
@[simp] theorem State.reply_screening (tag : Byte) (kind : ReqKind) (body : ReplyBody) : (s.reply tag kind body).screening = s.screening := by
  unfold State.reply; split <;> rfl
@[simp] theorem State.reply_link (tag : Byte) (kind : ReqKind) (body : ReplyBody) : (s.reply tag kind body).link = s.link := by
  unfold State.reply; split <;> rfl
@[simp] theorem State.reply_passage (tag : Byte) (kind : ReqKind) (body : ReplyBody) : (s.reply tag kind body).passage = s.passage := by
  unfold State.reply; split <;> rfl
@[simp] theorem State.reply_emergency (tag : Byte) (kind : ReqKind) (body : ReplyBody) : (s.reply tag kind body).emergency = s.emergency := by
  unfold State.reply; split <;> rfl
@[simp] theorem State.reply_journal (tag : Byte) (kind : ReqKind) (body : ReplyBody) : (s.reply tag kind body).journal = s.journal := by
  unfold State.reply; split <;> rfl
@[simp] theorem State.reply_time (tag : Byte) (kind : ReqKind) (body : ReplyBody) : (s.reply tag kind body).time = s.time := by
  unfold State.reply; split <;> rfl
@[simp] theorem State.reply_service (tag : Byte) (kind : ReqKind) (body : ReplyBody) : (s.reply tag kind body).service = s.service := by
  unfold State.reply; split <;> rfl
@[simp] theorem State.reply_pending (tag : Byte) (kind : ReqKind) (body : ReplyBody) : (s.reply tag kind body).pending = s.pending := by
  unfold State.reply; split <;> rfl

@[simp] theorem State.linkRefuse_pins (tag : Byte) (kind : ReqKind) (code : RefusalCode) : (s.linkRefuse tag kind code).pins = s.pins := by
  unfold State.linkRefuse; split <;> rfl
@[simp] theorem State.linkRefuse_clock (tag : Byte) (kind : ReqKind) (code : RefusalCode) : (s.linkRefuse tag kind code).clock = s.clock := by
  unfold State.linkRefuse; split <;> rfl
@[simp] theorem State.linkRefuse_freeReads (tag : Byte) (kind : ReqKind) (code : RefusalCode) : (s.linkRefuse tag kind code).freeReads = s.freeReads := by
  unfold State.linkRefuse; split <;> rfl
@[simp] theorem State.linkRefuse_portU (tag : Byte) (kind : ReqKind) (code : RefusalCode) : (s.linkRefuse tag kind code).portU = s.portU := by
  unfold State.linkRefuse; split <;> rfl
@[simp] theorem State.linkRefuse_portP (tag : Byte) (kind : ReqKind) (code : RefusalCode) : (s.linkRefuse tag kind code).portP = s.portP := by
  unfold State.linkRefuse; split <;> rfl
@[simp] theorem State.linkRefuse_screening (tag : Byte) (kind : ReqKind) (code : RefusalCode) : (s.linkRefuse tag kind code).screening = s.screening := by
  unfold State.linkRefuse; split <;> rfl
@[simp] theorem State.linkRefuse_link (tag : Byte) (kind : ReqKind) (code : RefusalCode) : (s.linkRefuse tag kind code).link = s.link := by
  unfold State.linkRefuse; split <;> rfl
@[simp] theorem State.linkRefuse_passage (tag : Byte) (kind : ReqKind) (code : RefusalCode) : (s.linkRefuse tag kind code).passage = s.passage := by
  unfold State.linkRefuse; split <;> rfl
@[simp] theorem State.linkRefuse_emergency (tag : Byte) (kind : ReqKind) (code : RefusalCode) : (s.linkRefuse tag kind code).emergency = s.emergency := by
  unfold State.linkRefuse; split <;> rfl
@[simp] theorem State.linkRefuse_journal (tag : Byte) (kind : ReqKind) (code : RefusalCode) : (s.linkRefuse tag kind code).journal = s.journal := by
  unfold State.linkRefuse; split <;> rfl
@[simp] theorem State.linkRefuse_time (tag : Byte) (kind : ReqKind) (code : RefusalCode) : (s.linkRefuse tag kind code).time = s.time := by
  unfold State.linkRefuse; split <;> rfl
@[simp] theorem State.linkRefuse_service (tag : Byte) (kind : ReqKind) (code : RefusalCode) : (s.linkRefuse tag kind code).service = s.service := by
  unfold State.linkRefuse; split <;> rfl
@[simp] theorem State.linkRefuse_pending (tag : Byte) (kind : ReqKind) (code : RefusalCode) : (s.linkRefuse tag kind code).pending = s.pending := by
  unfold State.linkRefuse; split <;> rfl

@[simp] theorem State.endHostFrame_pins : (s.endHostFrame).pins = s.pins := by
  rfl
@[simp] theorem State.endHostFrame_clock : (s.endHostFrame).clock = s.clock := by
  rfl
@[simp] theorem State.endHostFrame_freeReads : (s.endHostFrame).freeReads = s.freeReads := by
  rfl
@[simp] theorem State.endHostFrame_portU : (s.endHostFrame).portU = s.portU := by
  rfl
@[simp] theorem State.endHostFrame_portP : (s.endHostFrame).portP = s.portP := by
  rfl
@[simp] theorem State.endHostFrame_screening : (s.endHostFrame).screening = s.screening := by
  rfl
@[simp] theorem State.endHostFrame_link : (s.endHostFrame).link = s.link := by
  rfl
@[simp] theorem State.endHostFrame_passage : (s.endHostFrame).passage = s.passage := by
  rfl
@[simp] theorem State.endHostFrame_emergency : (s.endHostFrame).emergency = s.emergency := by
  rfl
@[simp] theorem State.endHostFrame_journal : (s.endHostFrame).journal = s.journal := by
  rfl
@[simp] theorem State.endHostFrame_time : (s.endHostFrame).time = s.time := by
  rfl
@[simp] theorem State.endHostFrame_service : (s.endHostFrame).service = s.service := by
  rfl
@[simp] theorem State.endHostFrame_pending : (s.endHostFrame).pending = s.pending := by
  rfl

@[simp] theorem State.enter_pins (tag : Byte) : (s.enter tag).pins = s.pins := by
  rfl
@[simp] theorem State.enter_clock (tag : Byte) : (s.enter tag).clock = s.clock := by
  rfl
@[simp] theorem State.enter_freeReads (tag : Byte) : (s.enter tag).freeReads = s.freeReads := by
  rfl
@[simp] theorem State.enter_portU (tag : Byte) : (s.enter tag).portU = s.portU := by
  rfl
@[simp] theorem State.enter_portP (tag : Byte) : (s.enter tag).portP = s.portP := by
  rfl
@[simp] theorem State.enter_screening (tag : Byte) : (s.enter tag).screening = s.screening := by
  rfl
@[simp] theorem State.enter_link (tag : Byte) : (s.enter tag).link = s.link := by
  rfl
@[simp] theorem State.enter_passage (tag : Byte) : (s.enter tag).passage = s.passage := by
  rfl
@[simp] theorem State.enter_emergency (tag : Byte) : (s.enter tag).emergency = s.emergency := by
  rfl
@[simp] theorem State.enter_journal (tag : Byte) : (s.enter tag).journal = s.journal := by
  rfl
@[simp] theorem State.enter_time (tag : Byte) : (s.enter tag).time = s.time := by
  rfl
@[simp] theorem State.enter_service (tag : Byte) : (s.enter tag).service = s.service := by
  rfl
@[simp] theorem State.enter_pending (tag : Byte) : (s.enter tag).pending = s.pending := by
  rfl

@[simp] theorem State.sendNotice_pins (k : NoticeKind) : (s.sendNotice k).pins = s.pins := by
  rfl
@[simp] theorem State.sendNotice_clock (k : NoticeKind) : (s.sendNotice k).clock = s.clock := by
  rfl
@[simp] theorem State.sendNotice_freeReads (k : NoticeKind) : (s.sendNotice k).freeReads = s.freeReads := by
  rfl
@[simp] theorem State.sendNotice_portU (k : NoticeKind) : (s.sendNotice k).portU = s.portU := by
  rfl
@[simp] theorem State.sendNotice_portP (k : NoticeKind) : (s.sendNotice k).portP = s.portP := by
  rfl
@[simp] theorem State.sendNotice_screening (k : NoticeKind) : (s.sendNotice k).screening = s.screening := by
  rfl
@[simp] theorem State.sendNotice_link (k : NoticeKind) : (s.sendNotice k).link = s.link := by
  rfl
@[simp] theorem State.sendNotice_passage (k : NoticeKind) : (s.sendNotice k).passage = s.passage := by
  rfl
@[simp] theorem State.sendNotice_emergency (k : NoticeKind) : (s.sendNotice k).emergency = s.emergency := by
  rfl
@[simp] theorem State.sendNotice_journal (k : NoticeKind) : (s.sendNotice k).journal = s.journal := by
  rfl
@[simp] theorem State.sendNotice_time (k : NoticeKind) : (s.sendNotice k).time = s.time := by
  rfl
@[simp] theorem State.sendNotice_service (k : NoticeKind) : (s.sendNotice k).service = s.service := by
  rfl
@[simp] theorem State.sendNotice_pending (k : NoticeKind) : (s.sendNotice k).pending = s.pending := by
  rfl

@[simp] theorem State.pump_pins : (s.pump).pins = s.pins := by
  unfold State.pump; repeat' split
  all_goals rfl
@[simp] theorem State.pump_clock : (s.pump).clock = s.clock := by
  unfold State.pump; repeat' split
  all_goals rfl
@[simp] theorem State.pump_freeReads : (s.pump).freeReads = s.freeReads := by
  unfold State.pump; repeat' split
  all_goals rfl
@[simp] theorem State.pump_portU : (s.pump).portU = s.portU := by
  unfold State.pump; repeat' split
  all_goals rfl
@[simp] theorem State.pump_portP : (s.pump).portP = s.portP := by
  unfold State.pump; repeat' split
  all_goals rfl
@[simp] theorem State.pump_screening : (s.pump).screening = s.screening := by
  unfold State.pump; repeat' split
  all_goals rfl
@[simp] theorem State.pump_link : (s.pump).link = s.link := by
  unfold State.pump; repeat' split
  all_goals rfl
@[simp] theorem State.pump_passage : (s.pump).passage = s.passage := by
  unfold State.pump; repeat' split
  all_goals rfl
@[simp] theorem State.pump_emergency : (s.pump).emergency = s.emergency := by
  unfold State.pump; repeat' split
  all_goals rfl
@[simp] theorem State.pump_journal : (s.pump).journal = s.journal := by
  unfold State.pump; repeat' split
  all_goals rfl
@[simp] theorem State.pump_time : (s.pump).time = s.time := by
  unfold State.pump; repeat' split
  all_goals rfl
@[simp] theorem State.pump_service : (s.pump).service = s.service := by
  unfold State.pump; repeat' split
  all_goals rfl
@[simp] theorem State.pump_pending : (s.pump).pending = s.pending := by
  unfold State.pump; repeat' split
  all_goals rfl

@[simp] theorem State.raise_host_speed (k : NoticeKind) : (s.raise k).host.speed = s.host.speed := by
  simp only [State.raise, State.onHost_host, HostLink.raise]; split <;> rfl
@[simp] theorem State.raise_host_rxInFrame (k : NoticeKind) : (s.raise k).host.rxInFrame = s.host.rxInFrame := by
  simp only [State.raise, State.onHost_host, HostLink.raise]; split <;> rfl
@[simp] theorem State.raise_host_window (k : NoticeKind) : (s.raise k).host.window = s.host.window := by
  simp only [State.raise, State.onHost_host, HostLink.raise]; split <;> rfl
@[simp] theorem State.raise_host_replies (k : NoticeKind) : (s.raise k).host.replies = s.host.replies := by
  simp only [State.raise, State.onHost_host, HostLink.raise]; split <;> rfl
@[simp] theorem State.raise_host_tx (k : NoticeKind) : (s.raise k).host.tx = s.host.tx := by
  simp only [State.raise, State.onHost_host, HostLink.raise]; split <;> rfl
@[simp] theorem State.raise_host_tapU (k : NoticeKind) : (s.raise k).host.tapU = s.host.tapU := by
  simp only [State.raise, State.onHost_host, HostLink.raise]; split <;> rfl
@[simp] theorem State.raise_host_tapP (k : NoticeKind) : (s.raise k).host.tapP = s.host.tapP := by
  simp only [State.raise, State.onHost_host, HostLink.raise]; split <;> rfl
@[simp] theorem State.raise_host_resetTaken (k : NoticeKind) : (s.raise k).host.resetTaken = s.host.resetTaken := by
  simp only [State.raise, State.onHost_host, HostLink.raise]; split <;> rfl
@[simp] theorem State.reply_host_speed (tag : Byte) (kind : ReqKind) (body : ReplyBody) :
    (s.reply tag kind body).host.speed = s.host.speed := by
  unfold State.reply; split <;> rfl
@[simp] theorem State.reply_host_rxInFrame (tag : Byte) (kind : ReqKind) (body : ReplyBody) :
    (s.reply tag kind body).host.rxInFrame = s.host.rxInFrame := by
  unfold State.reply; split <;> rfl
@[simp] theorem State.reply_host_window (tag : Byte) (kind : ReqKind) (body : ReplyBody) :
    (s.reply tag kind body).host.window = s.host.window := by
  unfold State.reply; split <;> rfl
@[simp] theorem State.reply_host_tx (tag : Byte) (kind : ReqKind) (body : ReplyBody) :
    (s.reply tag kind body).host.tx = s.host.tx := by
  unfold State.reply; split <;> rfl
@[simp] theorem State.reply_host_tapU (tag : Byte) (kind : ReqKind) (body : ReplyBody) :
    (s.reply tag kind body).host.tapU = s.host.tapU := by
  unfold State.reply; split <;> rfl
@[simp] theorem State.reply_host_tapP (tag : Byte) (kind : ReqKind) (body : ReplyBody) :
    (s.reply tag kind body).host.tapP = s.host.tapP := by
  unfold State.reply; split <;> rfl
@[simp] theorem State.reply_host_resetTaken (tag : Byte) (kind : ReqKind) (body : ReplyBody) :
    (s.reply tag kind body).host.resetTaken = s.host.resetTaken := by
  unfold State.reply; split <;> rfl
@[simp] theorem State.reply_host_notices (tag : Byte) (kind : ReqKind) (body : ReplyBody) :
    (s.reply tag kind body).host.notices = s.host.notices := by
  unfold State.reply; split <;> rfl
@[simp] theorem State.reply_host_finding (tag : Byte) (kind : ReqKind) (body : ReplyBody) :
    (s.reply tag kind body).host.finding = s.host.finding := by
  unfold State.reply; split <;> rfl
@[simp] theorem State.reply_host_findings (tag : Byte) (kind : ReqKind) (body : ReplyBody) :
    (s.reply tag kind body).host.findings = s.host.findings := by
  unfold State.reply; split <;> rfl
@[simp] theorem State.pump_host_speed : s.pump.host.speed = s.host.speed := by
  unfold State.pump; repeat' split
  all_goals rfl
@[simp] theorem State.pump_host_rxInFrame : s.pump.host.rxInFrame = s.host.rxInFrame := by
  unfold State.pump; repeat' split
  all_goals rfl
@[simp] theorem State.pump_host_window : s.pump.host.window = s.host.window := by
  unfold State.pump; repeat' split
  all_goals rfl
@[simp] theorem State.pump_host_tapU : s.pump.host.tapU = s.host.tapU := by
  unfold State.pump; repeat' split
  all_goals rfl
@[simp] theorem State.pump_host_tapP : s.pump.host.tapP = s.host.tapP := by
  unfold State.pump; repeat' split
  all_goals rfl
@[simp] theorem State.pump_host_finding : s.pump.host.finding = s.host.finding := by
  unfold State.pump; repeat' split
  all_goals rfl
@[simp] theorem State.pump_host_resetTaken : s.pump.host.resetTaken = s.host.resetTaken := by
  unfold State.pump; repeat' split
  all_goals rfl

theorem State.raise_notices (k : NoticeKind) :
    (s.raise k).host.notices = if k ∈ s.host.notices then s.host.notices else s.host.notices ++ [k] := by
  simp only [State.raise, State.onHost_host, HostLink.raise]; split <;> rfl

@[simp] theorem State.raise_host_finding (k : NoticeKind) : (s.raise k).host.finding = s.host.finding := by
  simp only [State.raise, State.onHost_host, HostLink.raise]; split <;> rfl

@[simp] theorem State.raise_host_findings (k : NoticeKind) : (s.raise k).host.findings = s.host.findings := by
  simp only [State.raise, State.onHost_host, HostLink.raise]; split <;> rfl

/-- Replies formed stay formed when a notice is raised. -/
@[simp] theorem State.raise_formed (k : NoticeKind) : (s.raise k).formed = s.formed := by simp [State.formed]

/-- The transmitter's choice forms no reply and loses none (R185). -/
@[simp] theorem State.pump_formed : s.pump.formed = s.formed := by
  unfold State.pump
  split
  · rfl
  · rename_i h1 h2
    simp [State.formed, h1, h2, HostTx.reply?]
  · rename_i h1 h2
    split
    · rfl
    · simp [State.formed, h1, h2, State.sendNotice, HostTx.reply?]

/-- A reply is the one formed last, unless a RESET has been taken (R184). -/
theorem State.reply_formed (tag : Byte) (kind : ReqKind) (body : ReplyBody) (h : s.host.resetTaken = false) :
    (s.reply tag kind body).formed = s.formed ++ [Reply.inWindow tag kind body] := by
  simp [State.formed, State.reply, h, Reply.inWindow]

@[simp] theorem State.enter_formed (tag : Byte) : (s.enter tag).formed = s.formed := rfl

@[simp] theorem State.endHostFrame_formed : s.endHostFrame.formed = s.formed := rfl

@[simp] theorem State.enter_host_window (tag : Byte) : (s.enter tag).host.window = s.host.window ++ [tag] := rfl

/-- A notice raised is pending. -/
theorem State.raise_tells (k : NoticeKind) : (s.raise k).tells k = true := by
  simp only [State.tells, State.raise_notices]
  split <;> simp_all

/-- A notice pending or being sent stays so when another is raised. -/
theorem State.tells_raise (k j : NoticeKind) (h : s.tells k = true) : (s.raise j).tells k = true := by
  simp only [State.tells, State.raise_notices, State.raise_host_tx, Bool.or_eq_true] at h ⊢
  refine h.imp (fun h => ?_) id
  split <;> simp_all

/-- A reply leaves the notices as they are. -/
@[simp] theorem State.reply_tells (tag : Byte) (kind : ReqKind) (body : ReplyBody) (k : NoticeKind) :
    (s.reply tag kind body).tells k = s.tells k := by simp [State.tells]

/-- The body of a snapshot has the kind it was made for. -/
@[simp] theorem State.snapshot_kind (k : NoticeKind) : (s.snapshot k).kind = k := by cases k <;> rfl

/-- A notice told before the transmitter's choice is told after it (R186). -/
theorem State.pump_tells (k : NoticeKind) (h : s.tells k = true) : s.pump.tells k = true := by
  unfold State.pump
  split
  · exact h
  · rename_i h1 h2
    simp_all [State.tells]
  · rename_i h1 h2
    split
    · exact h
    · rename_i j hj
      simp only [State.tells, h1, Option.elim_none, Bool.or_false, List.contains_iff_mem] at h
      simp only [State.tells, State.sendNotice, State.onHost_host, Option.elim_some, HostTx.tells,
        State.snapshot_kind, Bool.or_eq_true, List.contains_iff_mem, beq_iff_eq]
      by_cases e : j = k
      · exact Or.inr e
      · exact Or.inl ((List.mem_erase_of_ne (Ne.symm e)).2 h)

/-- An admitted request finds no RESET taken, an unused tag other than 0, and a place or the exemption (R179). -/
theorem State.admits_iff (tag : Byte) (kind : ReqKind) :
    s.admits tag kind ↔
      s.host.resetTaken = false ∧ tag ≠ 0 ∧ tag ∉ s.host.window ∧ (kind = .reset ∨ s.host.window.length < 4) := by
  unfold State.admits State.admission
  split
  · simp_all
  · split
    · rename_i h
      rcases h with h | h <;> simp_all
    · split
      · rename_i h
        simp only [reduceCtorEq, false_iff]
        rintro ⟨-, -, -, h2 | h2⟩
        · exact h.1 h2
        · omega
      · rename_i h1 h2 h3
        simp only [true_iff]
        refine ⟨by simpa using h1, fun e => h2 (Or.inl e), fun e => h2 (Or.inr e), ?_⟩
        by_cases e : kind = .reset
        · exact Or.inl e
        · exact Or.inr (Nat.lt_of_not_le fun q => h3 ⟨e, q⟩)

/-- What an admitted request does: its frame is taken, it enters the window, its owner acts (R179). -/
theorem State.take_admitted {tag : Byte} {kind : ReqKind} (act : State → State) (h : s.admits tag kind) :
    s.take tag kind act = act (s.endHostFrame.enter tag) := by
  unfold State.take
  rw [h]

/-! ## The journal -/

@[simp] theorem State.judgeLevel_pins : (s.judgeLevel).pins = s.pins := by
  unfold State.judgeLevel; split <;> rfl
@[simp] theorem State.judgeLevel_clock : (s.judgeLevel).clock = s.clock := by
  unfold State.judgeLevel; split <;> rfl
@[simp] theorem State.judgeLevel_freeReads : (s.judgeLevel).freeReads = s.freeReads := by
  unfold State.judgeLevel; split <;> rfl
@[simp] theorem State.judgeLevel_portU : (s.judgeLevel).portU = s.portU := by
  unfold State.judgeLevel; split <;> rfl
@[simp] theorem State.judgeLevel_portP : (s.judgeLevel).portP = s.portP := by
  unfold State.judgeLevel; split <;> rfl
@[simp] theorem State.judgeLevel_screening : (s.judgeLevel).screening = s.screening := by
  unfold State.judgeLevel; split <;> rfl
@[simp] theorem State.judgeLevel_link : (s.judgeLevel).link = s.link := by
  unfold State.judgeLevel; split <;> rfl
@[simp] theorem State.judgeLevel_passage : (s.judgeLevel).passage = s.passage := by
  unfold State.judgeLevel; split <;> rfl
@[simp] theorem State.judgeLevel_emergency : (s.judgeLevel).emergency = s.emergency := by
  unfold State.judgeLevel; split <;> rfl
@[simp] theorem State.judgeLevel_journal : (s.judgeLevel).journal = s.journal := by
  unfold State.judgeLevel; split <;> rfl
@[simp] theorem State.judgeLevel_time : (s.judgeLevel).time = s.time := by
  unfold State.judgeLevel; split <;> rfl
@[simp] theorem State.judgeLevel_service : (s.judgeLevel).service = s.service := by
  unfold State.judgeLevel; split <;> rfl
@[simp] theorem State.judgeLevel_pending : (s.judgeLevel).pending = s.pending := by
  unfold State.judgeLevel; split <;> rfl

@[simp] theorem State.judgeHalt_pins : (s.judgeHalt).pins = s.pins := by
  unfold State.judgeHalt; split <;> rfl
@[simp] theorem State.judgeHalt_clock : (s.judgeHalt).clock = s.clock := by
  unfold State.judgeHalt; split <;> rfl
@[simp] theorem State.judgeHalt_freeReads : (s.judgeHalt).freeReads = s.freeReads := by
  unfold State.judgeHalt; split <;> rfl
@[simp] theorem State.judgeHalt_portU : (s.judgeHalt).portU = s.portU := by
  unfold State.judgeHalt; split <;> rfl
@[simp] theorem State.judgeHalt_portP : (s.judgeHalt).portP = s.portP := by
  unfold State.judgeHalt; split <;> rfl
@[simp] theorem State.judgeHalt_screening : (s.judgeHalt).screening = s.screening := by
  unfold State.judgeHalt; split <;> rfl
@[simp] theorem State.judgeHalt_link : (s.judgeHalt).link = s.link := by
  unfold State.judgeHalt; split <;> rfl
@[simp] theorem State.judgeHalt_passage : (s.judgeHalt).passage = s.passage := by
  unfold State.judgeHalt; split <;> rfl
@[simp] theorem State.judgeHalt_emergency : (s.judgeHalt).emergency = s.emergency := by
  unfold State.judgeHalt; split <;> rfl
@[simp] theorem State.judgeHalt_time : (s.judgeHalt).time = s.time := by
  unfold State.judgeHalt; split <;> rfl
@[simp] theorem State.judgeHalt_service : (s.judgeHalt).service = s.service := by
  unfold State.judgeHalt; split <;> rfl
@[simp] theorem State.judgeHalt_pending : (s.judgeHalt).pending = s.pending := by
  unfold State.judgeHalt; split <;> rfl

@[simp] theorem State.judgeResume_pins : (s.judgeResume).pins = s.pins := by
  unfold State.judgeResume; split <;> rfl
@[simp] theorem State.judgeResume_clock : (s.judgeResume).clock = s.clock := by
  unfold State.judgeResume; split <;> rfl
@[simp] theorem State.judgeResume_freeReads : (s.judgeResume).freeReads = s.freeReads := by
  unfold State.judgeResume; split <;> rfl
@[simp] theorem State.judgeResume_portU : (s.judgeResume).portU = s.portU := by
  unfold State.judgeResume; split <;> rfl
@[simp] theorem State.judgeResume_portP : (s.judgeResume).portP = s.portP := by
  unfold State.judgeResume; split <;> rfl
@[simp] theorem State.judgeResume_screening : (s.judgeResume).screening = s.screening := by
  unfold State.judgeResume; split <;> rfl
@[simp] theorem State.judgeResume_link : (s.judgeResume).link = s.link := by
  unfold State.judgeResume; split <;> rfl
@[simp] theorem State.judgeResume_passage : (s.judgeResume).passage = s.passage := by
  unfold State.judgeResume; split <;> rfl
@[simp] theorem State.judgeResume_emergency : (s.judgeResume).emergency = s.emergency := by
  unfold State.judgeResume; split <;> rfl
@[simp] theorem State.judgeResume_time : (s.judgeResume).time = s.time := by
  unfold State.judgeResume; split <;> rfl
@[simp] theorem State.judgeResume_service : (s.judgeResume).service = s.service := by
  unfold State.judgeResume; split <;> rfl
@[simp] theorem State.judgeResume_pending : (s.judgeResume).pending = s.pending := by
  unfold State.judgeResume; split <;> rfl

@[simp] theorem State.judgeLoadedLevels_pins : (s.judgeLoadedLevels).pins = s.pins := by
  unfold State.judgeLoadedLevels; split <;> simp
@[simp] theorem State.judgeLoadedLevels_clock : (s.judgeLoadedLevels).clock = s.clock := by
  unfold State.judgeLoadedLevels; split <;> simp
@[simp] theorem State.judgeLoadedLevels_freeReads : (s.judgeLoadedLevels).freeReads = s.freeReads := by
  unfold State.judgeLoadedLevels; split <;> simp
@[simp] theorem State.judgeLoadedLevels_portU : (s.judgeLoadedLevels).portU = s.portU := by
  unfold State.judgeLoadedLevels; split <;> simp
@[simp] theorem State.judgeLoadedLevels_portP : (s.judgeLoadedLevels).portP = s.portP := by
  unfold State.judgeLoadedLevels; split <;> simp
@[simp] theorem State.judgeLoadedLevels_screening : (s.judgeLoadedLevels).screening = s.screening := by
  unfold State.judgeLoadedLevels; split <;> simp
@[simp] theorem State.judgeLoadedLevels_link : (s.judgeLoadedLevels).link = s.link := by
  unfold State.judgeLoadedLevels; split <;> simp
@[simp] theorem State.judgeLoadedLevels_passage : (s.judgeLoadedLevels).passage = s.passage := by
  unfold State.judgeLoadedLevels; split <;> simp
@[simp] theorem State.judgeLoadedLevels_emergency : (s.judgeLoadedLevels).emergency = s.emergency := by
  unfold State.judgeLoadedLevels; split <;> simp
@[simp] theorem State.judgeLoadedLevels_time : (s.judgeLoadedLevels).time = s.time := by
  unfold State.judgeLoadedLevels; split <;> simp
@[simp] theorem State.judgeLoadedLevels_service : (s.judgeLoadedLevels).service = s.service := by
  unfold State.judgeLoadedLevels; split <;> simp
@[simp] theorem State.judgeLoadedLevels_pending : (s.judgeLoadedLevels).pending = s.pending := by
  unfold State.judgeLoadedLevels; split <;> simp

@[simp] theorem State.append_pins (b : RecBody) : (s.append b).pins = s.pins := by
  unfold State.append; split <;> simp
@[simp] theorem State.append_clock (b : RecBody) : (s.append b).clock = s.clock := by
  unfold State.append; split <;> simp
@[simp] theorem State.append_freeReads (b : RecBody) : (s.append b).freeReads = s.freeReads := by
  unfold State.append; split <;> simp
@[simp] theorem State.append_portU (b : RecBody) : (s.append b).portU = s.portU := by
  unfold State.append; split <;> simp
@[simp] theorem State.append_portP (b : RecBody) : (s.append b).portP = s.portP := by
  unfold State.append; split <;> simp
@[simp] theorem State.append_screening (b : RecBody) : (s.append b).screening = s.screening := by
  unfold State.append; split <;> simp
@[simp] theorem State.append_link (b : RecBody) : (s.append b).link = s.link := by
  unfold State.append; split <;> simp
@[simp] theorem State.append_passage (b : RecBody) : (s.append b).passage = s.passage := by
  unfold State.append; split <;> simp
@[simp] theorem State.append_emergency (b : RecBody) : (s.append b).emergency = s.emergency := by
  unfold State.append; split <;> simp
@[simp] theorem State.append_time (b : RecBody) : (s.append b).time = s.time := by
  unfold State.append; split <;> simp
@[simp] theorem State.append_service (b : RecBody) : (s.append b).service = s.service := by
  unfold State.append; split <;> simp
@[simp] theorem State.append_pending (b : RecBody) : (s.append b).pending = s.pending := by
  unfold State.append; split <;> simp

@[simp] theorem State.judgeLevel_host_speed : (s.judgeLevel).host.speed = s.host.speed := by
  unfold State.judgeLevel; split <;> simp
@[simp] theorem State.judgeLevel_host_rxInFrame : (s.judgeLevel).host.rxInFrame = s.host.rxInFrame := by
  unfold State.judgeLevel; split <;> simp
@[simp] theorem State.judgeLevel_host_window : (s.judgeLevel).host.window = s.host.window := by
  unfold State.judgeLevel; split <;> simp
@[simp] theorem State.judgeLevel_host_replies : (s.judgeLevel).host.replies = s.host.replies := by
  unfold State.judgeLevel; split <;> simp
@[simp] theorem State.judgeLevel_host_tx : (s.judgeLevel).host.tx = s.host.tx := by
  unfold State.judgeLevel; split <;> simp
@[simp] theorem State.judgeLevel_host_tapU : (s.judgeLevel).host.tapU = s.host.tapU := by
  unfold State.judgeLevel; split <;> simp
@[simp] theorem State.judgeLevel_host_tapP : (s.judgeLevel).host.tapP = s.host.tapP := by
  unfold State.judgeLevel; split <;> simp
@[simp] theorem State.judgeLevel_host_resetTaken : (s.judgeLevel).host.resetTaken = s.host.resetTaken := by
  unfold State.judgeLevel; split <;> simp
@[simp] theorem State.judgeLevel_host_finding : (s.judgeLevel).host.finding = s.host.finding := by
  unfold State.judgeLevel; split <;> simp
@[simp] theorem State.judgeLevel_host_findings : (s.judgeLevel).host.findings = s.host.findings := by
  unfold State.judgeLevel; split <;> simp
@[simp] theorem State.judgeHalt_host_speed : (s.judgeHalt).host.speed = s.host.speed := by
  unfold State.judgeHalt; split <;> simp
@[simp] theorem State.judgeHalt_host_rxInFrame : (s.judgeHalt).host.rxInFrame = s.host.rxInFrame := by
  unfold State.judgeHalt; split <;> simp
@[simp] theorem State.judgeHalt_host_window : (s.judgeHalt).host.window = s.host.window := by
  unfold State.judgeHalt; split <;> simp
@[simp] theorem State.judgeHalt_host_replies : (s.judgeHalt).host.replies = s.host.replies := by
  unfold State.judgeHalt; split <;> simp
@[simp] theorem State.judgeHalt_host_tx : (s.judgeHalt).host.tx = s.host.tx := by
  unfold State.judgeHalt; split <;> simp
@[simp] theorem State.judgeHalt_host_tapU : (s.judgeHalt).host.tapU = s.host.tapU := by
  unfold State.judgeHalt; split <;> simp
@[simp] theorem State.judgeHalt_host_tapP : (s.judgeHalt).host.tapP = s.host.tapP := by
  unfold State.judgeHalt; split <;> simp
@[simp] theorem State.judgeHalt_host_resetTaken : (s.judgeHalt).host.resetTaken = s.host.resetTaken := by
  unfold State.judgeHalt; split <;> simp
@[simp] theorem State.judgeHalt_host_finding : (s.judgeHalt).host.finding = s.host.finding := by
  unfold State.judgeHalt; split <;> simp
@[simp] theorem State.judgeHalt_host_findings : (s.judgeHalt).host.findings = s.host.findings := by
  unfold State.judgeHalt; split <;> simp
@[simp] theorem State.judgeResume_host_speed : (s.judgeResume).host.speed = s.host.speed := by
  unfold State.judgeResume; split <;> simp
@[simp] theorem State.judgeResume_host_rxInFrame : (s.judgeResume).host.rxInFrame = s.host.rxInFrame := by
  unfold State.judgeResume; split <;> simp
@[simp] theorem State.judgeResume_host_window : (s.judgeResume).host.window = s.host.window := by
  unfold State.judgeResume; split <;> simp
@[simp] theorem State.judgeResume_host_replies : (s.judgeResume).host.replies = s.host.replies := by
  unfold State.judgeResume; split <;> simp
@[simp] theorem State.judgeResume_host_tx : (s.judgeResume).host.tx = s.host.tx := by
  unfold State.judgeResume; split <;> simp
@[simp] theorem State.judgeResume_host_tapU : (s.judgeResume).host.tapU = s.host.tapU := by
  unfold State.judgeResume; split <;> simp
@[simp] theorem State.judgeResume_host_tapP : (s.judgeResume).host.tapP = s.host.tapP := by
  unfold State.judgeResume; split <;> simp
@[simp] theorem State.judgeResume_host_resetTaken : (s.judgeResume).host.resetTaken = s.host.resetTaken := by
  unfold State.judgeResume; split <;> simp
@[simp] theorem State.judgeResume_host_finding : (s.judgeResume).host.finding = s.host.finding := by
  unfold State.judgeResume; split <;> simp
@[simp] theorem State.judgeResume_host_findings : (s.judgeResume).host.findings = s.host.findings := by
  unfold State.judgeResume; split <;> simp
@[simp] theorem State.append_host_speed (b : RecBody) : (s.append b).host.speed = s.host.speed := by
  unfold State.append; split <;> simp
@[simp] theorem State.append_host_rxInFrame (b : RecBody) : (s.append b).host.rxInFrame = s.host.rxInFrame := by
  unfold State.append; split <;> simp
@[simp] theorem State.append_host_window (b : RecBody) : (s.append b).host.window = s.host.window := by
  unfold State.append; split <;> simp
@[simp] theorem State.append_host_replies (b : RecBody) : (s.append b).host.replies = s.host.replies := by
  unfold State.append; split <;> simp
@[simp] theorem State.append_host_tx (b : RecBody) : (s.append b).host.tx = s.host.tx := by
  unfold State.append; split <;> simp
@[simp] theorem State.append_host_tapU (b : RecBody) : (s.append b).host.tapU = s.host.tapU := by
  unfold State.append; split <;> simp
@[simp] theorem State.append_host_tapP (b : RecBody) : (s.append b).host.tapP = s.host.tapP := by
  unfold State.append; split <;> simp
@[simp] theorem State.append_host_resetTaken (b : RecBody) : (s.append b).host.resetTaken = s.host.resetTaken := by
  unfold State.append; split <;> simp
@[simp] theorem State.append_host_finding (b : RecBody) : (s.append b).host.finding = s.host.finding := by
  unfold State.append; split <;> simp
@[simp] theorem State.append_host_findings (b : RecBody) : (s.append b).host.findings = s.host.findings := by
  unfold State.append; split <;> simp

@[simp] theorem State.append_formed (b : RecBody) : (s.append b).formed = s.formed := by simp [State.formed]

@[simp] theorem State.judgeResume_formed : s.judgeResume.formed = s.formed := by simp [State.formed]

@[simp] theorem State.judgeHalt_records : s.judgeHalt.journal.records = s.journal.records := by
  unfold State.judgeHalt; split <;> simp

@[simp] theorem State.judgeHalt_nextSerial : s.judgeHalt.journal.nextSerial = s.journal.nextSerial := by
  unfold State.judgeHalt; split <;> simp

@[simp] theorem State.judgeResume_records : s.judgeResume.journal.records = s.journal.records := by
  unfold State.judgeResume; split <;> simp

@[simp] theorem State.judgeResume_nextSerial : s.judgeResume.journal.nextSerial = s.journal.nextSerial := by
  unfold State.judgeResume; split <;> simp

/-- An append that is not skipped puts its record after the newest, with the next serial and the counter (R152). -/
theorem State.append_records (b : RecBody) (h : (s.journal.halted && b.kind.cls == .event) = false) :
    (s.append b).journal.records = s.journal.records ++ [{ serial := s.journal.nextSerial, time := s.time.now, body := b }]
      ∧ (s.append b).journal.nextSerial = s.journal.nextSerial + 1 := by
  unfold State.append
  simp [h, Journal.push]

/-- An EVENT record is skipped while the journal is halted (R152, R156). -/
theorem State.append_skipped (b : RecBody) (h : (s.journal.halted && b.kind.cls == .event) = true) :
    s.append b = s := by
  unfold State.append
  simp [h]

/-- A notice told stays told through an append. -/
theorem State.tells_append (k : NoticeKind) (b : RecBody) (h : s.tells k = true) : (s.append b).tells k = true := by
  unfold State.append
  split
  · exact h
  · have h1 : (s.onJournal (Journal.push b s.time.now)).judgeLevel.tells k = true := by
      unfold State.judgeLevel
      split
      · exact State.tells_raise _ _ _ h
      · exact h
    unfold State.judgeHalt
    split
    · exact State.tells_raise _ _ _ h1
    · exact h1

end Sys2Proof.Machine
end

