-- ==== Sys2Proof/Laws/Requests.lean ====
section
/-! SUPPORT. What a host request leaves on the host line, said once for every kind (R179 to R181, R185). -/

namespace Sys2Proof.Machine

variable {s u : State} {tag : Byte} {kind : ReqKind}

/-- A whole frame leaves everything of the host link but the receiver as it is, and a request entered changes the
window alone. -/
@[simp] theorem State.endHostFrame_host_speed : s.endHostFrame.host.speed = s.host.speed := rfl
@[simp] theorem State.endHostFrame_host_window : s.endHostFrame.host.window = s.host.window := rfl
@[simp] theorem State.endHostFrame_host_replies : s.endHostFrame.host.replies = s.host.replies := rfl
@[simp] theorem State.endHostFrame_host_tx : s.endHostFrame.host.tx = s.host.tx := rfl
@[simp] theorem State.endHostFrame_host_notices : s.endHostFrame.host.notices = s.host.notices := rfl
@[simp] theorem State.endHostFrame_host_tapU : s.endHostFrame.host.tapU = s.host.tapU := rfl
@[simp] theorem State.endHostFrame_host_tapP : s.endHostFrame.host.tapP = s.host.tapP := rfl
@[simp] theorem State.endHostFrame_host_finding : s.endHostFrame.host.finding = s.host.finding := rfl
@[simp] theorem State.endHostFrame_host_findings : s.endHostFrame.host.findings = s.host.findings := rfl
@[simp] theorem State.endHostFrame_host_resetTaken : s.endHostFrame.host.resetTaken = s.host.resetTaken := rfl
@[simp] theorem State.enter_host_speed : (s.enter tag).host.speed = s.host.speed := rfl
@[simp] theorem State.enter_host_replies : (s.enter tag).host.replies = s.host.replies := rfl
@[simp] theorem State.enter_host_tx : (s.enter tag).host.tx = s.host.tx := rfl
@[simp] theorem State.enter_host_notices : (s.enter tag).host.notices = s.host.notices := rfl
@[simp] theorem State.enter_host_tapU : (s.enter tag).host.tapU = s.host.tapU := rfl
@[simp] theorem State.enter_host_tapP : (s.enter tag).host.tapP = s.host.tapP := rfl
@[simp] theorem State.enter_host_finding : (s.enter tag).host.finding = s.host.finding := rfl
@[simp] theorem State.enter_host_findings : (s.enter tag).host.findings = s.host.findings := rfl
@[simp] theorem State.enter_host_resetTaken : (s.enter tag).host.resetTaken = s.host.resetTaken := rfl

/-- The transmitter's choice changes the host link alone. -/
theorem State.pump_rest (s : State) : s.pump = { s with host := s.pump.host } := by
  unfold State.pump
  split
  · rfl
  · rfl
  · split <;> rfl

/-- A reply waiting or being sent keeps every notice where it is (R185). -/
theorem State.pump_replying (h : u.formed ≠ [] ∨ u.host.tx.isSome = true) :
    u.pump.host.notices = u.host.notices ∧ u.pump.host.findings = u.host.findings := by
  unfold State.pump
  split
  · exact ⟨rfl, rfl⟩
  · exact ⟨rfl, rfl⟩
  · rename_i h1 h2
    simp [State.formed, h1, h2] at h

/-- A frame in transmission goes on (R185). -/
theorem State.pump_sending (h : u.host.tx.isSome = true) : u.pump.host.tx = u.host.tx := by
  unfold State.pump
  split
  · rfl
  all_goals simp_all

theorem State.reply_ne_nil (body : ReplyBody) (h : u.host.resetTaken = false) :
    (u.reply tag kind body).formed ≠ [] := by
  rw [State.reply_formed _ _ _ _ h]
  simp

theorem Replied.of_reply (body : ReplyBody) (hr : s.host.resetTaken = false)
    (hw : u.host.window = s.host.window ++ [tag]) (hf : u.formed = s.formed) (ht : u.host.tx = s.host.tx)
    (hs : u.host.speed = s.host.speed) (hu : u.host.resetTaken = s.host.resetTaken) :
    Replied s (u.reply tag kind body).pump tag kind body where
  window := by simp [hw]
  formed := by rw [State.pump_formed, State.reply_formed _ _ _ _ (hu.trans hr), hf]
  sending := fun h => by
    rw [State.pump_sending] <;> simp [ht, h]
  speed := by simp [hs]
  resetTaken := by simp [hu]

theorem Answered.of_reply (body : ReplyBody) (hr : s.host.resetTaken = false)
    (hw : u.host.window = s.host.window ++ [tag]) (hf : u.formed = s.formed) (ht : u.host.tx = s.host.tx)
    (hs : u.host.speed = s.host.speed) (hu : u.host.resetTaken = s.host.resetTaken)
    (hx : u.host.rxInFrame = false) (hp : u.host.tapU = s.host.tapU ∧ u.host.tapP = s.host.tapP)
    (hg : u.host.finding = s.host.finding) (hn : u.host.findings = s.host.findings) :
    Answered s (u.reply tag kind body).pump tag kind body where
  toReplied := Replied.of_reply body hr hw hf ht hs hu
  hunting := by simp [hx]
  results := by simp [hp]
  finding := by simp [hg]
  findings := by
    rw [(State.pump_replying (Or.inl (State.reply_ne_nil body (hu.trans hr)))).2]
    simp [hn]

/-- After a reply the notices stand as they stood before the transmitter's choice. -/
theorem State.reply_pump_notices (body : ReplyBody) (h : u.host.resetTaken = false) :
    (u.reply tag kind body).pump.host.notices = u.host.notices := by
  rw [(State.pump_replying (Or.inl (State.reply_ne_nil body h))).1]
  simp

theorem OnlyAnswered.of_reply (body : ReplyBody) (h : s.admits tag kind) :
    OnlyAnswered s ((s.endHostFrame.enter tag).reply tag kind body).pump tag kind body := by
  have hr := ((State.admits_iff s tag kind).1 h).1
  refine { Answered.of_reply (u := s.endHostFrame.enter tag) body hr rfl rfl rfl rfl rfl rfl ⟨rfl, rfl⟩ rfl rfl with
    rest := ?_, notices := State.reply_pump_notices body hr }
  rw [State.pump_rest]
  unfold State.reply
  split <;> rfl

/-- A request that passes the checks of R179 with values its owner accepts. -/
theorem request_value {α : Type} (a : α) (act : α → State → State) (h : s.admits tag kind) :
    request tag kind (.value a) act s = .next (act a (s.endHostFrame.enter tag)).pump := by
  simp [request, done, State.take_admitted s _ h, State.parsed]

theorem request_badLength {α : Type} (act : α → State → State) (h : s.admits tag kind) :
    request tag kind .badLength act s =
      .next ((s.endHostFrame.enter tag).reply tag kind (.refused .badLength)).pump := by
  simp [request, done, State.take_admitted s _ h, State.parsed]

theorem request_range {α : Type} (n : Nat) (act : α → State → State) (h : s.admits tag kind) :
    request tag kind (.range n) act s =
      .next ((s.endHostFrame.enter tag).reply tag kind (.range n)).pump := by
  simp [request, done, State.take_admitted s _ h, State.parsed]

/-! ## Commands that form no reply -/

/-- The notice of highest priority is one of those pending. -/
theorem topNotice_mem {ks : List NoticeKind} {k : NoticeKind} (h : topNotice ks = some k) : k ∈ ks := by
  induction ks generalizing k with
  | nil => simp [topNotice] at h
  | cons x xs ih =>
    unfold topNotice at h
    split at h
    · simp_all
    · rename_i b hb
      split at h
      · simp_all
      · exact List.mem_cons_of_mem _ (ih (h ▸ hb))

/-- The notice on top stands where no better one is pending, the first of its rank (R185). -/
theorem topNotice_split {ks : List NoticeKind} {k : NoticeKind} (h : topNotice ks = some k) :
    ∃ before after, ks = before ++ k :: after ∧ (∀ j ∈ before, k.rank < j.rank) ∧ ∀ j ∈ after, k.rank ≤ j.rank := by
  induction ks generalizing k with
  | nil => cases h
  | cons a ks ih =>
    unfold topNotice at h
    cases hb : topNotice ks with
    | none =>
      rw [hb] at h
      cases h
      cases ks with
      | nil => exact ⟨[], [], rfl, by simp, by simp⟩
      | cons x xs =>
        unfold topNotice at hb
        split at hb
        · cases hb
        · split at hb <;> cases hb
    | some b =>
      obtain ⟨before, after, e, h1, h2⟩ := ih hb
      rw [hb] at h
      simp only at h
      split at h <;> cases h
      · refine ⟨[], ks, rfl, by simp, fun j hj => ?_⟩
        rw [e] at hj
        rcases List.mem_append.1 hj with hj | hj
        · have := h1 j hj; omega
        · rcases List.mem_cons.1 hj with rfl | hj
          · assumption
          · have := h2 j hj; omega
      · refine ⟨a :: before, after, by rw [e, List.cons_append], fun j hj => ?_, h2⟩
        rcases List.mem_cons.1 hj with rfl | hj
        · omega
        · exact h1 j hj

/-- With notices pending there is one on top. -/
theorem topNotice_isSome {ks : List NoticeKind} (h : ks ≠ []) : ∃ k, topNotice ks = some k := by
  cases ks with
  | nil => exact absurd rfl h
  | cons a ks =>
    unfold topNotice
    split
    · exact ⟨_, rfl⟩
    · split <;> exact ⟨_, rfl⟩

/-- All that the transmitter's choice can do, over a host link that a command has changed (R185, R186, R188). -/
theorem State.pump_transmits (s : State) (h : HostLink) :
    Transmits s ({ s with host := h } : State).pump h := by
  constructor
  · unfold State.pump
    split
    · rfl
    · rfl
    · split <;> rfl
  · intro htx
    unfold State.pump
    split
    · rfl
    · rename_i h1 _; rw [show h.tx = none from h1] at htx; cases htx
    · rename_i h1 _; rw [show h.tx = none from h1] at htx; cases htx
  · intro r later htx hr
    simp [State.pump, htx, hr, State.onHost]
  · intro htx hr hn
    simp [State.pump, htx, hr, hn, topNotice]
  · intro htx hr hn
    obtain ⟨k, hk⟩ := topNotice_isSome hn
    obtain ⟨before, after, e, h1, h2⟩ := topNotice_split hk
    have hnot : k ∉ before := fun hm => Nat.lt_irrefl _ (h1 k hm)
    refine ⟨({ s with host := h } : State).snapshot k, before, after, ?_, ?_, ?_, ?_, ?_⟩ <;>
      simp only [State.snapshot_kind]
    · exact e
    · exact h1
    · exact h2
    · have : h.notices.erase k = before ++ after := by rw [e, List.erase_append_right _ hnot, List.erase_cons_head]
      simp [State.pump, htx, hr, hk, State.sendNotice, State.onHost, this]

/-- The transmitter's choice leaves every kind told that was told, and no other (R186). -/
theorem State.pump_tells_eq (u : State) (k : NoticeKind) : u.pump.tells k = u.tells k := by
  rw [Bool.eq_iff_iff]
  refine ⟨fun h => ?_, State.pump_tells u k⟩
  unfold State.pump at h
  split at h
  · exact h
  · rename_i h1 h2
    simpa [State.tells, h1, HostTx.tells] using h
  · rename_i h1 h2
    split at h
    · exact h
    · rename_i j hj
      simp only [State.tells, State.sendNotice, State.onHost_host, Option.elim_some, HostTx.tells,
        State.snapshot_kind, Bool.or_eq_true, List.contains_iff_mem, beq_iff_eq] at h
      simp only [State.tells, Bool.or_eq_true, List.contains_iff_mem]
      exact Or.inl (h.elim List.mem_of_mem_erase fun e => e ▸ topNotice_mem hj)

/-- A notice raised is told; every other kind is told as before. -/
theorem State.raise_tells_eq (u : State) (j k : NoticeKind) : (u.raise j).tells k = (u.tells k || k == j) := by
  rw [Bool.eq_iff_iff]
  simp only [State.tells, State.raise_notices, State.raise_host_tx, Bool.or_eq_true, List.contains_iff_mem, beq_iff_eq]
  split
  · rename_i hj
    constructor
    · exact fun h => Or.inl h
    · rintro (h | rfl)
      · exact h
      · exact Or.inl hj
  · simp only [List.mem_append, List.mem_singleton]
    tauto

theorem Silent.of_pump (hw : u.host.window = s.host.window) (hf : u.formed = s.formed) (ht : u.host.tx = s.host.tx)
    (hs : u.host.speed = s.host.speed) (hu : u.host.resetTaken = s.host.resetTaken)
    (hx : u.host.rxInFrame = s.host.rxInFrame) (hp : u.host.tapU = s.host.tapU ∧ u.host.tapP = s.host.tapP)
    (hg : u.host.finding = s.host.finding) (hc : u.host.findings = s.host.findings) : Silent s u.pump where
  window := by simp [hw]
  formed := by simp [hf]
  sending := fun h => by rw [State.pump_sending] <;> simp [ht, h]
  speed := by simp [hs]
  hunting := by simp [hx]
  resetTaken := by simp [hu]
  results := by simp [hp]
  finding := by simp [hg]
  findings := fun h => by
    obtain ⟨tx, htx⟩ := Option.isSome_iff_exists.1 (ht ▸ h : u.host.tx.isSome = true)
    simp [State.pump, htx, hc]

theorem Told.of_silent {t : State} {kinds : List NoticeKind} (h : Silent s u.pump) (e : t = u.pump)
    (hk : ∀ k, u.tells k = (s.tells k || kinds.contains k)) : Told s t kinds := by
  subst e
  exact { h with told := fun k => by rw [State.pump_tells_eq, hk] }

/-- A command that leaves the host link as it finds it raises nothing. -/
theorem Told.of_host (h : u.host = s.host) : Told s u.pump [] :=
  Told.of_silent
    (Silent.of_pump (by rw [h]) (by simp [State.formed, h]) (by rw [h]) (by rw [h]) (by rw [h]) (by rw [h])
      (by rw [h]; exact ⟨rfl, rfl⟩) (by rw [h]) (by rw [h])) rfl (fun k => by simp [State.tells, h])

end Sys2Proof.Machine
end

