-- ==== Sys2Proof/Laws/Inner.lean ====
section
/-! SUPPORT. What every operation inside a command can do, said once: `Inner s t` holds of `t` made from `s` by shared
operations. Clock, pins, queue of commands, time, tables, schemes, window and speed stay; the journal only grows by
numbered records, with its halt and notices following them; every invariant of Safety is kept. -/

namespace Sys2Proof.Machine

/-- The journal has grown by records numbered from its next serial, with the time as it stands. -/
def Journal.grows (j k : Journal) (now : Nat) : Prop := ∃ bodies, j.grownBy k now bodies

/-- The journal and its two notices stand as after appends to `s` (R152 to R156). -/
def State.logs (s : State) (j : Journal) (level halt : Bool) : Prop :=
  ∃ t bodies, t.journal = j ∧ t.tells .journalLevel = level ∧ t.tells .journalHalt = halt ∧
    Logged s t s.time.now bodies ∧ LevelsTold s t

/-- `Inner` but for the line emergency state. -/
structure Inner0 (s t : State) : Prop where
  clock : t.clock = s.clock
  pins : t.pins = s.pins
  pending : t.pending = s.pending
  time : t.time = s.time
  tables : t.service.tables = s.service.tables
  schemes : t.service.schemes = s.service.schemes
  speed : t.host.speed = s.host.speed
  window : t.host.window = s.host.window
  resetTaken : t.host.resetTaken = s.host.resetTaken
  rows : t.link.rows.length = s.link.rows.length
  journal : s.journal.grows t.journal s.time.now
  logged : s.logs t.journal (t.tells .journalLevel) (t.tells .journalHalt)
  halt : s.haltOk → t.haltOk
  deny : s.screening.denyOk → t.screening.denyOk
  sight : s.screening.sightOk → t.screening.sightOk
  queue : s.link.queueOk → t.link.queueOk
  occupants : s.passage.occupantsOk → t.passage.occupantsOk
  notices : s.host.noticesOk → t.host.noticesOk

/-- What every operation inside a command can do. -/
structure Inner (s t : State) : Prop extends Inner0 s t where
  line : s.lineOk → t.lineOk

/-! ## The journal's growth -/

theorem numbered_append (n now : Nat) (a b : List RecBody) :
    numbered n now (a ++ b) = numbered n now a ++ numbered (n + a.length) now b := by
  induction a generalizing n with
  | nil => simp [numbered]
  | cons x xs ih => simp [numbered, ih, Nat.add_assoc, Nat.add_comm 1]

@[simp] theorem numbered_length (n now : Nat) (a : List RecBody) : (numbered n now a).length = a.length := by
  induction a generalizing n with
  | nil => rfl
  | cons x xs ih => simp [numbered, ih]

theorem numbered_serials (n now : Nat) (a : List RecBody) :
    (numbered n now a).map Record.serial = List.range' n a.length := by
  induction a generalizing n with
  | nil => rfl
  | cons x xs ih => simp [numbered, ih, List.range'_succ]

theorem Journal.grows_refl (j : Journal) (now : Nat) : j.grows j now := ⟨[], by simp [numbered], rfl⟩

theorem Journal.grows_push {j k : Journal} {now : Nat} (body : RecBody) (h : j.grows k now) :
    j.grows (k.push body now) now := by
  obtain ⟨bs, h1, h2⟩ := h
  refine ⟨bs ++ [body], ?_, ?_⟩
  · simp [Journal.push, h1, h2, numbered_append, numbered]
  · simp [Journal.push, h2, Nat.add_assoc]

theorem Journal.grows_halted {j k : Journal} {now : Nat} (b : Bool) (h : j.grows k now) :
    j.grows { k with halted := b } now := h

theorem Journal.serialsOk_grows {j k : Journal} {now : Nat} (h : j.grows k now) (ok : j.serialsOk) : k.serialsOk := by
  obtain ⟨bs, h1, h2⟩ := h
  obtain ⟨hs, hl⟩ := ok
  refine ⟨?_, ?_⟩
  · rw [h1, h2, List.map_append, hs, numbered_serials]
    simp only [List.length_append, numbered_length]
    have e1 : j.nextSerial + bs.length - (j.records.length + bs.length) = j.nextSerial - j.records.length := by omega
    have e2 : j.nextSerial = (j.nextSerial - j.records.length) + 1 * j.records.length := by omega
    rw [e1]
    conv_lhs => rw [e2]
    rw [← List.range'_append]
    congr 2
    omega
  · rw [h1, h2]
    simp
    omega

/-! ## The halt and the notices of the journal -/

/-- The two notices that the journal raises. -/
def NoticeKind.ofJournal : NoticeKind → Bool
  | .journalHalt => true
  | .journalLevel => true
  | _ => false

theorem State.logs_refl (s : State) : s.logs s.journal (s.tells .journalLevel) (s.tells .journalHalt) := by
  refine ⟨s, [], rfl, rfl, rfl, ⟨⟨by simp [numbered], rfl⟩, ?_, by simp⟩, ?_⟩
  · intro before b after h
    simp at h
  · refine ⟨?_, by simp⟩
    have : ¬(s.journal.records.length < s.service.params.noticeLevel ∧
        s.service.params.noticeLevel ≤ s.journal.records.length) := by omega
    simp [this]

/-- All that an append which is not skipped does to the journal and its notices (R152, R154, R155). -/
theorem State.append_taken (t : State) (b : RecBody) (h : (t.journal.halted && b.kind.cls == .event) = false) :
    (t.append b).journal =
        { t.journal.push b t.time.now with
          halted := t.journal.halted || decide (t.service.params.haltLevel ≤ t.journal.records.length + 1) } ∧
      (t.append b).tells .journalLevel =
        (t.tells .journalLevel || decide (t.journal.records.length + 1 = t.service.params.noticeLevel)) ∧
      (t.append b).tells .journalHalt =
        (t.tells .journalHalt ||
          (!t.journal.halted && decide (t.service.params.haltLevel ≤ t.journal.records.length + 1))) := by
  have hl : ∀ u : State, u.judgeLevel.journal = u.journal ∧ u.judgeLevel.service = u.service ∧
      (∀ k, u.judgeLevel.tells k =
        (u.tells k || (k == .journalLevel && decide (u.journal.records.length = u.service.params.noticeLevel)))) := by
    intro u
    unfold State.judgeLevel
    split
    · rename_i he
      exact ⟨rfl, rfl, fun k => by simp [State.raise_tells_eq, he]⟩
    · rename_i he
      exact ⟨rfl, rfl, fun k => by simp [he]⟩
  have hh : ∀ u : State, u.judgeHalt.journal =
        { u.journal with
          halted := u.journal.halted || decide (u.service.params.haltLevel ≤ u.journal.records.length) } ∧
      (∀ k, u.judgeHalt.tells k =
        (u.tells k || (k == .journalHalt && !u.journal.halted &&
          decide (u.service.params.haltLevel ≤ u.journal.records.length)))) := by
    intro u
    unfold State.judgeHalt
    split
    · rename_i he
      simp only [Bool.and_eq_true, Bool.not_eq_true'] at he
      refine ⟨?_, fun k => ?_⟩
      · simp [State.raise, State.onHost, State.onJournal, he.2]
      · rw [State.raise_tells_eq]
        simp [he.1, he.2, State.tells, State.onJournal]
    · rename_i he
      refine ⟨?_, fun k => ?_⟩
      · have e : (u.journal.halted || decide (u.service.params.haltLevel ≤ u.journal.records.length)) =
            u.journal.halted := by
          cases h1 : u.journal.halted <;> simp_all
        rw [e]
      · cases h1 : u.journal.halted <;> simp_all
  unfold State.append
  simp only [h, Bool.false_eq_true, if_false]
  obtain ⟨a1, a2, a3⟩ := hl (t.onJournal (Journal.push b t.time.now))
  obtain ⟨b1, b2⟩ := hh (t.onJournal (Journal.push b t.time.now)).judgeLevel
  refine ⟨?_, ?_, ?_⟩
  · rw [b1, a1, a2]
    simp [State.onJournal, Journal.push]
  · rw [b2, a3]
    simp [State.onJournal, Journal.push, State.tells]
  · have ne : (NoticeKind.journalHalt == NoticeKind.journalLevel) = false := rfl
    rw [b2, a3, a1, a2, ne]
    simp [State.onJournal, Journal.push, State.tells]

/-- A log goes on with a further append. -/
theorem State.logs_append {s t : State} (b : RecBody) (hp : t.service.params = s.service.params)
    (hn : t.time.now = s.time.now) (h : s.logs t.journal (t.tells .journalLevel) (t.tells .journalHalt)) :
    s.logs (t.append b).journal ((t.append b).tells .journalLevel) ((t.append b).tells .journalHalt) := by
  cases hs : t.journal.halted && b.kind.cls == .event with
  | true => rwa [State.append_skipped t b hs]
  | false =>
    obtain ⟨u, bodies, uj, ul, uh, hl, hv⟩ := h
    replace hl : Logged s { t with host := t.host } s.time.now bodies := ⟨uj ▸ hl.grown, hl.events, uj ▸ hl.halted⟩
    replace hv : LevelsTold s { t with host := t.host } := ⟨ul ▸ uj ▸ hv.level, uh ▸ uj ▸ hv.halt⟩
    obtain ⟨hj, hlev, hhalt⟩ := State.append_taken t b hs
    have hlen : t.journal.records.length = s.journal.records.length + bodies.length := by
      rw [hl.grown.1]; simp
    refine ⟨t.append b, bodies ++ [b], rfl, rfl, rfl, ⟨⟨?_, ?_⟩, ?_, ?_⟩, ⟨?_, ?_⟩⟩
    · rw [hj]
      simp [Journal.push, hl.grown.1, hl.grown.2, hn, numbered_append, numbered]
    · rw [hj]
      simp [Journal.push, hl.grown.2, Nat.add_assoc]
    · intro before x after e hx
      rcases List.append_eq_append_iff.1 e with ⟨mid, e1, e2⟩ | ⟨mid, e1, e2⟩
      · have hm : mid = [] ∧ x = b ∧ after = [] := by
          cases mid with
          | nil => simpa [eq_comm] using e2
          | cons y ys => simp at e2
        obtain ⟨rfl, rfl, rfl⟩ := hm
        simp only [List.append_nil] at e1
        subst e1
        have hf : t.journal.halted = false := by simpa [hx] using hs
        have h2 := hl.halted
        rw [hf] at h2
        have h3 := Bool.or_eq_false_iff.1 h2.symm
        refine ⟨h3.1, ?_⟩
        cases before with
        | nil => exact Or.inl rfl
        | cons y ys =>
          have h4 := h3.2
          simp only [List.isEmpty_cons, Bool.not_false, Bool.true_and, decide_eq_false_iff_not, Nat.not_le] at h4
          exact Or.inr (by omega)
      · cases mid with
        | nil =>
          simp only [List.append_nil, List.nil_append, List.cons.injEq] at e1 e2
          obtain ⟨rfl, rfl⟩ := e2
          subst e1
          have hf : t.journal.halted = false := by simpa [hx] using hs
          have h2 := hl.halted
          rw [hf] at h2
          have h3 := Bool.or_eq_false_iff.1 h2.symm
          refine ⟨h3.1, ?_⟩
          cases bodies with
          | nil => exact Or.inl rfl
          | cons y ys =>
            have h4 := h3.2
            simp only [List.isEmpty_cons, Bool.not_false, Bool.true_and, decide_eq_false_iff_not, Nat.not_le] at h4
            exact Or.inr (by omega)
        | cons y ys =>
          simp only [List.cons_append, List.cons.injEq] at e2
          obtain ⟨rfl, rfl⟩ := e2
          exact hl.events before x ys e1 hx
    · rw [hj]
      simp only [Journal.push, List.length_append, List.length_cons, List.length_nil, hp]
      rw [hl.halted]
      cases s.journal.halted <;> cases bodies <;> simp
      omega
    · rw [hlev, hv.level, hj, hp]
      simp only [Journal.push, List.length_append, List.length_cons, List.length_nil, Bool.or_assoc]
      congr 1
      rw [← Bool.decide_or]
      exact decide_eq_decide.2 (by omega)
    · rw [hhalt, hv.halt, hj, hp]
      have := hl.halted
      cases s.tells .journalHalt <;> cases h1 : s.journal.halted <;> cases h2 : t.journal.halted <;> simp_all [Journal.push]

/-! ## Steps of `Inner` -/

variable {s t : State}

theorem Inner.refl (s : State) : Inner s s where
  clock := rfl
  pins := rfl
  pending := rfl
  time := rfl
  tables := rfl
  schemes := rfl
  speed := rfl
  window := rfl
  resetTaken := rfl
  rows := rfl
  journal := Journal.grows_refl _ _
  logged := State.logs_refl _
  halt := id
  deny := id
  sight := id
  queue := id
  occupants := id
  notices := id
  line := id

/-- Ports are outside `Inner`. -/
theorem onPort_inner0 (side : Side) (f : Port → Port) (h : Inner0 s t) : Inner0 s (t.onPort side f) := by
  cases side <;> exact { h with }

theorem onPort_inner (side : Side) (f : Port → Port) (h : Inner s t) : Inner s (t.onPort side f) := by
  cases side <;> exact { h with }

theorem onPassage_inner (f : Passage → Passage) (hf : t.passage.occupantsOk → (f t.passage).occupantsOk)
    (h : Inner s t) : Inner s (t.onPassage f) :=
  { h with occupants := fun o => hf (h.occupants o) }

theorem onClaim_inner (f : Claim → Claim) (h : Inner s t) : Inner s (t.onClaim f) := { h with }

theorem onScreening_inner (f : Screening → Screening) (hd : t.screening.denyOk → (f t.screening).denyOk)
    (hs : t.screening.sightOk → (f t.screening).sightOk) (h : Inner s t) : Inner s (t.onScreening f) :=
  { h with deny := fun o => hd (h.deny o), sight := fun o => hs (h.sight o) }

theorem onLink_inner0 (f : Link → Link) (hq : t.link.queueOk → (f t.link).queueOk)
    (hr : (f t.link).rows.length = t.link.rows.length) (h : Inner0 s t) : Inner0 s (t.onLink f) :=
  { h with rows := hr.trans h.rows, queue := fun o => hq (h.queue o) }

/-- A change of the link that leaves the contributions as they are. -/
theorem onLink_inner (f : Link → Link) (hq : t.link.queueOk → (f t.link).queueOk)
    (hr : (f t.link).rows.map MemberRow.contribution = t.link.rows.map MemberRow.contribution) (h : Inner s t) :
    Inner s (t.onLink f) := by
  have hlen : (f t.link).rows.length = t.link.rows.length := by simpa using congrArg List.length hr
  refine { onLink_inner0 f hq hlen h.toInner0 with line := fun o => ?_ }
  have any : ∀ xs : List MemberRow,
      xs.any MemberRow.contributes = (xs.map MemberRow.contribution).any
        (fun c => MemberRow.contributes { present := false, lastHeard := none, contribution := c }) := by
    intro xs
    induction xs with
    | nil => rfl
    | cons x xs ih => simp [List.any_cons, ih, MemberRow.contributes]
  have h2 : (f t.link).rows.any MemberRow.contributes = t.link.rows.any MemberRow.contributes := by
    rw [any, any, hr]
  have h3 := h.line o
  simp only [State.lineOk, State.lineJudged, State.onLink_emergency, State.onLink_link, h2] at h3 ⊢
  exact h3

/-- A change of the host link that leaves the notices of the journal as they are. -/
theorem onHost_inner (f : HostLink → HostLink)
    (hk : (f t.host).speed = t.host.speed ∧ (f t.host).window = t.host.window
      ∧ (f t.host).resetTaken = t.host.resetTaken)
    (hn : t.host.noticesOk → (f t.host).noticesOk)
    (ht : ∀ k, k.ofJournal = true → (t.onHost f).tells k = t.tells k) (h : Inner s t) : Inner s (t.onHost f) :=
  { h with
    logged := by rw [ht _ rfl, ht _ rfl]; exact h.logged,
    speed := hk.1.trans h.speed, window := hk.2.1.trans h.window, resetTaken := hk.2.2.trans h.resetTaken,
    notices := fun o => hn (h.notices o) }

theorem onService_inner (f : Service → Service)
    (hk : (f t.service).tables = t.service.tables ∧ (f t.service).schemes = t.service.schemes)
    (h : Inner s t) : Inner s (t.onService f) := by
  have hp : (f t.service).params = t.service.params := congrArg Tables.params hk.1
  exact
    { h with
      tables := hk.1.trans h.tables, schemes := hk.2.trans h.schemes,
      halt := fun o => by
        have := h.halt o
        simpa [State.haltOk, hp] using this }

/-- Free choices are outside `Inner`. -/
theorem freeReads_inner (n : Nat) (h : Inner s t) : Inner s { t with freeReads := n } := { h with }

/-! ## Notices and replies -/

theorem HostLink.raise_ok (k : NoticeKind) {h : HostLink} (ok : h.noticesOk) : (h.raise k).noticesOk := by
  unfold HostLink.raise
  split
  · exact ok
  · rename_i hk
    exact ⟨by simpa [List.nodup_append] using ⟨ok.1, fun a ha e => hk (e ▸ ha)⟩, ok.2⟩

theorem HostLink.raise_same (k : NoticeKind) (h : HostLink) :
    (h.raise k).speed = h.speed ∧ (h.raise k).window = h.window ∧ (h.raise k).resetTaken = h.resetTaken := by
  unfold HostLink.raise
  split <;> exact ⟨rfl, rfl, rfl⟩

/-- A notice of another block than the journal is raised. -/
theorem raise_inner (k : NoticeKind) (h : Inner s t) (hk : k.ofJournal = false := by rfl) : Inner s (t.raise k) :=
  onHost_inner _ (HostLink.raise_same k _) (HostLink.raise_ok k)
    (fun j hj => (State.raise_tells_eq t k j).trans (by
      have : (j == k) = false := by simpa using fun e : j = k => by simp [e, hk] at hj
      simp [this])) h

theorem noteFinding_inner (card : CardNo) (k : FindingKind) (h : Inner s t) : Inner s (t.noteFinding card k) :=
  raise_inner _ (onHost_inner _ ⟨rfl, rfl, rfl⟩ (fun o => ⟨o.1, Nat.min_le_left _ _⟩) (fun _ _ => rfl) h)

theorem giveResult_inner (side : Side) (r : TapResult) (h : Inner s t) : Inner s (t.giveResult side r) := by
  cases side <;> exact raise_inner _ (onHost_inner _ ⟨rfl, rfl, rfl⟩ id (fun _ _ => rfl) h)

theorem reply_inner (tag : Byte) (kind : ReqKind) (body : ReplyBody) (h : Inner s t) :
    Inner s (t.reply tag kind body) := by
  unfold State.reply
  split
  · exact h
  · exact onHost_inner _ ⟨rfl, rfl, rfl⟩ id (fun _ _ => rfl) h

theorem linkRefuse_inner (tag : Byte) (kind : ReqKind) (code : RefusalCode) (h : Inner s t) :
    Inner s (t.linkRefuse tag kind code) := by
  unfold State.linkRefuse
  split
  · exact h
  · exact onHost_inner _ ⟨rfl, rfl, rfl⟩ id (fun _ _ => rfl) h

theorem endHostFrame_inner (h : Inner s t) : Inner s t.endHostFrame :=
  onHost_inner _ ⟨rfl, rfl, rfl⟩ id (fun _ _ => rfl) h

theorem pump_inner (h : Inner s t) : Inner s t.pump := by
  have tells := State.pump_tells_eq t
  unfold State.pump at tells ⊢
  split
  · exact h
  · rename_i h1 h2
    simp only [h1, h2] at tells
    exact onHost_inner _ ⟨rfl, rfl, rfl⟩ id (fun k _ => tells k) h
  · rename_i h1 h2
    split
    · exact h
    · rename_i h3
      simp only [h1, h2, h3] at tells
      refine onHost_inner _ ⟨rfl, rfl, rfl⟩ (fun o => ⟨o.1.erase _, ?_⟩) (fun k _ => tells k) h
      show (if _ then 0 else t.host.findings) ≤ 65535
      split
      · exact Nat.zero_le _
      · exact o.2

/-! ## The journal -/

/-- The halt is judged after an append: the count may stand at the halt level before it. -/
theorem judgeHalt_ok (t : State) (lv : t.service.params.levelsOk) : t.judgeHalt.haltOk := by
  unfold State.judgeHalt
  split
  · exact ⟨lv, by simp [State.raise]⟩
  · rename_i hc
    refine ⟨lv, fun hf => ?_⟩
    simpa [hf] using hc

theorem append_inner (body : RecBody) (h : Inner s t) : Inner s (t.append body) := by
  unfold State.append
  split
  · exact h
  · rename_i hs
    have logged :=
      State.logs_append body (congrArg Tables.params h.tables) (by rw [h.time]) h.logged
    rw [State.append, if_neg hs] at logged
    have e : t.time.now = s.time.now := by rw [h.time]
    have params : s.haltOk → t.service.params.levelsOk := fun o => (h.halt o).1
    have step : ∀ u : State, u.service = t.service → u.emergency = t.emergency → u.link = t.link →
        u.passage = t.passage → u.screening = t.screening → u.clock = t.clock → u.pins = t.pins →
        u.pending = t.pending → u.time = t.time → u.host.speed = t.host.speed → u.host.window = t.host.window →
        u.host.resetTaken = t.host.resetTaken → (t.host.noticesOk → u.host.noticesOk) →
        s.journal.grows u.journal s.time.now →
        s.logs u.judgeHalt.journal (u.judgeHalt.tells .journalLevel) (u.judgeHalt.tells .journalHalt) →
        Inner s u.judgeHalt := by
      intro u hsv hem hli hpa hsc hcl hpi hpe hti hsp hwi hre hno hjo hlog
      have key : u.judgeHalt.service = u.service ∧ u.judgeHalt.emergency = u.emergency ∧ u.judgeHalt.link = u.link ∧
          u.judgeHalt.passage = u.passage ∧ u.judgeHalt.screening = u.screening ∧ u.judgeHalt.clock = u.clock ∧
          u.judgeHalt.pins = u.pins ∧ u.judgeHalt.pending = u.pending ∧ u.judgeHalt.time = u.time ∧
          u.judgeHalt.host.speed = u.host.speed ∧ u.judgeHalt.host.window = u.host.window ∧
          u.judgeHalt.host.resetTaken = u.host.resetTaken ∧
          (u.host.noticesOk → u.judgeHalt.host.noticesOk) ∧
          (s.journal.grows u.journal s.time.now → s.journal.grows u.judgeHalt.journal s.time.now) := by
        unfold State.judgeHalt
        split
        · refine ⟨rfl, rfl, rfl, rfl, rfl, rfl, rfl, rfl, rfl, ?_, ?_, ?_, HostLink.raise_ok _, fun g => g⟩
          · exact (HostLink.raise_same _ _).1
          · exact (HostLink.raise_same _ _).2.1
          · exact (HostLink.raise_same _ _).2.2
        · exact ⟨rfl, rfl, rfl, rfl, rfl, rfl, rfl, rfl, rfl, rfl, rfl, rfl, id, id⟩
      obtain ⟨k1, k2, k3, k4, k5, k6, k7, k8, k9, k10, k11, k12, k13, k14⟩ := key
      exact
        { clock := by rw [k6, hcl, h.clock], pins := by rw [k7, hpi, h.pins],
          pending := by rw [k8, hpe, h.pending], time := by rw [k9, hti, h.time],
          tables := by rw [k1, hsv, h.tables], schemes := by rw [k1, hsv, h.schemes],
          speed := by rw [k10, hsp, h.speed], window := by rw [k11, hwi, h.window],
          resetTaken := by rw [k12, hre, h.resetTaken], rows := by rw [k3, hli, h.rows],
          journal := k14 hjo,
          logged := hlog,
          halt := fun o => judgeHalt_ok _ (by rw [hsv]; exact params o),
          deny := fun o => by rw [k5, hsc]; exact h.deny o,
          sight := fun o => by rw [k5, hsc]; exact h.sight o,
          queue := fun o => by rw [k3, hli]; exact h.queue o,
          occupants := fun o => by rw [k4, hpa]; exact h.occupants o,
          notices := fun o => k13 (hno (h.notices o)),
          line := fun o => by
            have := h.line o
            simpa [State.lineOk, State.lineJudged, k2, k3, hem, hli] using this }
    refine step _ ?_ ?_ ?_ ?_ ?_ ?_ ?_ ?_ ?_ ?_ ?_ ?_ ?_ ?_ logged
    all_goals unfold State.judgeLevel
    all_goals split
    all_goals first
      | rfl
      | exact (HostLink.raise_same _ _).1
      | exact (HostLink.raise_same _ _).2.1
      | exact (HostLink.raise_same _ _).2.2
      | exact HostLink.raise_ok _
      | exact id
      | (show s.journal.grows (t.journal.push body t.time.now) s.time.now
         rw [e]
         exact Journal.grows_push body h.journal)

end Sys2Proof.Machine
end

