-- ==== Sys2Proof/Laws/Queue.lean ====
section
/-! SUPPORT. `Inner` for the outbound queue, SYNC_LINE and the drain (R112 to R114, R167). -/

namespace Sys2Proof.Machine

variable {s t : State}

/-- A loop of operations is `Inner` when each is. -/
theorem foldl_inner {α : Type} (f : State → α → State) (hf : ∀ u a, Inner s u → Inner s (f u a)) (xs : List α)
    (h : Inner s t) : Inner s (xs.foldl f t) := by
  induction xs generalizing t with
  | nil => exact h
  | cons x xs ih => exact ih (hf _ _ h)

/-- A repeated operation is `Inner` when it is. -/
theorem iterate_inner (f : State → State) (hf : ∀ u, Inner s u → Inner s (f u)) (n : Nat) (h : Inner s t) :
    Inner s (Nat.iterate f n t) := by
  induction n generalizing t with
  | zero => exact h
  | succ n ih => exact ih (hf _ h)

/-! ## Lists -/

@[simp] theorem changeFirst_length {α : Type} (p : α → Bool) (f : α → α) (xs : List α) :
    (changeFirst p f xs).length = xs.length := by
  induction xs with
  | nil => rfl
  | cons x xs ih => simp only [changeFirst]; split <;> simp [ih]

theorem changeFirst_countP {α : Type} (p q : α → Bool) (f : α → α) (hf : ∀ x, q (f x) = q x) (xs : List α) :
    (changeFirst p f xs).countP q = xs.countP q := by
  induction xs with
  | nil => rfl
  | cons x xs ih => simp only [changeFirst]; split <;> simp [List.countP_cons, ih, hf]

theorem map_countP {α : Type} (q : α → Bool) (f : α → α) (hf : ∀ x, q (f x) = q x) (xs : List α) :
    (xs.map f).countP q = xs.countP q := by
  induction xs with
  | nil => rfl
  | cons x xs ih => simp [List.countP_cons, ih, hf]

theorem dropFirst_sublist {α : Type} (p : α → Bool) (xs : List α) : (dropFirst p xs).Sublist xs := by
  induction xs with
  | nil => exact List.Sublist.slnil
  | cons x xs ih =>
    simp only [dropFirst]
    split
    · exact List.sublist_cons_self x xs
    · exact ih.cons_cons x

theorem dropFirst_length {α : Type} (p : α → Bool) (xs : List α) (h : ∃ x ∈ xs, p x = true) :
    (dropFirst p xs).length + 1 = xs.length := by
  induction xs with
  | nil => simp at h
  | cons x xs ih =>
    simp only [dropFirst]
    split
    · rfl
    · rename_i hx
      have : ∃ y ∈ xs, p y = true := by
        obtain ⟨y, hy, py⟩ := h
        rcases List.mem_cons.1 hy with e | hy
        · exact absurd (e ▸ py) hx
        · exact ⟨y, hy, py⟩
      simp [ih this]

/-! ## The queue's invariant -/

/-- A queue no longer, with no more frames in transmission, is as good. -/
theorem Link.queueOk_of {l m : Link} (h : l.queueOk) (hl : m.queue.length ≤ l.queue.length)
    (hc : m.queue.countP QItem.inTx ≤ l.queue.countP QItem.inTx) (ht : m.tx = l.tx) : m.queueOk :=
  ⟨hl.trans h.1, by rw [ht]; exact hc.trans h.2⟩

theorem Link.queueOk_sublist {l m : Link} (h : l.queueOk) (hl : m.queue.Sublist l.queue) (ht : m.tx = l.tx) :
    m.queueOk :=
  Link.queueOk_of h hl.length_le (hl.countP_le) ht

theorem judgeSync_inner (y : Sync) (h : Inner s t) : Inner s (t.judgeSync y) := by
  unfold State.judgeSync
  split
  · exact h
  · refine reply_inner _ _ _ (onLink_inner _ (fun o => Link.queueOk_of o (by simp) ?_ rfl) rfl h)
    dsimp only
    rw [map_countP]
    exact fun _ => rfl

theorem judgeSyncs_inner (h : Inner s t) : Inner s t.judgeSyncs := foldl_inner _ (fun _ _ => judgeSync_inner _) _ h

/-- SYNC_LINE judging changes marks only. -/
theorem judgeSync_queue (t : State) (y : Sync) :
    (t.judgeSync y).link.queue.length = t.link.queue.length ∧
      (t.judgeSync y).link.queue.countP QItem.inTx = t.link.queue.countP QItem.inTx := by
  unfold State.judgeSync
  split
  · exact ⟨rfl, rfl⟩
  · refine ⟨by simp, ?_⟩
    simp only [State.reply_link, State.onLink_link]
    rw [map_countP]
    exact fun _ => rfl

theorem judgeSyncs_queue (t : State) :
    t.judgeSyncs.link.queue.length = t.link.queue.length ∧
      t.judgeSyncs.link.queue.countP QItem.inTx = t.link.queue.countP QItem.inTx := by
  unfold State.judgeSyncs
  generalize t.link.syncs = ys
  induction ys generalizing t with
  | nil => exact ⟨rfl, rfl⟩
  | cons y ys ih =>
    have h1 := judgeSync_queue t y
    have h2 := ih (t.judgeSync y)
    exact ⟨h2.1.trans h1.1, h2.2.trans h1.2⟩

theorem makeRoom_inner (h : Inner s t) : Inner s t.makeRoom := by
  unfold State.makeRoom
  split
  · split
    · exact h
    · exact judgeSyncs_inner (append_inner _
        (onLink_inner _ (fun o => Link.queueOk_sublist o (dropFirst_sublist _ _) rfl) rfl h))
  · exact h

/-- After the drop there is room for a frame (R113). -/
theorem makeRoom_room (t : State) (o : t.link.queueOk) : t.makeRoom.link.queue.length < Config.queueCap := by
  unfold State.makeRoom
  split
  · rename_i hc
    have few : t.link.queue.countP QItem.inTx ≤ 1 := o.2.trans (by split <;> omega)
    have some_ : ∃ x ∈ t.link.queue, (!QItem.inTx x) = true := by
      by_contra hn
      push Not at hn
      have all : t.link.queue.countP QItem.inTx = t.link.queue.length :=
        List.countP_eq_length.2 fun x hx => by simpa using hn x hx
      simp only [Config.queueCap] at hc
      omega
    split
    · rename_i hf
      obtain ⟨x, hx, px⟩ := some_
      exact absurd px (List.find?_eq_none.1 hf x hx)
    · have := dropFirst_length (fun x => !QItem.inTx x) t.link.queue some_
      rw [(judgeSyncs_queue _).1]
      simp only [State.append_link, State.onLink_link]
      have := o.1
      omega
  · omega

theorem join_inner (m : LinkMsg) (h : Inner s t) : Inner s (t.join m) := by
  have h1 := makeRoom_inner h
  have base : Inner t t.makeRoom := makeRoom_inner (Inner.refl t)
  refine { onLink_inner (t := t.makeRoom) (fun l => l) id rfl h1 with
    rows := h1.rows, line := h1.line, queue := fun o => ?_ }
  have o1 := h1.queue o
  have room := makeRoom_room t (h.queue o)
  refine ⟨?_, ?_⟩
  · simp only [State.join, State.onLink_link, List.length_append, List.length_cons, List.length_nil]
    omega
  · have e : (t.join m).link.queue.countP QItem.inTx = t.makeRoom.link.queue.countP QItem.inTx := by
      simp [State.join, List.countP_append]
    exact e.le.trans o1.2

theorem enqueue_inner (m : LinkMsg) (h : Inner s t) : Inner s (t.enqueue m) := by
  unfold State.enqueue
  split
  · have replace : Inner s (t.onLink fun l =>
        { l with queue := changeFirst (QItem.matches m) (fun q => { q with msg := m }) l.queue }) := by
      refine onLink_inner _ (fun o => Link.queueOk_of o (by simp) ?_ rfl) rfl h
      dsimp only
      rw [changeFirst_countP]
      exact fun _ => rfl
    split
    · exact h
    · exact replace
    · exact replace
    · exact replace
  · exact join_inner m h

theorem answerSuspends_inner (body : ReplyBody) (h : Inner s t) : Inner s (t.answerSuspends body) :=
  onService_inner _ ⟨rfl, rfl⟩ (foldl_inner _ (fun _ _ => reply_inner _ _ _) _ h)

theorem judgeDrain_inner (h : Inner s t) : Inner s t.judgeDrain := by
  unfold State.judgeDrain
  split
  · exact answerSuspends_inner _ (raise_inner _ (onService_inner _ ⟨rfl, rfl⟩ h))
  · exact h

end Sys2Proof.Machine
end

