-- ==== Sys2Proof/Laws/Screening.lean ====
section
/-! SUPPORT. `Inner` for the operations of the Screening Unit: the deny list stays sorted and within its capacities
(R72, R74), the sighting table never holds a card twice (R75). -/

namespace Sys2Proof.Machine

variable {s t : State}

/-! ## The deny list -/

theorem insertDeny_perm (e : DenyEntry) (xs : List DenyEntry) : (insertDeny e xs).Perm (e :: xs) := by
  induction xs with
  | nil => exact .refl _
  | cons x xs ih =>
    simp only [insertDeny]
    split
    · exact .refl _
    · exact (ih.cons x).trans (.swap e x xs)

theorem insertDeny_sorted {e : DenyEntry} {xs : List DenyEntry}
    (h : xs.Pairwise fun a b => a.card.toNat < b.card.toNat) (he : ∀ x ∈ xs, x.card ≠ e.card) :
    (insertDeny e xs).Pairwise fun a b => a.card.toNat < b.card.toNat := by
  induction xs with
  | nil => simp [insertDeny]
  | cons x xs ih =>
    obtain ⟨hx, hs⟩ := List.pairwise_cons.1 h
    simp only [insertDeny]
    split
    · rename_i lt
      refine List.pairwise_cons.2 ⟨fun y hy => ?_, h⟩
      rcases List.mem_cons.1 hy with rfl | hy
      · exact lt
      · exact lt.trans (hx y hy)
    · rename_i ge
      refine List.pairwise_cons.2 ⟨fun y hy => ?_, ih hs fun y hy => he y (by simp [hy])⟩
      rcases List.mem_cons.1 ((insertDeny_perm e xs).mem_iff.1 hy) with rfl | hy
      · have : x.card.toNat ≠ y.card.toNat := fun q => he x (by simp) (BitVec.eq_of_toNat_eq q)
        omega
      · exact hx y hy

/-- Removing the card of an entry of the list takes at least that entry away. -/
theorem removeDeny_countP (p : DenyEntry → Bool) (o : DenyEntry) (hp : p o = true) (xs : List DenyEntry)
    (ho : o ∈ xs) : (removeDeny o.card xs).countP p + 1 ≤ xs.countP p := by
  induction xs with
  | nil => simp at ho
  | cons x xs ih =>
    have le : (removeDeny o.card xs).countP p ≤ xs.countP p := (List.filter_sublist).countP_le
    by_cases hx : x.card = o.card
    · have e : removeDeny o.card (x :: xs) = removeDeny o.card xs := by simp [removeDeny, hx]
      rcases List.mem_cons.1 ho with rfl | ho
      · rw [e, List.countP_cons_of_pos hp]
        omega
      · rw [e, List.countP_cons]
        have := ih ho
        omega
    · have e : removeDeny o.card (x :: xs) = x :: removeDeny o.card xs := by simp [removeDeny, hx]
      rcases List.mem_cons.1 ho with rfl | ho
      · exact absurd rfl hx
      · rw [e, List.countP_cons, List.countP_cons]
        have := ih ho
        omega

/-- The oldest LOCAL or PEER entry is an entry of the list, LOCAL or PEER. -/
theorem oldestLocal_mem {xs : List DenyEntry} {o : DenyEntry} (h : oldestLocal xs = some o) :
    o ∈ xs ∧ o.isLocal = true := by
  have key : ∀ (ys : List DenyEntry) (acc : Option DenyEntry),
      (ys.foldl (fun best e => match best with
        | none => some e
        | some b => if e.older b then some e else some b) acc) = some o → o ∈ ys ∨ acc = some o := by
    intro ys
    induction ys with
    | nil => intro acc h; exact .inr h
    | cons y ys ih =>
      intro acc h
      rcases ih _ h with h | h
      · exact .inl (by simp [h])
      · cases acc with
        | none => exact .inl (by simp [Option.some.inj h])
        | some b =>
          dsimp only at h
          split at h
          · exact .inl (by simp [Option.some.inj h])
          · exact .inr h
  rcases key _ none h with h | h
  · exact ⟨(List.mem_filter.1 h).1, (List.mem_filter.1 h).2⟩
  · simp at h

theorem Screening.denied_none {c : Screening} {card : CardNo} (h : (c.denied card).isSome = false) :
    ∀ x ∈ c.deny, x.card ≠ card := by
  simpa [Screening.denied] using h

theorem Screening.addLocal_denyOk {c : Screening} {card : CardNo} (origin : DenyOrigin) (now : Nat)
    (h : (c.denied card).isSome = false) (ok : c.denyOk) : (c.addLocal card origin now).denyOk := by
  obtain ⟨hs, hl, hd⟩ := ok
  have absent := Screening.denied_none h
  have insert_ : ∀ ys : List DenyEntry, ys.Sublist c.deny →
      ys.countP DenyEntry.isLocal + 1 ≤ Config.localCap → ys.length + 1 ≤ Config.denyCap →
      ({ c with deny := insertDeny (c.newLocal card origin now) ys, order := c.order + 1 } : Screening).denyOk := by
    intro ys sub h1 h2
    refine ⟨insertDeny_sorted (hs.sublist sub) fun x hx => absent x (sub.subset hx), ?_, ?_⟩
    · show (insertDeny _ ys).countP _ ≤ _
      rw [(insertDeny_perm _ ys).countP_eq, List.countP_cons]
      split <;> omega
    · show (insertDeny _ ys).length ≤ _
      rw [(insertDeny_perm _ ys).length_eq]
      exact h2
  unfold Screening.addLocal
  simp only
  split
  · split
    · rename_i o ho
      obtain ⟨mem, loc⟩ := oldestLocal_mem ho
      refine insert_ _ List.filter_sublist ?_ ?_
      · exact (removeDeny_countP _ o loc _ mem).trans hl
      · have := removeDeny_countP (fun _ => true) o rfl _ mem
        simp only [List.countP_true] at this
        exact this.trans hd
    · exact ⟨hs, hl, hd⟩
  · rename_i h1
    split
    · exact ⟨hs, hl, hd⟩
    · rename_i h2
      refine insert_ _ (List.Sublist.refl _) ?_ ?_
      · have : c.localCount = c.deny.countP DenyEntry.isLocal := rfl
        omega
      · omega

theorem denyFinding_inner (card : CardNo) (origin : DenyOrigin) (h : Inner s t) :
    Inner s (t.denyFinding card origin) := by
  refine onScreening_inner _ (fun ok => ?_) (fun ok => ?_) h
  · split
    · exact ok
    · rename_i absent
      exact Screening.addLocal_denyOk _ _ (by simpa using absent) ok
  · split
    · exact ok
    · unfold Screening.addLocal
      simp only
      split
      · split <;> exact ok
      · split <;> exact ok

theorem cloneOutcome_inner (card : CardNo) (h : Inner s t) : Inner s (t.cloneOutcome card) :=
  noteFinding_inner _ _ (enqueue_inner _ (denyFinding_inner _ _ h))

theorem cloneIf_inner (mark : Bool) (card : CardNo) (h : Inner s t) : Inner s (t.cloneIf mark card) := by
  unfold State.cloneIf
  split
  · exact cloneOutcome_inner _ h
  · exact h

/-! ## The sighting table -/

theorem replaceSighting_cards (e : Sighting) (xs : List Sighting) :
    (replaceSighting e xs).map Sighting.card = xs.map Sighting.card := by
  simp only [replaceSighting, List.map_map]
  refine List.map_congr_left fun x _ => ?_
  simp only [Function.comp]
  split
  · rename_i h; exact h.symm
  · rfl

theorem putSighting_inner (e : Sighting) (h : Inner s t) : Inner s (t.putSighting e) :=
  onScreening_inner _ id (fun ok => by simpa [Screening.sightOk, replaceSighting_cards] using ok) h

theorem touchSighting_inner (e : Sighting) (h : Inner s t) : Inner s (t.touchSighting e) :=
  onScreening_inner _ id (fun ok => by simpa [Screening.sightOk, replaceSighting_cards] using ok) h

theorem removeSighting_ok {card : CardNo} {xs : List Sighting} (ok : (xs.map Sighting.card).Nodup) :
    ((removeSighting card xs).map Sighting.card).Nodup :=
  ok.sublist (List.filter_sublist.map _)

theorem dropSighting_inner (card : CardNo) (h : Inner s t) : Inner s (t.dropSighting card) :=
  onScreening_inner _ id removeSighting_ok h

theorem evict_sublist (xs : List Sighting) : (evict xs).Sublist xs := by
  unfold evict
  split
  · split
    · exact List.filter_sublist
    · exact List.Sublist.refl _
  · exact List.Sublist.refl _

theorem Screening.sighted_none {c : Screening} {card : CardNo} (h : c.sighted card = none) :
    ∀ x ∈ c.sightings, x.card ≠ card := by
  intro x hx e
  have := List.find?_eq_none.1 h x hx
  simp [e] at this

theorem Screening.sighted_some {c : Screening} {card : CardNo} {e : Sighting} (h : c.sighted card = some e) :
    e ∈ c.sightings ∧ e.card = card :=
  ⟨List.mem_of_find?_eq_some h, by simpa using List.find?_some h⟩

/-- A card that has been dropped is unknown. -/
theorem dropSighting_sighted (card : CardNo) (t : State) : (t.dropSighting card).screening.sighted card = none := by
  refine List.find?_eq_none.2 fun x hx => ?_
  simpa using (List.mem_filter.1 hx).2

theorem insertSighting_inner (card : CardNo) (baseline : SImage) (st : SightState)
    (hn : t.screening.sighted card = none) (h : Inner s t) : Inner s (t.insertSighting card baseline st) := by
  refine onScreening_inner _ id (fun ok => ?_) h
  show ((evict t.screening.sightings ++ [_]).map Sighting.card).Nodup
  rw [List.map_append, List.nodup_append]
  refine ⟨List.Nodup.sublist ((evict_sublist _).map _) ok, by simp, fun a ha b hb => ?_⟩
  obtain ⟨x, hx, rfl⟩ := List.mem_map.1 ha
  obtain ⟨y, hy, rfl⟩ := List.mem_map.1 hb
  rw [List.mem_singleton.1 hy]
  exact Screening.sighted_none hn x ((evict_sublist _).subset hx)

theorem abandon_inner (e : Sighting) (h : Inner s t) : Inner s (t.abandon e) := by
  unfold State.abandon
  split
  · exact dropSighting_inner _ (append_inner _ h)
  · exact h
  · exact h

/-! ## Aging (R78) -/

theorem examineLapse_inner (card : CardNo) (h : Inner s t) : Inner s (t.examineLapse card) := by
  unfold State.examineLapse
  split
  · exact putSighting_inner _ h
  · exact h

theorem examineLifetime_inner (card : CardNo) (h : Inner s t) : Inner s (t.examineLifetime card) := by
  unfold State.examineLifetime
  split
  · split
    · exact dropSighting_inner _ h
    · exact h
  · exact h

theorem examineInDoubt_inner (card : CardNo) (h : Inner s t) : Inner s (t.examineInDoubt card) := by
  unfold State.examineInDoubt
  split
  · split
    · exact abandon_inner _ h
    · exact h
  · exact h

theorem examineOne_inner (card : CardNo) (h : Inner s t) : Inner s (t.examineOne card) :=
  examineInDoubt_inner _ (examineLifetime_inner _ (examineLapse_inner _ h))

theorem examine_inner (h : Inner s t) : Inner s t.examine := foldl_inner _ (fun _ _ => examineOne_inner _) _ h

/-! ## Inbound sightings (R92, R93) -/

theorem cloneLate_inner (card : CardNo) (src : Nat) (h : Inner s t) : Inner s (t.cloneLate card src) :=
  noteFinding_inner _ _ (append_inner _ (enqueue_inner _ (denyFinding_inner _ _ h)))

theorem sightCommitted_inner (src : Nat) (read written : SImage) (e : Sighting) (h : Inner s t) :
    Inner s (t.sightCommitted src read written e) := by
  unfold State.sightCommitted
  split
  · exact h
  · split
    · exact touchSighting_inner _ h
    · exact cloneLate_inner _ _ h

theorem sightPending_inner (src : Nat) (read written : SImage) (e : Sighting) (p : PendingTap) (h : Inner s t) :
    Inner s (t.sightPending src read written e p) := putSighting_inner _ h

theorem sightInDoubt_inner (src : Nat) (read written : SImage) (e : Sighting) (stored : SImage) (serial : Nat)
    (h : Inner s t) : Inner s (t.sightInDoubt src read written e stored serial) := by
  unfold State.sightInDoubt
  split
  · exact touchSighting_inner _ (append_inner _ h)
  · split
    · exact touchSighting_inner _ (append_inner _ h)
    · exact h

theorem inboundSighting_inner (src : Nat) (card : CardNo) (read written : SImage) (h : Inner s t) :
    Inner s (t.inboundSighting src card read written) := by
  unfold State.inboundSighting
  split
  · exact h
  · split
    · rename_i hn
      exact insertSighting_inner _ _ _ hn h
    · split
      · exact sightCommitted_inner _ _ _ _ h
      · exact sightPending_inner _ _ _ _ _ h
      · exact sightInDoubt_inner _ _ _ _ _ _ h

theorem applyHeld_inner (card : CardNo) (held : Option HeldUpdate) (h : Inner s t) :
    Inner s (t.applyHeld card held) := by
  unfold State.applyHeld
  split
  · exact inboundSighting_inner _ _ _ _ h
  · exact h

/-! ## Screening a tap (R79 to R82) -/

theorem screenNew_inner (side : Side) (card : CardNo) (img : SImage) (hn : t.screening.sighted card = none)
    (h : Inner s t) : Inner s (t.screenNew side card img).1 := insertSighting_inner _ _ _ hn h

theorem regrant_inner (side : Side) (e : Sighting) (st : Standing) (h : Inner s t) :
    Inner s (t.regrant side e st) := append_inner _ (enqueue_inner _ (touchSighting_inner _ h))

theorem screenCommitted_inner (side : Side) (img : SImage) (e : Sighting) (st : Standing) (h : Inner s t) :
    Inner s (t.screenCommitted side img e st).1 := by
  unfold State.screenCommitted
  split
  · exact putSighting_inner _ h
  · split
    · split
      · exact regrant_inner _ _ _ h
      · exact putSighting_inner _ h
    · exact cloneOutcome_inner _ h

theorem screenPending_inner (e : Sighting) (p : PendingTap) (h : Inner s t) : Inner s (t.screenPending e p).1 :=
  cloneOutcome_inner _ (putSighting_inner _ h)

theorem screenInDoubt_inner (side : Side) (balance : Int) (img : SImage) (e : Sighting) (stored : SImage)
    (serial : Nat) (h : Inner s t) : Inner s (t.screenInDoubt side balance img e stored serial).1 := by
  unfold State.screenInDoubt
  simp only
  split
  · exact putSighting_inner _ (append_inner _ h)
  · split
    · exact enqueue_inner _ (touchSighting_inner _ (append_inner _ h))
    · split
      · exact screenNew_inner _ _ _ (dropSighting_sighted _ _) (dropSighting_inner _ (append_inner _ h))
      · exact cloneOutcome_inner _ h

theorem screen_inner (side : Side) (card : CardNo) (balance : Int) (img : SImage) (h : Inner s t) :
    Inner s (t.screen side card balance img).1 := by
  unfold State.screen
  split
  · rename_i hn
    exact screenNew_inner _ _ _ hn h
  · split
    · exact screenCommitted_inner _ _ _ _ h
    · exact screenPending_inner _ _ h
    · exact screenInDoubt_inner _ _ _ _ _ _ h

/-! ## The course of a pending entry (R84 to R88) -/

theorem storeSent_inner (side : Side) (card : CardNo) (img : SImage) (h : Inner s t) :
    Inner s (t.storeSent side card img) := by
  unfold State.storeSent
  split
  · exact putSighting_inner _ h
  · exact h

theorem endUnwritten_inner (side : Side) (card : CardNo) (h : Inner s t) : Inner s (t.endUnwritten side card) := by
  unfold State.endUnwritten
  split
  · refine applyHeld_inner _ _ ?_
    split
    · exact dropSighting_inner _ h
    · exact touchSighting_inner _ h
  · exact h

theorem commitSighting_inner (side : Side) (card : CardNo) (h : Inner s t) :
    Inner s (t.commitSighting side card) := by
  unfold State.commitSighting
  split
  · exact applyHeld_inner _ _ (cloneIf_inner _ _ (enqueue_inner _ (touchSighting_inner _ h)))
  · exact h

theorem limitInDoubt_inner (h : Inner s t) : Inner s t.limitInDoubt := by
  unfold State.limitInDoubt
  split
  · split
    · exact abandon_inner _ h
    · exact h
  · exact h

theorem convert_inner (side : Side) (card : CardNo) (h : Inner s t) : Inner s (t.convert side card) := by
  unfold State.convert
  split
  · exact applyHeld_inner _ _ (cloneIf_inner _ _ (append_inner _ (touchSighting_inner _ (limitInDoubt_inner h))))
  · exact h

theorem lapseRequest_inner (card : CardNo) (side : Side) (h : Inner s t) : Inner s (t.lapseRequest card side) := by
  unfold State.lapseRequest
  split
  · exact h
  · split
    · split
      · exact enqueue_inner _ (putSighting_inner _ h)
      · exact h
    · exact h
    · exact h

theorem settleOne_inner (card : CardNo) (h : Inner s t) : Inner s (t.settleOne card) := by
  unfold State.settleOne
  split
  · exact h
  · split
    · split
      · exact convert_inner _ _ h
      · exact endUnwritten_inner _ _ h
    · exact h
    · exact h

theorem settlePending_inner (h : Inner s t) : Inner s t.settlePending :=
  foldl_inner _ (fun _ _ => settleOne_inner _) _ h

end Sys2Proof.Machine
end

