-- ==== Sys2Proof/Laws/Aisle.lean ====
section
/-! SUPPORT. `Inner` for the operations of the Passage Controller: at most three occupants stand (R124). -/

namespace Sys2Proof.Machine

variable {s t : State}

/-! ## Slots -/

theorem grantPort_inner (side : Side) (h : Inner s t) : Inner s (t.grantPort side) := by
  unfold State.grantPort
  split
  · exact onPort_inner _ _ (onClaim_inner _ h)
  · exact h

theorem judgeWaiting_inner (h : Inner s t) : Inner s t.judgeWaiting := by
  unfold State.judgeWaiting
  split
  · exact grantPort_inner _ h
  · exact h

theorem settleClaim_inner (h : Inner s t) : Inner s t.settleClaim := judgeWaiting_inner (onClaim_inner _ h)

theorem freeSlot_inner (k : SlotId) (h : Inner s t) : Inner s (t.freeSlot k) := settleClaim_inner (onClaim_inner _ h)

/-! ## Leaves -/

theorem travelTo_inner (clock : Nat) (leaf : LeafState) (h : Inner s t) :
    Inner s (t.onPassage (Passage.travelTo clock leaf)) := onPassage_inner _ id h

theorem rest_inner (leaf : LeafState) (h : Inner s t) : Inner s (t.onPassage (Passage.rest leaf)) :=
  onPassage_inner _ id h

theorem closeIfClear_inner (h : Inner s t) : Inner s t.closeIfClear := by
  unfold State.closeIfClear
  split
  · exact travelTo_inner _ _ h
  · exact h

theorem settleLeaves_inner (h : Inner s t) : Inner s t.settleLeaves := by
  unfold State.settleLeaves
  split
  · split
    · exact travelTo_inner _ _ h
    · exact h
  · split
    · exact travelTo_inner _ _ h
    · exact h
  · split
    · exact rest_inner _ h
    · exact closeIfClear_inner h
  · split
    · exact h
    · exact closeIfClear_inner (rest_inner _ h)
  · exact h
  · exact h

theorem judgeGateReset_inner (h : Inner s t) : Inner s t.judgeGateReset := by
  unfold State.judgeGateReset
  split
  · exact reply_inner _ _ _ (onPassage_inner _ id h)
  · exact h

/-! ## Credits -/

theorem lapseCredit_inner (c : Credit) (h : Inner s t) : Inner s (t.lapseCredit c) := by
  unfold State.lapseCredit
  split
  · exact lapseRequest_inner _ _ h
  · exact h

theorem removeCredit_inner (k : SlotId) (h : Inner s t) : Inner s (t.removeCredit k) :=
  freeSlot_inner _ (onPassage_inner _ (fun o => by simpa [Passage.occupantsOk, Passage.dropCredit] using o) h)

theorem recordUnused_inner (c : Credit) (reason : Option Reason) (h : Inner s t) :
    Inner s (t.recordUnused c reason) := by
  unfold State.recordUnused
  split
  · exact append_inner _ h
  · exact h

theorem clearCredit_inner (cause : ClearCause) (c : Credit) (h : Inner s t) : Inner s (t.clearCredit cause c) := by
  unfold State.clearCredit
  have h1 := recordUnused_inner c cause.reason (removeCredit_inner c.slot h)
  simp only
  split
  · exact lapseCredit_inner _ h1
  · exact h1

theorem clearCredits_inner (cause : ClearCause) (h : Inner s t) : Inner s (t.clearCredits cause) :=
  foldl_inner _ (fun _ _ => clearCredit_inner _ _) _ h

theorem addCredit_inner (k : SlotId) (d : Direction) (origin : CreditOrigin) (until_ : Nat) (h : Inner s t) :
    Inner s (t.onPassage (Passage.addCredit k d origin until_)) :=
  onPassage_inner _ (fun o => by simpa [Passage.occupantsOk, Passage.addCredit] using o) h

theorem formCredit_inner (k : SlotId) (d : Direction) (origin : CreditOrigin) (h : Inner s t) :
    Inner s (t.formCredit k d origin) := by
  unfold State.formCredit
  have h1 := addCredit_inner k d origin t.creditUntil h
  simp only
  split
  · exact clearCredits_inner _ h1
  · exact settleLeaves_inner h1

/-! ## Alarms and occupants -/

theorem alarm_inner (kind : AlarmKind) (side : Option Side) (h : Inner s t) : Inner s (t.alarm kind side) := by
  unfold State.alarm
  split
  · exact append_inner _ h
  · exact raise_inner _ (append_inner _ (onPassage_inner _ id h))

theorem advance_inner (d : Direction) (place : Option SlotId → List Occupant → List Occupant)
    (hp : ∀ k, t.passage.occupantsOk → (place k t.passage.occupants).length ≤ 3) (h : Inner s t) :
    Inner s (t.advance d place) := by
  unfold State.advance
  split
  · exact onPassage_inner _ (hp _) h
  · have h1 : Inner s (t.onPassage fun g => { g with occupants := place none g.occupants }) :=
      onPassage_inner _ (hp _) h
    simp only
    split
    · exact h1
    · exact alarm_inner _ _ h1

theorem moveToLeaf_inner (d : Direction) (p : Occupant → Bool) (h : Inner s t) :
    Inner s (t.advance d (moveToLeaf p)) :=
  advance_inner _ _ (fun _ o => by simpa [moveToLeaf, Passage.occupantsOk] using o) h

theorem enterFrom_inner (mouth : Side) (h : Inner s t) : Inner s (t.enterFrom mouth) := by
  unfold State.enterFrom
  split
  · exact alarm_inner _ _ h
  · exact advance_inner _ _ (fun _ _ => by simp [appendAtLeaf]; omega) h

theorem enterLeaf_inner (h : Inner s t) : Inner s t.enterLeaf := by
  unfold State.enterLeaf
  split
  · exact moveToLeaf_inner _ _ h
  · split
    · exact enterFrom_inner _ h
    · exact enterFrom_inner _ h
    · split
      · exact enterFrom_inner _ h
      · exact alarm_inner _ _ h
    · exact alarm_inner _ _ h

theorem complete_inner (p : Occupant → Bool) (h : Inner s t) : Inner s (t.complete p) := by
  unfold State.complete
  split
  · exact h
  · have h1 : Inner s (t.onPassage fun g => { g with occupants := dropFirst p g.occupants }) :=
      onPassage_inner _ (fun o => (dropFirst_sublist p _).length_le.trans o) h
    simp only
    split
    · exact settleLeaves_inner (removeCredit_inner _ h1)
    · exact settleClaim_inner h1

theorem settleLeafOne_inner (h : Inner s t) : Inner s t.settleLeafOne := by
  unfold State.settleLeafOne
  split
  · exact h
  · split
    · exact onPassage_inner _ (fun o => by simpa [Passage.occupantsOk] using o) h
    · split
      · exact onPassage_inner _ (fun o => by simpa [Passage.occupantsOk] using o) h
      · exact complete_inner _ h

theorem leaveMouthOne_inner (mouth : Side) (h : Inner s t) : Inner s (t.leaveMouthOne mouth) := by
  unfold State.leaveMouthOne
  split
  · exact h
  · split
    · exact moveToLeaf_inner _ _ h
    · exact complete_inner _ h

theorem enterMouth_inner (mouth : Side) (h : Inner s t) : Inner s (t.enterMouth mouth) := by
  unfold State.enterMouth
  split
  · exact onPassage_inner _ (fun o => by simpa [Passage.occupantsOk] using o) h
  · split
    · exact onPassage_inner _ (fun _ => by simp [Passage.occupantsOk]; omega) h
    · exact alarm_inner _ _ h

theorem forEachOccupant_inner (f : State → State) (hf : ∀ u, Inner s u → Inner s (f u)) (h : Inner s t) :
    Inner s (t.forEachOccupant f) := iterate_inner _ hf _ h

/-! ## Leaf fault and emergency -/

theorem leafFault_inner (travel : Travel) (h : Inner s t) : Inner s (t.leafFault travel) :=
  judgeGateReset_inner (raise_inner _ (append_inner _ (clearCredits_inner _ (onPassage_inner _ id h))))

theorem aisleEmergency_inner (h : Inner s t) : Inner s t.aisleEmergency := by
  unfold State.aisleEmergency
  have h1 := clearCredits_inner .emergency h
  simp only
  split
  · exact judgeWaiting_inner (travelTo_inner _ _ h1)
  · exact settleLeaves_inner h1

end Sys2Proof.Machine
end

