-- ==== Sys2Proof/Laws/Bytes.lean ====
section
/-! SUPPORT. Numbers as bytes and back (R190): what `be`, `ofBe` and `fieldAt` do to one another. -/

namespace Sys2Proof.Machine

@[simp] theorem be_length (k n : Nat) : (be k n).length = k := by
  induction k generalizing n with
  | zero => rfl
  | succ k ih => simp [be, ih]

theorem ofBe_snoc (bs : List Byte) (b : Byte) : ofBe (bs ++ [b]) = ofBe bs * 256 + b.toNat := by
  simp [ofBe]

theorem ofBe_be_mod (k n : Nat) : ofBe (be k n) = n % 256 ^ k := by
  induction k generalizing n with
  | zero => simp [be, ofBe, Nat.mod_one]
  | succ k ih =>
    have h1 : n % (256 ^ k * 256) / 256 = n / 256 % 256 ^ k := by
      rw [Nat.mul_comm, Nat.mod_mul_right_div_self]
    have h2 : n % (256 ^ k * 256) % 256 = n % 256 := Nat.mod_mul_left_mod n _ _
    have h3 := Nat.div_add_mod (n % (256 ^ k * 256)) 256
    rw [be, ofBe_snoc, ih, BitVec.toNat_ofNat, pow_succ 256 k, ← h1]
    omega

/-- Bytes spell the number they were made from (R190). -/
theorem ofBe_be {k n : Nat} (h : n < 256 ^ k) : ofBe (be k n) = n := by
  rw [ofBe_be_mod, Nat.mod_eq_of_lt h]

/-- A field stands where the bytes before it end. -/
theorem fieldAt_skip (xs bs : List Byte) (off len : Nat) :
    fieldAt (xs ++ bs) (xs.length + off) len = fieldAt bs off len := by
  simp [fieldAt, List.drop_append, List.drop_of_length_le]

theorem fieldAt_zero {k n : Nat} (bs : List Byte) (h : n < 256 ^ k) : fieldAt (be k n ++ bs) 0 k = n := by
  have e : (be k n ++ bs).take k = be k n := by
    rw [List.take_append_of_le_length (by simp), List.take_of_length_le (by simp)]
  rw [fieldAt, List.drop_zero, e, ofBe_be h]

theorem fieldAt_whole {k n : Nat} (h : n < 256 ^ k) : fieldAt (be k n) 0 k = n := by
  simpa using fieldAt_zero [] h

theorem fieldAt_past (k n : Nat) (bs : List Byte) (off len : Nat) :
    fieldAt (be k n ++ bs) (k + off) len = fieldAt bs off len := by
  simpa using fieldAt_skip (be k n) bs off len

/-- Two's complement read back (R190). -/
theorem ofSigned_signedBe (k : Nat) (n : Int) (h1 : -(256 ^ k : Nat) ≤ 2 * n) (h2 : 2 * n < (256 ^ k : Nat)) :
    ofSigned k (ofBe (signedBe k n)) = n := by
  have hp : (0 : Int) < (256 ^ k : Nat) := by positivity
  have hlt := Int.emod_lt_of_pos n hp
  have hge := Int.emod_nonneg n (ne_of_gt hp)
  have hb : (n % (256 ^ k : Nat)).toNat < 256 ^ k := by omega
  rw [signedBe, ofBe_be hb, ofSigned]
  rcases lt_or_ge n 0 with hn | hn
  · have e : n % (256 ^ k : Nat) = n + (256 ^ k : Nat) := by
      rw [← Int.add_emod_right, Int.emod_eq_of_lt (by omega) (by omega)]
    rw [e]
    split <;> omega
  · have e : n % (256 ^ k : Nat) = n := Int.emod_eq_of_lt hn (by omega)
    rw [e]
    split <;> omega

end Sys2Proof.Machine
end

