-- ==== Sys2Proof/Laws/Frames.lean ====
section
/-! SUPPORT. What the journal takes of the records offered to it, what the queueing of a frame does to link, journal and
replies, and what the end of a tap does to a drain: each said once (R112 to R114, R152 to R156, R167). -/

namespace Sys2Proof.Machine

variable {s t u : State}

/-! ## Records offered to the journal (R155, R156) -/

theorem takenFrom_append (level : Nat) (a b : List RecBody) (halted : Bool) (count : Nat) :
    takenFrom level halted count (a ++ b) =
      takenFrom level halted count a
        ++ takenFrom level
            (halted ||
              (!(takenFrom level halted count a).isEmpty &&
                decide (level ≤ count + (takenFrom level halted count a).length)))
            (count + (takenFrom level halted count a).length) b := by
  induction a generalizing halted count with
  | nil => simp [takenFrom]
  | cons x xs ih =>
    simp only [List.cons_append, takenFrom]
    split
    · exact ih halted count
    · rw [ih]
      generalize takenFrom level (halted || decide (level ≤ count + 1)) (count + 1) xs = taken
      have e1 : count + 1 + taken.length = count + (x :: taken).length := by simp; omega
      have e2 : (halted || decide (level ≤ count + 1) || (!taken.isEmpty && decide (level ≤ count + 1 + taken.length))) =
          (halted || (!(x :: taken).isEmpty && decide (level ≤ count + (x :: taken).length))) := by
        cases taken with
        | nil => cases halted <;> simp
        | cons y ys =>
          by_cases h : level ≤ count + 1
          · have : level ≤ count + (ys.length + 1 + 1) := by omega
            simp [h, this]
          · have e3 : count + 1 + (ys.length + 1) = count + (ys.length + 1 + 1) := by omega
            simp [h, e3]
      rw [e2, e1, List.cons_append]

/-- Nothing was offered. -/
theorem Journals.of_same (h : t.journal = s.journal) : Journals s t [] :=
  ⟨by simp [h, State.taken, takenFrom, Journal.grownBy, numbered], by simp [h, State.taken, takenFrom]⟩

theorem Journals.length (h : Journals s t xs) :
    t.journal.records.length = s.journal.records.length + (s.taken xs).length := by
  rw [h.grown.1]
  simp

/-- Records offered in two parts. -/
theorem Journals.append {a b : List RecBody} (h1 : Journals s t a) (h2 : Journals t u b) (ht : t.time = s.time)
    (hp : t.service.params = s.service.params) : Journals s u (a ++ b) := by
  have e : s.taken (a ++ b) = s.taken a ++ t.taken b := by
    simp only [State.taken]
    rw [takenFrom_append, hp, h1.halted, h1.length]
    rfl
  have grown : s.journal.grownBy u.journal s.time.now (s.taken (a ++ b)) := by
    refine ⟨?_, ?_⟩
    · rw [h2.grown.1, h1.grown.1, h1.grown.2, e, numbered_append, List.append_assoc, ht]
    · rw [h2.grown.2, h1.grown.2, e]
      simp [Nat.add_assoc]
  refine ⟨grown, ?_⟩
  have hu := h2.halted
  rw [h1.halted, hp] at hu
  have hl := h1.length
  have hl2 := h2.length
  rw [hu, e]
  cases hb : t.taken b with
  | nil =>
    rw [hb] at hl2
    simp only [List.length_nil, Nat.add_zero] at hl2
    simp [hl2]
  | cons y ys =>
    rw [hb] at hl2
    simp only [List.length_cons] at hl2
    by_cases h : s.service.params.haltLevel ≤ t.journal.records.length
    · have h' : s.service.params.haltLevel ≤ u.journal.records.length := by omega
      simp [h, h']
    · have e2 : (s.taken a ++ y :: ys).isEmpty = false := by cases s.taken a <;> rfl
      simp [h, e2]

/-- One record is offered by an append. -/
theorem Journals.of_append (s : State) (b : RecBody) : Journals s (s.append b) [b] := by
  by_cases h : (s.journal.halted && b.kind.cls == .event) = true
  · have e : s.taken [b] = [] := by
      simp only [Bool.and_eq_true, beq_iff_eq] at h
      simp [State.taken, takenFrom, h]
    rw [State.append_skipped _ _ h]
    exact ⟨by simp [e, Journal.grownBy, numbered], by simp [e]⟩
  · have h' : (s.journal.halted && b.kind.cls == .event) = false := by simpa using h
    have e : s.taken [b] = [b] := by
      simp only [Bool.and_eq_true, beq_iff_eq] at h
      simp [State.taken, takenFrom, h]
    refine ⟨by rw [e]; exact State.append_records _ _ h', ?_⟩
    rw [e]
    unfold State.append State.judgeHalt State.judgeLevel
    rw [if_neg h]
    split_ifs with h1 h2 h2 <;> simp_all [Journal.push]
    all_goals
      intro hx
      by_contra hh
      have := h2 (by simpa using hh)
      omega

/-- The journal sees nothing of what leaves it, the counter and the parameters alone. -/
theorem Journals.congr {xs : List RecBody} (h : Journals s t xs) (hs : u.journal = t.journal) : Journals s u xs :=
  ⟨by rw [hs]; exact h.grown, by rw [hs]; exact h.halted⟩

/-! ## Lists -/

theorem dropFirst_eq_eraseP {α : Type} (p : α → Bool) (xs : List α) : dropFirst p xs = xs.eraseP p := by
  induction xs with
  | nil => rfl
  | cons x xs ih => by_cases h : p x = true <;> simp [dropFirst, h, ih]

theorem changeFirst_eq_modify {α : Type} (p : α → Bool) (f : α → α) (xs : List α) :
    changeFirst p f xs = xs.modify (xs.findIdx p) f := by
  induction xs with
  | nil => rfl
  | cons x xs ih => by_cases h : p x = true <;> simp [changeFirst, h, ih, List.findIdx_cons]

/-! ## What a queued frame does (R112 to R114) -/

/-- Nothing but link, journal, replies and notices has changed: these frames were queued, the records were offered to
the journal, and the replies are those that the drops formed. -/
structure Queued (s t : State) (ms : List LinkMsg) (records : List RecBody) : Prop where
  rest : t = { s with link := t.link, journal := t.journal, host := t.host }
  link : t.link = s.link.withFrames ms
  formed : t.formed = s.formed ++ s.syncAnswers ms
  records : Journals s t records
  host : t.host = { s.host with replies := t.host.replies, notices := t.host.notices }
  told : ∀ k, s.tells k = true → t.tells k = true

theorem Link.withFrames_append (l : Link) (a b : List LinkMsg) : l.withFrames (a ++ b) = (l.withFrames a).withFrames b :=
  List.foldl_append

theorem Link.dropReplies_append (l : Link) (a b : List LinkMsg) :
    l.dropReplies (a ++ b) = l.dropReplies a ++ (l.withFrames a).dropReplies b := by
  induction a generalizing l with
  | nil => rfl
  | cons m ms ih => simp [Link.dropReplies, ih, Link.withFrames]

theorem Link.dropRecords_append (l : Link) (a b : List LinkMsg) :
    l.dropRecords (a ++ b) = l.dropRecords a ++ (l.withFrames a).dropRecords b := by
  induction a generalizing l with
  | nil => rfl
  | cons m ms ih => simp [Link.dropRecords, ih, Link.withFrames]

theorem Queued.refl (s : State) : Queued s s [] [] :=
  ⟨rfl, rfl, by simp [State.syncAnswers, Link.dropReplies], Journals.of_same rfl, rfl, fun _ h => h⟩

theorem Queued.trans {a b : List LinkMsg} {xs ys : List RecBody} (h1 : Queued s t a xs) (h2 : Queued t u b ys) :
    Queued s u (a ++ b) (xs ++ ys) where
  rest := by rw [h2.rest, h1.rest]
  link := by rw [h2.link, h1.link, Link.withFrames_append]
  formed := by
    have hr : t.host.resetTaken = s.host.resetTaken := by rw [h1.host]
    rw [h2.formed, h1.formed, List.append_assoc]
    congr 1
    simp only [State.syncAnswers, hr, h1.link, Link.dropReplies_append]
    split <;> simp
  records := h1.records.append h2.records (by rw [h1.rest]) (by rw [h1.rest])
  host := by rw [h2.host, h1.host]
  told := fun k h => h2.told k (h1.told k h)

theorem HostLink.eq_of_rest {h k : HostLink} (h1 : k.speed = h.speed) (h2 : k.rxInFrame = h.rxInFrame)
    (h3 : k.window = h.window) (h4 : k.tx = h.tx) (h5 : k.tapU = h.tapU) (h6 : k.tapP = h.tapP)
    (h7 : k.finding = h.finding) (h8 : k.findings = h.findings) (h9 : k.resetTaken = h.resetTaken) :
    k = { h with replies := k.replies, notices := k.notices } := by
  cases h
  cases k
  simp_all

/-- An append is one of these, with no frame. -/
theorem Queued.of_append (s : State) (b : RecBody) : Queued s (s.append b) [] [b] where
  rest := by
    unfold State.append State.judgeHalt State.judgeLevel
    split_ifs <;> rfl
  link := by simp [Link.withFrames]
  formed := by simp [State.syncAnswers, Link.dropReplies]
  records := Journals.of_append s b
  host := HostLink.eq_of_rest (by simp) (by simp) (by simp) (by simp) (by simp) (by simp) (by simp) (by simp) (by simp)
  told := fun k h => State.tells_append s k b h

/-! ### SYNC_LINEs that are over -/

/-- The SYNC_LINEs of a list that are over leave the link. -/
def Link.withoutOverOf (l : Link) (ys : List Sync) : Link :=
  { l with
    syncs := l.syncs.filter fun z => !ys.any fun y => y.tag == z.tag && l.syncOver y,
    queue := l.queue.map fun q =>
      { q with marks := q.marks.filter fun a => !ys.any fun y => y.tag == a && l.syncOver y } }

theorem Link.syncOver_tag (l : Link) {y z : Sync} (h : y.tag = z.tag) : l.syncOver y = l.syncOver z := by
  simp [Link.syncOver, h]

theorem Link.withoutOverOf_self (l : Link) : l.withoutOverOf l.syncs = l.withoutOver := by
  unfold Link.withoutOverOf Link.withoutOver
  congr 1
  refine List.filter_congr fun z hz => ?_
  congr 1
  rw [Bool.eq_iff_iff]
  simp only [List.any_eq_true, Bool.and_eq_true, beq_iff_eq]
  exact ⟨fun ⟨y, _, h, ho⟩ => l.syncOver_tag h ▸ ho, fun h => ⟨z, hz, rfl, h⟩⟩

/-- A judging of one SYNC_LINE, with no regard to the reply. -/
def Link.judged (l : Link) (y : Sync) : Link := if l.syncOver y = true then l.withoutOverOf [y] else l

theorem Link.judged_over (l : Link) (y z : Sync) : (l.judged y).syncOver z = l.syncOver z := by
  unfold Link.judged
  split
  · rename_i h
    by_cases hoff : l.state.isOffline = true
    · simp [Link.syncOver, Link.withoutOverOf, hoff]
    · have hoff : l.state.isOffline = false := by simpa using hoff
      by_cases ht : z.tag = y.tag
      · have h1 := h
        rw [l.syncOver_tag (y := y) (z := z) ht.symm] at h1
        rw [h1]
        have e : (l.withoutOverOf [y]).state.isOffline = false := hoff
        simp only [Link.syncOver, hoff, e, Bool.false_or, Bool.not_eq_true', List.any_eq_false] at h1 ⊢
        intro q hq
        simp only [Link.withoutOverOf, List.mem_map] at hq
        obtain ⟨q', hq', rfl⟩ := hq
        have := h1 q' hq'
        simp only [List.contains_iff_mem, List.mem_filter] at this ⊢
        exact fun hm => this hm.1
      · simp only [Link.syncOver, hoff, Bool.false_or, Link.withoutOverOf]
        congr 1
        rw [List.any_map]
        congr 1
        funext q
        simp only [Function.comp, List.contains_eq_mem, List.mem_filter, List.any_cons, List.any_nil, Bool.or_false]
        have : (y.tag == z.tag) = false := by simpa using fun e => ht e.symm
        simp [this]
  · rfl

theorem Link.judged_withoutOverOf (l : Link) (y : Sync) (ys : List Sync) :
    (l.judged y).withoutOverOf ys = l.withoutOverOf (y :: ys) := by
  have same : ∀ z, (l.judged y).syncOver z = l.syncOver z := l.judged_over y
  unfold Link.withoutOverOf
  simp only [same]
  by_cases h : l.syncOver y = true
  · simp only [Link.judged, h, if_true, Link.withoutOverOf, List.filter_filter, List.map_map, List.any_cons,
      List.any_nil, Bool.or_false, Bool.and_true, Bool.not_or, Function.comp_def]
    congr 1
    · refine List.map_congr_left fun q _ => ?_
      congr 1
      refine List.filter_congr fun z _ => ?_
      rw [Bool.and_comm]
    · refine List.filter_congr fun z _ => ?_
      rw [Bool.and_comm]
  · have h : l.syncOver y = false := by simpa using h
    simp [Link.judged, h]

theorem judgeSync_eq (s : State) (y : Sync) :
    s.judgeSync y =
      if s.link.syncOver y = true then
        ({ s with link := s.link.judged y } : State).reply y.tag .syncLine
          (if s.link.state.isOffline = true then .offline else .synced y.dropped)
      else s := by
  unfold State.judgeSync Link.syncReply
  by_cases hoff : s.link.state.isOffline = true
  · have ho : s.link.syncOver y = true := by simp [Link.syncOver, hoff]
    simp only [hoff, ho, if_true, Link.judged, Link.withoutOverOf, State.onLink, List.any_cons, List.any_nil,
      Bool.or_false, Bool.and_true]
    congr 2
    · congr 1
      · refine List.map_congr_left fun q _ => ?_
        congr 1
        refine List.filter_congr fun z _ => ?_
        rw [bne, Bool.beq_comm]
      · refine List.filter_congr fun z _ => ?_
        rw [bne, Bool.beq_comm]
  · have hoff : s.link.state.isOffline = false := by simpa using hoff
    by_cases hm : (s.link.queue.any fun q => q.marks.contains y.tag) = true
    · have ho : s.link.syncOver y = false := by simp only [Link.syncOver, hoff, hm]; rfl
      simp only [hoff, hm, ho, Bool.false_eq_true, if_true, if_false]
    · have hm : (s.link.queue.any fun q => q.marks.contains y.tag) = false := by simpa using hm
      have ho : s.link.syncOver y = true := by simp only [Link.syncOver, hoff, hm]; rfl
      simp only [hoff, hm, ho, Bool.false_eq_true, if_true, if_false, Link.judged, Link.withoutOverOf, State.onLink,
        List.any_cons, List.any_nil, Bool.or_false, Bool.and_true]
      congr 2
      · congr 1
        · refine List.map_congr_left fun q _ => ?_
          congr 1
          refine List.filter_congr fun z _ => ?_
          rw [bne, Bool.beq_comm]
        · refine List.filter_congr fun z _ => ?_
          rw [bne, Bool.beq_comm]

/-- What the judging of one SYNC_LINE after another does (R114). -/
theorem foldl_judgeSync (ys : List Sync) (s : State) :
    let t := ys.foldl State.judgeSync s
    t = { s with link := t.link, host := t.host } ∧ t.link = s.link.withoutOverOf ys ∧
      t.host = { s.host with replies := t.host.replies } ∧
      t.formed =
        s.formed
          ++ if s.host.resetTaken = true then []
            else
              (ys.filter s.link.syncOver).map fun y =>
                Reply.inWindow y.tag .syncLine (if s.link.state.isOffline = true then .offline else .synced y.dropped) := by
  induction ys generalizing s with
  | nil =>
    refine ⟨rfl, ?_, rfl, by simp⟩
    simp [Link.withoutOverOf]
  | cons y ys ih =>
    simp only [List.foldl_cons]
    obtain ⟨h1, h2, h3, h4⟩ := ih (s.judgeSync y)
    have e := judgeSync_eq s y
    have elink : (s.judgeSync y).link = s.link.judged y := by
      rw [e]
      split
      · simp
      · rename_i h
        simp [Link.judged, h]
    have erest : s.judgeSync y = { s with link := (s.judgeSync y).link, host := (s.judgeSync y).host } := by
      rw [e]
      split
      · unfold State.reply
        split <;> rfl
      · rfl
    have ehost : (s.judgeSync y).host = { s.host with replies := (s.judgeSync y).host.replies } := by
      rw [e]
      split
      · unfold State.reply
        split <;> rfl
      · rfl
    have estate : (s.link.judged y).state = s.link.state := by
      unfold Link.judged
      split <;> rfl
    have efun : (s.link.judged y).syncOver = s.link.syncOver := funext (s.link.judged_over y)
    refine ⟨by rw [h1, erest], by rw [h2, elink, Link.judged_withoutOverOf], by rw [h3, ehost], ?_⟩
    have er : (s.judgeSync y).host.resetTaken = s.host.resetTaken := by rw [ehost]
    rw [h4, er, elink, estate, efun]
    by_cases hr : s.host.resetTaken = true
    · simp only [hr, if_true, List.append_nil]
      rw [e]
      split
      · simp [State.reply, hr, State.formed]
      · rfl
    · have hr : s.host.resetTaken = false := by simpa using hr
      by_cases ho : s.link.syncOver y = true
      · have ef : (s.judgeSync y).formed =
            s.formed ++ [Reply.inWindow y.tag .syncLine
              (if s.link.state.isOffline = true then .offline else .synced y.dropped)] := by
          rw [e, if_pos ho, State.reply_formed _ _ _ _ (by exact hr)]
          rfl
        rw [ef]
        simp [hr, ho]
      · have ef : (s.judgeSync y).formed = s.formed := by rw [e, if_neg ho]
        rw [ef]
        simp [hr, ho]

/-- The judging of every outstanding SYNC_LINE (R114). -/
theorem judgeSyncs_spec (s : State) :
    s.judgeSyncs = { s with link := s.link.withoutOver, host := s.judgeSyncs.host } ∧
      s.judgeSyncs.host = { s.host with replies := s.judgeSyncs.host.replies } ∧
      s.judgeSyncs.formed = s.formed ++ if s.host.resetTaken = true then [] else s.link.syncReplies := by
  obtain ⟨h1, h2, h3, h4⟩ := foldl_judgeSync s.link.syncs s
  rw [Link.withoutOverOf_self] at h2
  refine ⟨?_, h3, h4⟩
  unfold State.judgeSyncs
  rw [← h2]
  exact h1

/-! ### The queueing of a frame -/

/-- Room for a new frame that finds none of its kind and card (R113). -/
theorem makeRoom_spec (m : LinkMsg) (hm : s.link.queue.any (QItem.matches m) = false) :
    s.makeRoom = { s with link := s.makeRoom.link, journal := s.makeRoom.journal, host := s.makeRoom.host } ∧
      s.makeRoom.link = (s.link.drivenOut m).elim s.link (fun q => (s.link.without q).withoutOver) ∧
      s.makeRoom.formed = s.formed ++ s.syncAnswers [m] ∧
      Journals s s.makeRoom (s.link.dropRecords [m]) ∧
      s.makeRoom.host = { s.host with replies := s.makeRoom.host.replies, notices := s.makeRoom.host.notices } ∧
      ∀ k, s.tells k = true → s.makeRoom.tells k = true := by
  have none_ : s.link.drivenOut m = none → s.makeRoom = s →
      s.makeRoom = { s with link := s.makeRoom.link, journal := s.makeRoom.journal, host := s.makeRoom.host } ∧
      s.makeRoom.link = (s.link.drivenOut m).elim s.link (fun q => (s.link.without q).withoutOver) ∧
      s.makeRoom.formed = s.formed ++ s.syncAnswers [m] ∧
      Journals s s.makeRoom (s.link.dropRecords [m]) ∧
      s.makeRoom.host = { s.host with replies := s.makeRoom.host.replies, notices := s.makeRoom.host.notices } ∧
      ∀ k, s.tells k = true → s.makeRoom.tells k = true := by
    intro hd e
    rw [e]
    refine ⟨rfl, by simp [hd], ?_, ?_, rfl, fun _ h => h⟩
    · simp [State.syncAnswers, Link.dropReplies, hd]
    · simp only [Link.dropRecords, hd, Option.toList_none, List.map_nil, List.append_nil]
      exact Journals.of_same rfl
  by_cases hfull : Config.queueCap ≤ s.link.queue.length
  · have hcap : ¬s.link.queue.length < 64 := by simpa [Config.queueCap] using hfull
    cases hf : s.link.queue.find? fun q => !q.inTx with
    | none => exact none_ (by simp [Link.drivenOut, hm, hcap, hf]) (by simp only [State.makeRoom, if_pos hfull, hf])
    | some q =>
      have hd : s.link.drivenOut m = some q := by simp [Link.drivenOut, hm, hcap, hf]
      let a : State := { s with link := s.link.without q }
      let b : RecBody := { kind := .shareDropped, card := some q.msg.card, reason := some (.dropped q.msg.kind) }
      have e : s.makeRoom = (a.append b).judgeSyncs := by
        simp only [State.makeRoom, if_pos hfull, hf, a, b, State.onLink, Link.without, countDropped,
          dropFirst_eq_eraseP]
      have q1 := Queued.of_append a b
      obtain ⟨j1, j2, j3⟩ := judgeSyncs_spec (a.append b)
      have el : (a.append b).link = s.link.without q := by simp [a]
      have er : (a.append b).host.resetTaken = s.host.resetTaken := by simp [a]
      rw [e]
      refine ⟨?_, ?_, ?_, ?_, ?_, ?_⟩
      · rw [j1, q1.rest]
      · rw [j1, el]
        simp [hd]
      · rw [j3, er, el, State.append_formed]
        simp only [State.syncAnswers, Link.dropReplies, hd, Option.toList_some, List.flatMap_cons, List.flatMap_nil,
          List.append_nil]
        rfl
      · have hj : Journals s (a.append b) [b] := ⟨q1.records.grown, q1.records.halted⟩
        have : s.link.dropRecords [m] = [b] := by simp [Link.dropRecords, hd, b]
        rw [this]
        exact hj.congr (by rw [j1])
      · rw [j2, q1.host]
      · intro k hk
        have h1 : (a.append b).tells k = true := State.tells_append a k b hk
        rw [State.tells, j2]
        exact h1
  · have hcap : s.link.queue.length < 64 := by simpa [Config.queueCap] using hfull
    exact none_ (by simp [Link.drivenOut, hcap]) (by simp only [State.makeRoom, if_neg hfull])

/-- All that the queueing of a frame does (R112 to R114). -/
theorem enqueue_queued (s : State) (m : LinkMsg) : Queued s (s.enqueue m) [m] (s.link.dropRecords [m]) := by
  unfold State.enqueue
  by_cases hm : s.link.queue.any (QItem.matches m) = true
  · have hd : s.link.drivenOut m = none := by simp [Link.drivenOut, hm]
    have hr : s.link.dropRecords [m] = [] := by simp [Link.dropRecords, hd]
    have ha : s.syncAnswers [m] = [] := by simp [State.syncAnswers, Link.dropReplies, hd]
    have replaced : m.kind ≠ .denyAdd → Queued s
        (s.onLink fun l =>
          { l with queue := changeFirst (QItem.matches m) (fun q => { q with msg := m }) l.queue }) [m] [] := by
      intro hk
      refine ⟨rfl, ?_, by simp [ha, State.formed], Journals.of_same rfl, rfl, fun _ h => h⟩
      simp [Link.withFrames, Link.withFrame, hm, hk, changeFirst_eq_modify]
    rw [if_pos hm, hr]
    cases hk : m.kind with
    | denyAdd =>
      refine ⟨rfl, ?_, by simp [ha], Journals.of_same rfl, rfl, fun _ h => h⟩
      simp [Link.withFrames, Link.withFrame, hm, hk]
    | sighting => exact replaced (by simp [hk])
    | lapse => exact replaced (by simp [hk])
    | regrant => exact replaced (by simp [hk])
  · have hm : s.link.queue.any (QItem.matches m) = false := by simpa using hm
    obtain ⟨h1, h2, h3, h4, h5, h6⟩ := makeRoom_spec m hm
    rw [if_neg (by simp [hm])]
    unfold State.join
    refine ⟨?_, ?_, h3, h4.congr rfl, h5, h6⟩
    · simp only [State.onLink]
      conv_lhs => rw [h1]
    · simp [Link.withFrames, Link.withFrame, hm, h2]

/-! ## The drain (R167) -/

theorem foldl_reply_suspend (body : ReplyBody) (tags : List Byte) (s : State) :
    let t := tags.foldl (fun t tag => t.reply tag .suspend body) s
    t = { s with host := t.host } ∧ t.host = { s.host with replies := t.host.replies } ∧
      t.formed =
        s.formed ++ if s.host.resetTaken = true then [] else tags.map fun tag => Reply.inWindow tag .suspend body := by
  induction tags generalizing s with
  | nil => exact ⟨rfl, rfl, by simp⟩
  | cons a rest ih =>
    obtain ⟨h1, h2, h3⟩ := ih (s.reply a .suspend body)
    simp only [List.foldl_cons]
    have e1 : s.reply a .suspend body = { s with host := (s.reply a .suspend body).host } := by
      unfold State.reply
      split <;> rfl
    have e2 : (s.reply a .suspend body).host = { s.host with replies := (s.reply a .suspend body).host.replies } := by
      unfold State.reply
      split <;> rfl
    refine ⟨by rw [h1, e1], by rw [h2, e2], ?_⟩
    rw [h3, State.reply_host_resetTaken]
    by_cases hr : s.host.resetTaken = true
    · simp [hr, State.reply, State.formed]
    · have hr : s.host.resetTaken = false := by simpa using hr
      rw [State.reply_formed _ _ _ _ hr]
      simp [hr, Reply.inWindow]

/-- All that the end of a side's tap does to a drain: `t` is the part with that port idle (R167). -/
theorem judgeDrain_spec (side : Side) (hidle : (t.port side).ctx = none) :
    t.judgeDrain = { t with service := t.judgeDrain.service, host := t.judgeDrain.host } ∧
      t.judgeDrain.service = t.drained side ∧ t.judgeDrain.formed = t.formed ++ t.drainAnswers side ∧
      (∀ k, t.judgeDrain.tells k = (t.tells k || (t.drains side && k == .serviceState))) ∧
      t.judgeDrain.host =
        { t.host with replies := t.judgeDrain.host.replies, notices := t.judgeDrain.host.notices } := by
  have eq : (t.service.state == .suspending && t.portsIdle) = t.drains side := by
    unfold State.drains State.portsIdle
    cases side <;> simp_all [State.port, otherSide]
  unfold State.judgeDrain
  rw [eq]
  by_cases hd : t.drains side = true
  · rw [if_pos hd]
    let u : State := (t.onService fun v => { v with state := .suspended }).raise .serviceState
    obtain ⟨h1, h2, h3⟩ := foldl_reply_suspend (.serviceState .suspended) t.service.suspends u
    have es : u.service.suspends = t.service.suspends := rfl
    have hhost : u.host = { t.host with replies := u.host.replies, notices := u.host.notices } :=
      HostLink.eq_of_rest (by simp [u]) (by simp [u]) (by simp [u]) (by simp [u]) (by simp [u]) (by simp [u])
        (by simp [u]) (by simp [u]) (by simp [u])
    have eans : u.answerSuspends (.serviceState .suspended) =
        (t.service.suspends.foldl (fun t tag => t.reply tag .suspend (.serviceState .suspended)) u).onService
          fun v => { v with suspends := [] } := rfl
    rw [show ((t.onService fun v => { v with state := .suspended }).raise .serviceState).answerSuspends
        (.serviceState .suspended) = _ from eans]
    generalize hw : t.service.suspends.foldl (fun t tag => t.reply tag .suspend (.serviceState .suspended)) u = w at h1 h2 h3 ⊢
    refine ⟨?_, ?_, ?_, ?_, ?_⟩
    · rw [h1]
      rfl
    · rw [h1]
      simp [State.drained, hd, u]
    · have er : u.host.resetTaken = t.host.resetTaken := by rw [hhost]
      show w.formed = _
      rw [h3, er]
      simp only [u, State.raise_formed, State.drainAnswers, hd, true_and]
      by_cases hr : t.host.resetTaken = true
      · simp [hr, State.formed]
      · have hr : t.host.resetTaken = false := by simpa using hr
        simp [hr, State.formed]
    · intro k
      have e1 : w.host.notices = u.host.notices := by rw [h2]
      have e2 : w.host.tx = u.host.tx := by rw [h2]
      have e : w.tells k = u.tells k := by unfold State.tells; rw [e1, e2]
      show w.tells k = _
      rw [e, State.raise_tells_eq, hd, Bool.true_and]
      rfl
    · exact HostLink.eq_of_rest (k := w.host) (by rw [h2, hhost]) (by rw [h2, hhost]) (by rw [h2, hhost])
        (by rw [h2, hhost]) (by rw [h2, hhost]) (by rw [h2, hhost]) (by rw [h2, hhost]) (by rw [h2, hhost])
        (by rw [h2, hhost])
  · have hd : t.drains side = false := by simpa using hd
    rw [if_neg (by simp [hd])]
    refine ⟨rfl, by simp [State.drained, hd], by simp [State.drainAnswers, hd], by simp [hd], rfl⟩

end Sys2Proof.Machine
end

