-- ==== Sys2Proof/Laws/Entries.lean ====
section
/-! SUPPORT. What the course of a sighting entry does to table, link, journal and findings, each said once: a held
update, a set-back, a conversion to IN_DOUBT, a commit, a lapse request (R85 to R89, R92, R93). -/

namespace Sys2Proof.Machine

variable {s t u : State}

/-! ## One entry of the table -/

theorem Screening.sighted_replace (c : Screening) (e : Sighting) (order : Nat) (o : CardNo) :
    ({ c with sightings := replaceSighting e c.sightings, order := order } : Screening).sighted o =
      (c.sighted o).map fun x => if x.card = e.card then e else x := by
  show (List.map _ _).find? _ = _
  rw [List.find?_map]
  congr 2
  funext x
  simp only [Function.comp]
  split
  · rename_i h
    rw [h]
  · rfl

theorem Screening.sighted_remove (c : Screening) (card o : CardNo) :
    ({ c with sightings := removeSighting card c.sightings } : Screening).sighted o =
      if o = card then none else c.sighted o := by
  show (List.filter _ _).find? _ = _
  rw [List.find?_filter]
  split
  · rename_i h
    subst h
    rw [List.find?_eq_none]
    intro x _
    simp
  · rename_i h
    congr 1
    funext x
    by_cases hx : x.card = o
    · simp [hx, h]
    · simp [hx]

theorem putSighting_sighted (e : Sighting) (s : State) (o : CardNo) :
    (s.putSighting e).screening.sighted o =
      (s.screening.sighted o).map fun x => if x.card = e.card then e else x :=
  s.screening.sighted_replace e _ o

theorem touchSighting_sighted (e : Sighting) (s : State) (o : CardNo) :
    (s.touchSighting e).screening.sighted o =
      (s.screening.sighted o).map fun x =>
        if x.card = e.card then { e with updated := s.time.now, touched := s.screening.order } else x :=
  s.screening.sighted_replace { e with updated := s.time.now, touched := s.screening.order } _ o

theorem dropSighting_sighted_eq (card : CardNo) (s : State) (o : CardNo) :
    (s.dropSighting card).screening.sighted o = if o = card then none else s.screening.sighted o :=
  s.screening.sighted_remove card o

theorem sighted_map_self {c : Screening} {o : CardNo} {f : Sighting → Sighting}
    (h : ∀ x, x.card = o → f x = x) : (c.sighted o).map f = c.sighted o := by
  cases hx : c.sighted o with
  | none => rfl
  | some x => rw [Option.map_some, h x (Screening.sighted_some hx).2]

theorem touchSighting_other (e : Sighting) (s : State) {o : CardNo} (h : o ≠ e.card) :
    (s.touchSighting e).screening.sighted o = s.screening.sighted o := by
  rw [touchSighting_sighted]
  exact sighted_map_self fun x hx => if_neg (by rw [hx]; exact h)

theorem touchSighting_self {e x : Sighting} {s : State} (h : s.screening.sighted e.card = some x) :
    (s.touchSighting e).screening.sighted e.card =
      some { e with updated := s.time.now, touched := s.screening.order } := by
  rw [touchSighting_sighted, h]
  simp [(Screening.sighted_some h).2]

theorem putSighting_other (e : Sighting) (s : State) {o : CardNo} (h : o ≠ e.card) :
    (s.putSighting e).screening.sighted o = s.screening.sighted o := by
  rw [putSighting_sighted]
  exact sighted_map_self fun x hx => if_neg (by rw [hx]; exact h)

theorem putSighting_self {e x : Sighting} {s : State} (h : s.screening.sighted e.card = some x) :
    (s.putSighting e).screening.sighted e.card = some e := by
  rw [putSighting_sighted, h]
  simp [(Screening.sighted_some h).2]

theorem insertSighting_sighted (card : CardNo) (baseline : SImage) (st : SightState) (s : State)
    (hn : s.screening.sighted card = none) (hl : s.screening.sightings.length < 1024) (o : CardNo) :
    (s.insertSighting card baseline st).screening.sighted o =
      if o = card then
        some { card := card, baseline := baseline, state := st, updated := s.time.now, touched := s.screening.order }
      else s.screening.sighted o := by
  have he : evict s.screening.sightings = s.screening.sightings := by
    unfold evict
    rw [if_neg (by simp only [Config.sightingCap]; omega)]
  show (evict s.screening.sightings ++ [_]).find? _ = _
  rw [he, List.find?_append]
  split
  · rename_i h
    subst h
    have : s.screening.sightings.find? (fun e => e.card == o) = none := hn
    rw [this]
    simp
  · rename_i h
    have h' : (card == o) = false := by simpa using fun e => h e.symm
    simp [h', Screening.sighted]

theorem insertSighting_self (card : CardNo) (baseline : SImage) (st : SightState) (s : State)
    (hn : s.screening.sighted card = none) :
    (s.insertSighting card baseline st).screening.sighted card =
      some { card := card, baseline := baseline, state := st, updated := s.time.now, touched := s.screening.order } := by
  show (evict s.screening.sightings ++ [_]).find? _ = _
  have : (evict s.screening.sightings).find? (fun e => e.card == card) = none :=
    List.find?_eq_none.2 fun x hx => by simpa using Screening.sighted_none hn x ((evict_sublist _).subset hx)
  rw [List.find?_append, this]
  simp

theorem removeSighting_length {c : Screening} {card : CardNo} {e : Sighting} (h : c.sighted card = some e) :
    (removeSighting card c.sightings).length < c.sightings.length := by
  obtain ⟨h1, h2⟩ := Screening.sighted_some h
  exact List.length_filter_lt_length_iff_exists.2 ⟨e, h1, by simp [h2]⟩

/-! ## What changes beside the table -/

/-- Nothing but Screening Unit, link, journal and host link has changed: these frames were queued, these records offered
to the journal, and of the host link only replies, notices and findings are others. -/
structure Screened (s t : State) (ms : List LinkMsg) (records : List RecBody) : Prop where
  rest : t = { s with screening := t.screening, link := t.link, journal := t.journal, host := t.host }
  link : t.link = s.link.withFrames ms
  formed : t.formed = s.formed ++ s.syncAnswers ms
  records : Journals s t records
  host : t.host =
    { s.host with
      replies := t.host.replies, notices := t.host.notices, finding := t.host.finding, findings := t.host.findings }
  told : ∀ k, s.tells k = true → t.tells k = true

theorem Screened.refl (s : State) : Screened s s [] [] :=
  ⟨rfl, rfl, by simp [State.syncAnswers, Link.dropReplies], Journals.of_same rfl, rfl, fun _ h => h⟩

theorem Screened.of_queued {ms : List LinkMsg} {xs : List RecBody} (h : Queued s t ms xs) : Screened s t ms xs :=
  ⟨by rw [h.rest], h.link, h.formed, h.records, by rw [h.host], h.told⟩

theorem Screened.trans {a b : List LinkMsg} {xs ys : List RecBody} (h1 : Screened s t a xs) (h2 : Screened t u b ys) :
    Screened s u (a ++ b) (xs ++ ys) where
  rest := by rw [h2.rest, h1.rest]
  link := by rw [h2.link, h1.link, Link.withFrames_append]
  formed := by
    have hr : t.host.resetTaken = s.host.resetTaken := by rw [h1.host]
    rw [h2.formed, h1.formed, List.append_assoc]
    congr 1
    simp only [State.syncAnswers, hr, h1.link, Link.dropReplies_append]
    split <;> simp
  records := h1.records.append h2.records (by rw [h1.rest]) (by rw [h1.rest])
  host := by rw [h2.host, h1.host]
  told := fun k h => h2.told k (h1.told k h)

theorem Screened.of_screening (s : State) (f : Screening → Screening) : Screened s (s.onScreening f) [] [] :=
  ⟨rfl, rfl, by simp [State.syncAnswers, Link.dropReplies, State.formed], Journals.of_same rfl, rfl, fun _ h => h⟩

theorem Screened.of_enqueue (s : State) (m : LinkMsg) : Screened s (s.enqueue m) [m] (s.link.dropRecords [m]) :=
  Screened.of_queued (enqueue_queued s m)

theorem Screened.of_append (s : State) (b : RecBody) : Screened s (s.append b) [] [b] :=
  Screened.of_queued (Queued.of_append s b)

theorem noteFinding_rest (s : State) (card : CardNo) (kind : FindingKind) :
    s.noteFinding card kind = { s with host := (s.noteFinding card kind).host } := rfl

theorem noteFinding_host (s : State) (card : CardNo) (kind : FindingKind) :
    (s.noteFinding card kind).host =
      { s.host with
        notices := (s.noteFinding card kind).host.notices, finding := some { card := card, kind := kind },
        findings := min 65535 (s.host.findings + 1) } := by
  by_cases h : NoticeKind.cloneDetected ∈ s.host.notices <;> simp [State.noteFinding, State.raise, HostLink.raise, h]

theorem noteFinding_told (s : State) (card : CardNo) (kind : FindingKind) :
    (s.noteFinding card kind).tells .cloneDetected = true := State.raise_tells _ _

theorem Screened.of_noteFinding (s : State) (card : CardNo) (kind : FindingKind) :
    Screened s (s.noteFinding card kind) [] [] where
  rest := rfl
  link := rfl
  formed := by
    have h := noteFinding_host s card kind
    simp only [State.syncAnswers, Link.dropReplies, ite_self, List.append_nil, State.formed]
    rw [h]
  records := Journals.of_same rfl
  host := by rw [noteFinding_host]
  told := fun k h => State.tells_raise _ _ _ h

/-! ## Findings (R74, R83, R92, R188) -/

theorem denied_insert (e : DenyEntry) (xs : List DenyEntry) (c : Screening) (order : Nat) :
    (({ c with deny := insertDeny e xs, order := order } : Screening).denied e.card).isSome = true := by
  have : e ∈ insertDeny e xs := (insertDeny_perm e xs).mem_iff.2 (List.mem_cons_self ..)
  simp only [Screening.denied, List.find?_isSome]
  exact ⟨e, this, by simp⟩

/-- A card is denied after a finding wherever it can be held (R74). -/
theorem denyFinding_listed (card : CardNo) (origin : DenyOrigin) (s : State)
    (h : (s.screening.denied card).isSome = true ∨ s.screening.deny.length < 16384 ∨ 0 < s.screening.localCount) :
    ((s.denyFinding card origin).screening.denied card).isSome = true := by
  unfold State.denyFinding
  simp only [State.onScreening_screening]
  split
  · assumption
  · rename_i hn
    have hr := h.resolve_left hn
    unfold Screening.addLocal
    simp only
    split
    · rename_i hc
      have hpos : 0 < s.screening.localCount := by
        rcases hc with hc | hc
        · simp only [Config.localCap] at hc
          omega
        · exact hc.2
      have hmem : ∃ o, oldestLocal s.screening.deny = some o := by
        cases ho : oldestLocal s.screening.deny with
        | some o => exact ⟨o, rfl⟩
        | none =>
          exfalso
          obtain ⟨x, hx, hxl⟩ := List.countP_pos_iff.1 hpos
          unfold oldestLocal at ho
          have key : ∀ (ys : List DenyEntry) (b : Option DenyEntry), (ys ≠ [] ∨ b ≠ none) →
              ys.foldl (fun best e => match best with
                | none => some e
                | some b => if e.older b then some e else some b) b ≠ none := by
            intro ys
            induction ys with
            | nil => intro b hb; simpa using hb
            | cons y ys ih =>
              intro b _
              rw [List.foldl_cons]
              refine ih _ (Or.inr ?_)
              split
              · simp
              · split <;> simp
          exact key _ none (Or.inl (List.ne_nil_of_mem (List.mem_filter.2 ⟨hx, hxl⟩))) ho
      obtain ⟨o, ho⟩ := hmem
      rw [ho]
      exact denied_insert (s.screening.newLocal card origin s.time.now) _ _ _
    · rename_i hc
      split
      · rename_i hf
        exfalso
        simp only [Config.denyCap] at hf hc
        rcases hr with hr | hr
        · omega
        · exact hc (Or.inr ⟨hf, hr⟩)
      · exact denied_insert (s.screening.newLocal card origin s.time.now) _ _ _

@[simp] theorem denyFinding_sightings (card : CardNo) (origin : DenyOrigin) (s : State) :
    (s.denyFinding card origin).screening.sightings = s.screening.sightings := by
  unfold State.denyFinding Screening.addLocal
  simp only [State.onScreening_screening]
  split_ifs
  · rfl
  · split <;> rfl
  · rfl
  · rfl

theorem withFrame_queued (l : Link) (m : LinkMsg) : ∃ q ∈ (l.withFrame m).queue, q.msg = m := by
  unfold Link.withFrame
  split
  · rename_i h
    obtain ⟨q, hq, hm⟩ := List.any_eq_true.1 h
    split
    · rename_i hk
      refine ⟨q, hq, ?_⟩
      simp only [QItem.matches, Bool.and_eq_true, beq_iff_eq] at hm
      cases hmm : m with
      | denyAdd c =>
        cases hqq : q.msg with
        | denyAdd d => simp_all [LinkMsg.card]
        | sighting _ _ _ => simp_all [LinkMsg.kind]
        | lapse _ _ _ => simp_all [LinkMsg.kind]
        | regrant _ _ => simp_all [LinkMsg.kind]
      | sighting _ _ _ => simp_all [LinkMsg.kind]
      | lapse _ _ _ => simp_all [LinkMsg.kind]
      | regrant _ _ => simp_all [LinkMsg.kind]
    · have hlt : l.queue.findIdx (QItem.matches m) < l.queue.length := List.findIdx_lt_length_of_exists ⟨q, hq, hm⟩
      refine ⟨{ l.queue[l.queue.findIdx (QItem.matches m)] with msg := m }, ?_, rfl⟩
      rw [List.mem_iff_getElem]
      refine ⟨l.queue.findIdx (QItem.matches m), by simpa using hlt, ?_⟩
      simp
  · exact ⟨{ msg := m, marks := [], inTx := false }, by simp, rfl⟩

@[simp] theorem append_sightings (b : RecBody) (s : State) : (s.append b).screening = s.screening :=
  by rw [(Screened.of_append s b).rest]; simp

@[simp] theorem enqueue_screening (m : LinkMsg) (s : State) : (s.enqueue m).screening = s.screening := by
  rw [(enqueue_queued s m).rest]

/-- All that the CLONE outcome does (R74, R83, R188). -/
theorem cloneOutcome_spec (card : CardNo) (s : State) :
    Screened s (s.cloneOutcome card) [.denyAdd card] (s.link.dropRecords [.denyAdd card]) ∧
      (s.cloneOutcome card).screening.sightings = s.screening.sightings ∧
      (s.cloneOutcome card).host.finding = some { card := card, kind := .clone } ∧
      (s.cloneOutcome card).host.findings = min 65535 (s.host.findings + 1) ∧ CloneFound s (s.cloneOutcome card) card := by
  have h1 : Screened s (s.denyFinding card .own) [] [] := Screened.of_screening s _
  have h2 := Screened.of_enqueue (s.denyFinding card .own) (.denyAdd card)
  have h3 := Screened.of_noteFinding ((s.denyFinding card .own).enqueue (.denyAdd card)) card .clone
  have h : Screened s (s.cloneOutcome card) [.denyAdd card] (s.link.dropRecords [.denyAdd card]) := by
    have h := (h1.trans h2).trans h3
    simp only [List.nil_append, List.append_nil] at h
    exact h
  have hs : (s.cloneOutcome card).screening = (s.denyFinding card .own).screening := by
    show ((s.denyFinding card .own).enqueue (.denyAdd card)).screening = _
    simp
  have hf : (s.cloneOutcome card).host.findings = min 65535 (s.host.findings + 1) := by
    have e := noteFinding_host ((s.denyFinding card .own).enqueue (.denyAdd card)) card .clone
    have e2 := (enqueue_queued (s.denyFinding card .own) (.denyAdd card)).host
    show (State.noteFinding card .clone _).host.findings = _
    rw [e, e2]
    rfl
  have hg : (s.cloneOutcome card).host.finding = some { card := card, kind := .clone } := by
    show (State.noteFinding card .clone _).host.finding = _
    rw [noteFinding_host]
  refine ⟨h, by rw [hs]; simp, hg, hf, noteFinding_told _ _ _, hg, fun _ => hf, ?_, fun hl => ?_⟩
  · rw [h.link]
    exact withFrame_queued _ _
  · rw [hs]
    exact denyFinding_listed _ _ _ hl

/-- All that the CLONE_LATE finding does (R92, R188). -/
theorem cloneLate_spec (card : CardNo) (src : Nat) (s : State) :
    Screened s (s.cloneLate card src) [.denyAdd card]
        (s.link.dropRecords [.denyAdd card] ++ [{ kind := .cloneLate, card := some card, peer := some src }]) ∧
      (s.cloneLate card src).screening.sightings = s.screening.sightings ∧
      (s.cloneLate card src).host.finding = some { card := card, kind := .cloneLate } ∧
      (s.cloneLate card src).host.findings = min 65535 (s.host.findings + 1) ∧
      LateFound s (s.cloneLate card src) card 1 := by
  let b : RecBody := { kind := .cloneLate, card := some card, peer := some src }
  have h1 : Screened s (s.denyFinding card .own) [] [] := Screened.of_screening s _
  have h2 := Screened.of_enqueue (s.denyFinding card .own) (.denyAdd card)
  have h3 := Screened.of_append ((s.denyFinding card .own).enqueue (.denyAdd card)) b
  have h4 := Screened.of_noteFinding (((s.denyFinding card .own).enqueue (.denyAdd card)).append b) card .cloneLate
  have h : Screened s (s.cloneLate card src) [.denyAdd card] (s.link.dropRecords [.denyAdd card] ++ [b]) := by
    have h := ((h1.trans h2).trans h3).trans h4
    simp only [List.nil_append, List.append_nil] at h
    exact h
  have hs : (s.cloneLate card src).screening = (s.denyFinding card .own).screening := by
    show (((s.denyFinding card .own).enqueue (.denyAdd card)).append b).screening = _
    simp
  have hf : (s.cloneLate card src).host.findings = min 65535 (s.host.findings + 1) := by
    have e := noteFinding_host (((s.denyFinding card .own).enqueue (.denyAdd card)).append b) card .cloneLate
    have e2 := (enqueue_queued (s.denyFinding card .own) (.denyAdd card)).host
    show (State.noteFinding card .cloneLate _).host.findings = _
    rw [e, State.append_host_findings, e2]
    rfl
  have hg : (s.cloneLate card src).host.finding = some { card := card, kind := .cloneLate } := by
    show (State.noteFinding card .cloneLate _).host.finding = _
    rw [noteFinding_host]
  refine ⟨h, by rw [hs]; simp, hg, hf, noteFinding_told _ _ _, hg, fun _ => hf, ?_, fun hl => ?_⟩
  · rw [h.link]
    exact withFrame_queued _ _
  · rw [hs]
    exact denyFinding_listed _ _ _ hl

/-! ## A held update (R88, R92, R93) -/

/-- What an applied held update does beside the table: the effects of a late one, and no finding otherwise. -/
structure HeldApplied (s t : State) (card : CardNo) (fate : HeldEnd) : Prop where
  screened : Screened s t (fate.frames card) (s.link.dropRecords (fate.frames card) ++ fate.records card)
  late : fate.isLate = true →
    LateFound s t card 1 ∧ t.host.finding = some { card := card, kind := .cloneLate } ∧
      t.host.findings = min 65535 (s.host.findings + 1)
  quiet : fate.isLate = false →
    t.screening.deny = s.screening.deny ∧ t.host.finding = s.host.finding ∧ t.host.findings = s.host.findings

theorem HeldApplied.of_screening (s : State) (card : CardNo) (fate : HeldEnd) (f : Screening → Screening)
    (hf : (f s.screening).deny = s.screening.deny) (hl : fate.isLate = false) :
    HeldApplied s (s.onScreening f) card fate := by
  cases fate with
  | late h => simp [HeldEnd.isLate] at hl
  | passed => exact ⟨Screened.of_screening s f, by simp [HeldEnd.isLate], fun _ => ⟨hf, rfl, rfl⟩⟩
  | adopted h => exact ⟨Screened.of_screening s f, by simp [HeldEnd.isLate], fun _ => ⟨hf, rfl, rfl⟩⟩

theorem HeldApplied.refl (s : State) (card : CardNo) : HeldApplied s s card .passed :=
  ⟨Screened.refl s, by simp [HeldEnd.isLate], fun _ => ⟨rfl, rfl, rfl⟩⟩

/-- The guard of R92: the card is issued and the txc is the next one. -/
theorem inbound_guard (card : CardNo) (read written : SImage) :
    (!issued card || written.txc != read.txc + 1) = true ↔
      card = 0 ∨ card = BitVec.allOnes 32 ∨ written.txc ≠ read.txc + 1 := by
  simp only [issued, Bool.not_and, Bool.or_eq_true, Bool.not_eq_true', bne_eq_false_iff_eq, bne_iff_ne]
  tauto

/-- A held update applied to a COMMITTED entry (R92). -/
theorem applyHeld_committed {card : CardNo} {e : Sighting} {st : Standing} (held : Option HeldUpdate)
    (he : s.screening.sighted card = some e) (hst : e.state = .committed st) :
    let fate := heldEnd held card (some e.baseline)
    HeldApplied s (s.applyHeld card held) card fate ∧
      (∃ order, (s.applyHeld card held).screening.sighted card =
        match fate with
        | .adopted h =>
          some
            { e with
              baseline := h.written, updated := s.time.now, touched := order,
              state := .committed { origin := .peer h.src, lapse := none, regranted := false } }
        | .passed | .late _ => some e) ∧
      ∀ o, o ≠ card → (s.applyHeld card held).screening.sighted o = s.screening.sighted o := by
  have hc := (Screening.sighted_some he).2
  cases held with
  | none => exact ⟨HeldApplied.refl s card, ⟨0, he⟩, fun _ _ => rfl⟩
  | some h =>
    simp only [State.applyHeld, State.inboundSighting]
    by_cases hg : (!issued card || h.written.txc != h.read.txc + 1) = true
    · have hg' := (inbound_guard _ _ _).1 hg
      have hf : heldEnd (some h) card (some e.baseline) = .passed := by
        simp only [heldEnd]
        rw [if_pos (by tauto)]
      rw [if_pos hg, hf]
      exact ⟨HeldApplied.refl s card, ⟨0, he⟩, fun _ _ => rfl⟩
    · have hg' := fun h' => hg ((inbound_guard card h.read h.written).2 h')
      rw [if_neg hg, he]
      simp only [hst, State.sightCommitted]
      by_cases hw : h.written = e.baseline
      · have hf : heldEnd (some h) card (some e.baseline) = .passed := by
          simp only [heldEnd]
          rw [if_pos (by tauto)]
        rw [if_pos hw, hf]
        exact ⟨HeldApplied.refl s card, ⟨0, he⟩, fun _ _ => rfl⟩
      · rw [if_neg hw]
        by_cases hr : h.read = e.baseline ∨ e.baseline.txc < h.read.txc
        · have hf : heldEnd (some h) card (some e.baseline) = .adopted h := by
            simp only [heldEnd]
            rw [if_neg (by tauto), if_pos hr]
          rw [if_pos hr, hf]
          refine ⟨HeldApplied.of_screening s card _ _ rfl rfl, ⟨s.screening.order, ?_⟩, fun o ho => ?_⟩
          · have := touchSighting_self (e := e.adopt h.src h.written) (x := e) (s := s) (by rw [← hc] at he; exact he)
            rw [show (e.adopt h.src h.written).card = card from hc] at this
            rw [this]
            simp [Sighting.adopt, hc]
          · exact touchSighting_other _ _ (by rw [show (e.adopt h.src h.written).card = card from hc]; exact ho)
        · have hf : heldEnd (some h) card (some e.baseline) = .late h := by
            simp only [heldEnd]
            rw [if_neg (by tauto), if_neg hr]
          rw [if_neg hr, hf, hc]
          obtain ⟨h1, h2, h3, h4, h5⟩ := cloneLate_spec card h.src s
          refine ⟨⟨h1, fun _ => ⟨h5, h3, h4⟩, by simp [HeldEnd.isLate]⟩, ⟨0, ?_⟩, fun o _ => ?_⟩
          · simpa only [Screening.sighted, h2] using he
          · simp only [Screening.sighted, h2]

/-- A held update applied where no entry is left (R76, R92). -/
theorem applyHeld_absent {card : CardNo} (held : Option HeldUpdate) (hn : s.screening.sighted card = none) :
    let fate := heldEnd held card none
    HeldApplied s (s.applyHeld card held) card fate ∧
      (∀ base, ∃ order, (s.applyHeld card held).screening.sighted card = fate.leaves card base none s.time.now order) ∧
      (held = none ∨ s.screening.sightings.length < 1024 →
        ∀ o, o ≠ card → (s.applyHeld card held).screening.sighted o = s.screening.sighted o) := by
  cases held with
  | none => exact ⟨HeldApplied.refl s card, fun _ => ⟨0, hn⟩, fun _ _ _ => rfl⟩
  | some h =>
    simp only [State.applyHeld, State.inboundSighting]
    by_cases hg : (!issued card || h.written.txc != h.read.txc + 1) = true
    · have hf : heldEnd (some h) card none = .passed := by
        simp only [heldEnd]
        rw [if_pos ((inbound_guard _ _ _).1 hg)]
      rw [if_pos hg, hf]
      exact ⟨HeldApplied.refl s card, fun _ => ⟨0, hn⟩, fun _ _ _ => rfl⟩
    · have hf : heldEnd (some h) card none = .adopted h := by
        simp only [heldEnd]
        rw [if_neg fun h' => hg ((inbound_guard _ _ _).2 h')]
      rw [if_neg hg, hf, hn]
      refine ⟨HeldApplied.of_screening s card _ _ rfl rfl, fun _ => ⟨s.screening.order, ?_⟩, fun hl o ho => ?_⟩
      · exact insertSighting_self card h.written _ s hn
      · have e := insertSighting_sighted card h.written
          (.committed { origin := .peer h.src, lapse := none, regranted := false }) s hn (hl.resolve_left (by simp)) o
        simpa [ho] using e

/-- A held update applied to an IN_DOUBT entry (R93). -/
theorem applyHeld_inDoubt {card : CardNo} {e : Sighting} {stored : SImage} {serial : Nat} (held : Option HeldUpdate)
    (he : s.screening.sighted card = some e) (hst : e.state = .inDoubt stored serial) :
    let r := heldResolves held card e.baseline stored
    Screened s (s.applyHeld card held) []
        (r.toList.map fun r => resolvedRecord card serial stored r.2 none (some r.1.src)) ∧
      (s.applyHeld card held).screening.deny = s.screening.deny ∧
      (s.applyHeld card held).host.finding = s.host.finding ∧
      (s.applyHeld card held).host.findings = s.host.findings ∧
      (∃ order, (s.applyHeld card held).screening.sighted card =
        match r with
        | some (h, _) =>
          some
            { e with
              baseline := h.written, updated := s.time.now, touched := order,
              state := .committed { origin := .peer h.src, lapse := none, regranted := false } }
        | none => some e) ∧
      ∀ o, o ≠ card → (s.applyHeld card held).screening.sighted o = s.screening.sighted o := by
  have hc := (Screening.sighted_some he).2
  have stays : Screened s s [] [] ∧ s.screening.deny = s.screening.deny ∧ s.host.finding = s.host.finding ∧
      s.host.findings = s.host.findings ∧ (∃ _ : Nat, s.screening.sighted card = some e) ∧
      ∀ o, o ≠ card → s.screening.sighted o = s.screening.sighted o :=
    ⟨Screened.refl s, rfl, rfl, rfl, ⟨0, he⟩, fun _ _ => rfl⟩
  have resolves : ∀ (h : HeldUpdate) (outcome : WriteOutcome),
      let t := (s.append (resolvedRecord e.card serial stored outcome none (some h.src))).touchSighting
        (e.adopt h.src h.written)
      Screened s t [] [resolvedRecord card serial stored outcome none (some h.src)] ∧
        t.screening.deny = s.screening.deny ∧ t.host.finding = s.host.finding ∧ t.host.findings = s.host.findings ∧
        (∃ order, t.screening.sighted card =
          some
            { e with
              baseline := h.written, updated := s.time.now, touched := order,
              state := .committed { origin := .peer h.src, lapse := none, regranted := false } }) ∧
        ∀ o, o ≠ card → t.screening.sighted o = s.screening.sighted o := by
    intro h outcome
    rw [hc]
    let b := resolvedRecord card serial stored outcome none (some h.src)
    have h1 := Screened.of_append s b
    have h2 : Screened (s.append b) ((s.append b).touchSighting (e.adopt h.src h.written)) [] [] :=
      Screened.of_screening _ _
    have hs : (s.append b).screening = s.screening := append_sightings b s
    have hcard : (e.adopt h.src h.written).card = card := hc
    refine ⟨by simpa using h1.trans h2, ?_, ?_, ?_, ⟨s.screening.order, ?_⟩, fun o ho => ?_⟩
    · show (s.append b).screening.deny = _
      rw [hs]
    · show (s.append b).host.finding = _
      simp
    · show (s.append b).host.findings = _
      simp
    · have := touchSighting_self (e := e.adopt h.src h.written) (x := e) (s := s.append b)
        (by rw [hcard, hs]; exact he)
      rw [hcard, hs, State.append_time] at this
      exact this
    · rw [touchSighting_other _ _ (by rw [hcard]; exact ho), hs]
  cases held with
  | none => simpa [heldResolves, State.applyHeld] using stays
  | some h =>
    simp only [State.applyHeld, State.inboundSighting, heldResolves, Option.bind_some]
    by_cases hg : (!issued card || h.written.txc != h.read.txc + 1) = true
    · rw [if_pos hg, if_pos ((inbound_guard _ _ _).1 hg)]
      simpa using stays
    · rw [if_neg hg, if_neg fun h' => hg ((inbound_guard _ _ _).2 h'), he]
      simp only [hst, State.sightInDoubt]
      by_cases h1 : h.read = stored
      · rw [if_pos h1, if_pos h1]
        exact resolves h .committed
      · rw [if_neg h1, if_neg h1]
        by_cases h2 : h.read = e.baseline ∨ h.read.txc = stored.txc
        · rw [if_pos h2, if_pos h2]
          exact resolves h .voided
        · rw [if_neg h2, if_neg h2]
          simpa using stays

/-! ## Set-back, conversion and commit (R85 to R88) -/

theorem heldBy_some {c : Screening} {side : Side} {card : CardNo} {e : Sighting} {p : PendingTap}
    (h1 : c.sighted card = some e) (h2 : e.state = .pendingLocal p) (h3 : p.side = side) :
    c.heldBy side card = some (e, p) := by
  simp [Screening.heldBy, h1, h2, h3]

theorem HeldApplied.noFinding {card : CardNo} {fate : HeldEnd} (h : HeldApplied s t card fate)
    (hq : fate.isLate = false) : NoFinding s t :=
  ⟨(h.quiet hq).1, (h.quiet hq).2.1, fun _ => (h.quiet hq).2.2⟩

theorem HeldApplied.after_screening {card : CardNo} {fate : HeldEnd} {f : Screening → Screening}
    (h : HeldApplied (s.onScreening f) t card fate) (hf : (f s.screening).deny = s.screening.deny) :
    HeldApplied s t card fate where
  screened := by
    simpa only [List.nil_append, State.onScreening_link] using (Screened.of_screening s f).trans h.screened
  late := fun hl => by
    obtain ⟨h1, h2, h3⟩ := h.late hl
    refine ⟨{ h1 with counted := h1.counted, listed := fun hd => h1.listed ?_ }, h2, h3⟩
    simpa only [Screening.denied, Screening.localCount, State.onScreening_screening, hf] using hd
  quiet := fun hq => by
    obtain ⟨h1, h2, h3⟩ := h.quiet hq
    exact ⟨h1.trans hf, h2, h3⟩

/-- All that a tap's end without a write does to its entry (R86, R88). -/
theorem endUnwritten_spec {side : Side} {e : Sighting} {p : PendingTap} (he : s.screening.sighted e.card = some e)
    (hp : e.state = .pendingLocal p) (hside : p.side = side) :
    TookBack s (s.endUnwritten side e.card) e p (e.heldBack p) ∧
      HeldApplied s (s.endUnwritten side e.card) e.card (e.heldBack p) := by
  unfold State.endUnwritten
  rw [heldBy_some he hp hside]
  simp only
  cases hpr : p.prior with
  | none =>
    have hback : e.heldBack p = heldEnd p.held e.card none := by simp [Sighting.heldBack, hpr]
    obtain ⟨h1, h2, h3⟩ := applyHeld_absent p.held (dropSighting_sighted e.card s)
    rw [hback]
    have ha := h1.after_screening rfl
    refine ⟨⟨?_, fun hroom o ho => ?_, ha.screened.link, ha.screened.records, fun hl => (ha.late hl).1,
      fun hq => ha.noFinding hq⟩, ha⟩
    · obtain ⟨order, ho⟩ := h2 e.baseline
      exact ⟨order, by rw [ho, hpr]; rfl⟩
    · rw [h3 (hroom.imp_right fun h => lt_of_lt_of_le (removeSighting_length he) h) o ho, dropSighting_sighted_eq,
        if_neg ho]
  | some st =>
    have hback : e.heldBack p = heldEnd p.held e.card (some e.baseline) := by simp [Sighting.heldBack, hpr]
    have he' := touchSighting_self (e := { e with state := .committed st }) (x := e) (s := s) he
    obtain ⟨h1, ⟨order, h2⟩, h3⟩ := applyHeld_committed (st := st) p.held he' rfl
    rw [hback]
    have ha := h1.after_screening rfl
    refine ⟨⟨?_, fun _ o ho => ?_, ha.screened.link, ha.screened.records, fun hl => (ha.late hl).1,
      fun hq => ha.noFinding hq⟩, ha⟩
    · simp only at h2
      simp only [h2, hpr]
      cases heldEnd p.held e.card (some e.baseline) with
      | adopted h => exact ⟨order, rfl⟩
      | passed => exact ⟨s.screening.order, rfl⟩
      | late h => exact ⟨s.screening.order, rfl⟩
    · rw [h3 o ho]
      exact touchSighting_other _ _ ho

/-- The CLONE effects of a mark, or nothing (R83, R85, R87). -/
theorem cloneIf_spec (mark : Bool) (card : CardNo) (s : State) :
    Screened s (s.cloneIf mark card) (cloneFrames mark card) (s.link.dropRecords (cloneFrames mark card)) ∧
      (s.cloneIf mark card).screening.sightings = s.screening.sightings ∧
      (mark = true →
        (s.cloneIf mark card).host.finding = some { card := card, kind := .clone } ∧
          (s.cloneIf mark card).host.findings = min 65535 (s.host.findings + 1) ∧
          CloneFound s (s.cloneIf mark card) card) ∧
      (mark = false → s.cloneIf mark card = s) := by
  cases mark with
  | false => exact ⟨Screened.refl s, rfl, by simp, fun _ => rfl⟩
  | true =>
    obtain ⟨h1, h2, h3, h4, h5⟩ := cloneOutcome_spec card s
    exact ⟨h1, h2, fun _ => ⟨h3, h4, h5⟩, by simp⟩

/-- The effects of a clone mark and then a held update on a COMMITTED entry: `b` is made from `s` without a finding. -/
theorem cloneThenHeld_spec {b : State} {card : CardNo} {e : Sighting} {st : Standing} {ms : List LinkMsg}
    {xs : List RecBody} (mark : Bool) (held : Option HeldUpdate) (hb : Screened s b ms xs)
    (hdeny : b.screening.deny = s.screening.deny) (hfind : b.host.finding = s.host.finding)
    (hfinds : b.host.findings = s.host.findings) (he : b.screening.sighted card = some e)
    (hst : e.state = .committed st) :
    let t := (b.cloneIf mark card).applyHeld card held
    let fate := heldEnd held card (some e.baseline)
    Screened s t (ms ++ (cloneFrames mark card ++ fate.frames card))
        (xs ++ ((s.link.withFrames ms).dropRecords (cloneFrames mark card ++ fate.frames card) ++ fate.records card)) ∧
      (∃ order, t.screening.sighted card =
        match fate with
        | .adopted h =>
          some
            { e with
              baseline := h.written, updated := s.time.now, touched := order,
              state := .committed { origin := .peer h.src, lapse := none, regranted := false } }
        | .passed | .late _ => some e) ∧
      (∀ o, o ≠ card → t.screening.sighted o = b.screening.sighted o) ∧
      (mark = false → fate.isLate = true → LateFound s t card 1) ∧
      (mark = false → fate.isLate = false → NoFinding s t) ∧
      (mark = true → fate.isLate = true → LateFound s t card 2) ∧
      (mark = true → fate.isLate = false → CloneFound s t card) := by
  intro t fate
  have htx : b.host.tx = s.host.tx := by rw [hb.host]
  have hlisted : ∀ c : CardNo,
      ((s.screening.denied c).isSome = true ∨ s.screening.deny.length < 16384 ∨ 0 < s.screening.localCount) →
      (b.screening.denied c).isSome = true ∨ b.screening.deny.length < 16384 ∨ 0 < b.screening.localCount := by
    intro c h
    simpa only [Screening.denied, Screening.localCount, hdeny] using h
  obtain ⟨hc1, hc2, hc3, hc4⟩ := cloneIf_spec mark card b
  have et : t = (b.cloneIf mark card).applyHeld card held := rfl
  clear_value t
  generalize hc : b.cloneIf mark card = c at et hc1 hc2 hc3 hc4
  have hctx : c.host.tx = s.host.tx := by rw [hc1.host]; exact htx
  have hnow : c.time.now = s.time.now := by rw [hc1.rest, hb.rest]
  have sc : c.screening.sighted = b.screening.sighted := by
    funext o
    simp only [Screening.sighted, hc2]
  obtain ⟨h1, ⟨order, h2⟩, h3⟩ := applyHeld_committed held (by rw [sc]; exact he) hst
  rw [← et] at h1 h2 h3
  refine ⟨?_, ⟨order, by rw [h2, hnow]⟩, fun o ho => by rw [h3 o ho, sc], ?_, ?_, ?_, ?_⟩
  · have h := (hb.trans hc1).trans h1.screened
    rw [hc1.link, hb.link] at h
    rw [Link.dropRecords_append]
    simpa only [List.append_assoc] using h
  · intro hm hl
    obtain ⟨l1, -, -⟩ := h1.late hl
    rw [hc4 hm] at l1
    exact ⟨l1.told, l1.finding, fun hx => by rw [l1.counted (by rw [htx]; exact hx), hfinds], l1.frame,
      fun hd => l1.listed (hlisted _ hd)⟩
  · intro hm hl
    obtain ⟨q1, q2, q3⟩ := h1.quiet hl
    rw [hc4 hm] at q1 q2 q3
    exact ⟨q1.trans hdeny, q2.trans hfind, fun _ => q3.trans hfinds⟩
  · intro hm hl
    obtain ⟨c1, c2, c3⟩ := hc3 hm
    obtain ⟨l1, -, -⟩ := h1.late hl
    refine ⟨l1.told, l1.finding, fun hx => ?_, l1.frame, fun hd => l1.listed (Or.inl (c3.listed (hlisted _ hd)))⟩
    rw [l1.counted (by rw [hctx]; exact hx), c2, hfinds]
    omega
  · intro hm hl
    obtain ⟨c1, c2, c3⟩ := hc3 hm
    obtain ⟨q1, q2, q3⟩ := h1.quiet hl
    refine ⟨h1.screened.told _ c3.told, q2.trans c1, fun _ => by rw [q3, c2, hfinds], ?_, fun hd => ?_⟩
    · have hf : (heldEnd held card (some e.baseline)).frames card = [] := by
        change (heldEnd held card (some e.baseline)).isLate = false at hl
        revert hl
        cases heldEnd held card (some e.baseline) <;> simp [HeldEnd.isLate, HeldEnd.frames]
      have hlk := h1.screened.link
      rw [hf] at hlk
      rw [hlk]
      exact c3.frame
    · have := c3.listed (hlisted _ hd)
      simpa only [Screening.denied, q1] using this

/-- All that a commit does to its entry (R85, R88). -/
theorem commitSighting_spec {side : Side} {e : Sighting} {p : PendingTap} {img : SImage}
    (he : s.screening.sighted e.card = some e) (hp : e.state = .pendingLocal p) (hside : p.side = side)
    (himg : p.stored = some img) :
    let t := s.commitSighting side e.card
    let fate := heldEnd p.applies e.card (some img)
    let frames := .sighting e.card e.baseline img :: (cloneFrames p.cloneMark e.card ++ fate.frames e.card)
    Screened s t frames (s.link.dropRecords frames ++ fate.records e.card) ∧
      (∃ order, t.screening.sighted e.card = fate.leaves e.card img (some .ours) s.time.now order) ∧
      (∀ o, o ≠ e.card → t.screening.sighted o = s.screening.sighted o) ∧
      (p.cloneMark = false → fate.isLate = true → LateFound s t e.card 1) ∧
      (p.cloneMark = false → fate.isLate = false → NoFinding s t) ∧
      (p.cloneMark = true → fate.isLate = true → LateFound s t e.card 2) ∧
      (p.cloneMark = true → fate.isLate = false → CloneFound s t e.card) := by
  intro t fate frames
  have et : t = (((s.touchSighting { e with baseline := img, state := .committed .ours }).enqueue
      (.sighting e.card e.baseline img)).cloneIf p.cloneMark e.card).applyHeld e.card p.applies := by
    simp only [t, State.commitSighting, heldBy_some he hp hside, himg, Option.getD_some]
    rfl
  clear_value t
  generalize ha : s.touchSighting { e with baseline := img, state := .committed .ours } = a at et
  have sa := touchSighting_self (e := { e with baseline := img, state := .committed .ours }) (x := e) (s := s) he
  have oa : ∀ o, o ≠ e.card → a.screening.sighted o = s.screening.sighted o := by
    intro o ho
    rw [← ha]
    exact touchSighting_other _ _ ho
  have s1 : Screened s a [] [] := by rw [← ha]; exact Screened.of_screening s _
  have h1 : a.host = s.host := by rw [← ha]; rfl
  have h2 : a.screening.deny = s.screening.deny := by rw [← ha]; rfl
  have h3 : a.link = s.link := by rw [← ha]; rfl
  rw [ha] at sa
  have q := enqueue_queued a (.sighting e.card e.baseline img)
  generalize hb : a.enqueue (.sighting e.card e.baseline img) = b at et q
  have sb : b.screening = a.screening := by rw [q.rest]
  have s2 : Screened s b [.sighting e.card e.baseline img] (s.link.dropRecords [.sighting e.card e.baseline img]) := by
    simpa only [List.nil_append, h3] using s1.trans (Screened.of_queued q)
  obtain ⟨r1, ⟨order, r2⟩, r3, r4⟩ := cloneThenHeld_spec (st := .ours) p.cloneMark p.applies s2 (by rw [sb, h2])
    (by rw [q.host, h1]) (by rw [q.host, h1]) (by rw [sb]; exact sa) rfl
  rw [← et] at r1 r2 r3 r4
  refine ⟨?_, ?_, fun o ho => by rw [r3 o ho, sb, oa o ho], r4⟩
  · have e1 : frames =
        [LinkMsg.sighting e.card e.baseline img] ++ (cloneFrames p.cloneMark e.card ++ fate.frames e.card) := rfl
    rw [e1, Link.dropRecords_append, List.append_assoc]
    exact r1
  · rw [r2]
    show ∃ order, _ = (heldEnd p.applies e.card (some img)).leaves e.card img (some .ours) s.time.now order
    simp only
    cases heldEnd p.applies e.card (some img) with
    | adopted h => exact ⟨order, rfl⟩
    | passed => exact ⟨s.screening.order, rfl⟩
    | late h => exact ⟨s.screening.order, rfl⟩

/-! ## The conversion to IN_DOUBT (R87) -/

/-- The fold that finds the lowest IN_DOUBT serial (R87). -/
theorem lowestInDoubt_eq {xs : List Sighting} {o : Sighting} {stored : SImage} {n : Nat} (hmem : o ∈ xs)
    (hst : o.state = .inDoubt stored n)
    (hmin : ∀ x ∈ xs, x ≠ o → ∀ image m, x.state = .inDoubt image m → n < m) : lowestInDoubt xs = some o := by
  have key : ∀ (ys : List Sighting) (b : Option (Nat × Sighting)),
      (∀ x ∈ ys, x ≠ o → ∀ image m, x.state = .inDoubt image m → n < m) →
      (∀ m x, b = some (m, x) → (m = n ∧ x = o) ∨ n < m) → (o ∈ ys ∨ b = some (n, o)) →
      ys.foldl
        (fun best e => match e.state, best with
          | .inDoubt _ n, some (m, b) => if n < m then some (n, e) else some (m, b)
          | .inDoubt _ n, none => some (n, e)
          | .committed _, b => b
          | .pendingLocal _, b => b) b = some (n, o) := by
    intro ys
    induction ys with
    | nil =>
      intro b _ _ h
      exact h.resolve_left (by simp)
    | cons y ys ih =>
      intro b hy hb h
      rw [List.foldl_cons]
      have hy' : ∀ x ∈ ys, x ≠ o → ∀ image m, x.state = .inDoubt image m → n < m := fun x hx =>
        hy x (List.mem_cons_of_mem _ hx)
      by_cases hyo : y = o
      · subst hyo
        rw [hst]
        cases b with
        | none => exact ih _ hy' (fun m x e => Or.inl (by simpa [eq_comm] using e)) (Or.inr rfl)
        | some mb =>
          obtain ⟨m, x⟩ := mb
          rcases hb m x rfl with ⟨rfl, rfl⟩ | hlt
          · simp only [Nat.lt_irrefl, if_false]
            exact ih _ hy' (fun m x e => Or.inl (by simpa [eq_comm] using e)) (Or.inr rfl)
          · simp only [hlt, if_true]
            exact ih _ hy' (fun m x e => Or.inl (by simpa [eq_comm] using e)) (Or.inr rfl)
      · have hmem' : o ∈ ys ∨ b = some (n, o) :=
          h.imp_left fun hm => (List.mem_cons.1 hm).resolve_left fun e => hyo e.symm
        cases hys : y.state with
        | committed _ => exact ih _ hy' hb hmem'
        | pendingLocal _ => exact ih _ hy' hb hmem'
        | inDoubt image k =>
          have hk := hy y (List.mem_cons_self ..) hyo image k hys
          cases b with
          | none =>
            refine ih _ hy' (fun m x e => Or.inr ?_) (Or.inl (hmem'.resolve_right (by simp)))
            simp only [Option.some.injEq, Prod.mk.injEq] at e
            omega
          | some mb =>
            obtain ⟨m, x⟩ := mb
            by_cases hkm : k < m
            · simp only [hkm, if_true]
              refine ih _ hy' (fun m' x' e => Or.inr ?_) ?_
              · simp only [Option.some.injEq, Prod.mk.injEq] at e
                omega
              · refine Or.inl (hmem'.resolve_right fun e => ?_)
                simp only [Option.some.injEq, Prod.mk.injEq] at e
                omega
            · simp only [hkm, if_false]
              exact ih _ hy' hb hmem'
  exact congrArg (Option.map Prod.snd) (key xs none hmin (fun _ _ e => by simp at e) (Or.inl hmem))

/-- A REVENUE record is taken, whatever the halt (R155). -/
theorem append_nextSerial_revenue (b : RecBody) (hb : b.kind.cls = .revenue) (s : State) :
    (s.append b).journal.nextSerial = s.journal.nextSerial + 1 :=
  (State.append_records s b (by simp [hb])).2

/-- All that the in-doubt limit does (R87). -/
theorem limitInDoubt_spec {old : Option Sighting} (h : s.screening.GivesUp old) :
    Screened s s.limitInDoubt [] (old.toList.flatMap Sighting.abandonRecord) ∧
      s.limitInDoubt.host.finding = s.host.finding ∧ s.limitInDoubt.host.findings = s.host.findings ∧
      s.limitInDoubt.screening.deny = s.screening.deny ∧
      s.limitInDoubt.journal.nextSerial = s.journal.nextSerial + old.toList.length ∧
      ∀ o, s.limitInDoubt.screening.sighted o =
        if old.map Sighting.card = some o then none else s.screening.sighted o := by
  unfold State.limitInDoubt
  by_cases hc : Config.inDoubtCap ≤ s.screening.counts.inDoubt
  · obtain ⟨o, stored, n, rfl, ho, hst, hmin⟩ := h.2 hc
    rw [if_pos hc, lowestInDoubt_eq (Screening.sighted_some ho).1 hst hmin]
    simp only [State.abandon, hst]
    let b := resolvedRecord o.card n stored .abandoned none none
    have h1 := Screened.of_append s b
    have h2 : Screened (s.append b) ((s.append b).dropSighting o.card) [] [] := Screened.of_screening _ _
    refine ⟨?_, ?_, ?_, ?_, ?_, fun c => ?_⟩
    · have : ((some o : Option Sighting).toList.flatMap Sighting.abandonRecord) = [b] := by
        simp [Sighting.abandonRecord, hst, b]
      rw [this]
      simpa using h1.trans h2
    · exact State.append_host_finding s b
    · exact State.append_host_findings s b
    · show (s.append b).screening.deny = _
      rw [append_sightings]
    · exact append_nextSerial_revenue b rfl s
    · rw [dropSighting_sighted_eq, append_sightings]
      simp only [Option.map_some, Option.some.injEq, eq_comm]
  · have e := h.1 (by simpa [Config.inDoubtCap] using hc)
    subst e
    rw [if_neg hc]
    exact ⟨Screened.refl s, rfl, rfl, rfl, rfl, fun _ => by simp⟩

/-- All that a conversion does (R87, R88). -/
theorem convert_spec {side : Side} {e : Sighting} {p : PendingTap} {img : SImage} {old : Option Sighting}
    (he : s.screening.sighted e.card = some e) (hp : e.state = .pendingLocal p) (hside : p.side = side)
    (himg : p.stored = some img) (hold : s.screening.GivesUp old) :
    Converted s (s.convert side e.card) e p img old ∧
      ∃ records, Screened s (s.convert side e.card) (cloneFrames p.cloneMark e.card) records := by
  have hne : old.map Sighting.card ≠ some e.card := by
    intro hc
    by_cases h64 : s.screening.counts.inDoubt < 64
    · simp [hold.1 h64] at hc
    · obtain ⟨o, stored, n, rfl, ho, hst, -⟩ := hold.2 (by omega)
      simp only [Option.map_some, Option.some.injEq] at hc
      rw [hc, he] at ho
      obtain rfl := Option.some.inj ho
      rw [hp] at hst
      simp at hst
  obtain ⟨l1, l2, l3, l4, l5, l6⟩ := limitInDoubt_spec hold
  have et : s.convert side e.card =
      ((((s.limitInDoubt).touchSighting { e with state := .inDoubt img s.limitInDoubt.journal.nextSerial }).append
        (inDoubtRecord side e.card img)).cloneIf p.cloneMark e.card).applyHeld e.card p.applies := by
    simp only [State.convert, heldBy_some he hp hside, himg, Option.getD_some]
    rfl
  rw [et]
  generalize hs1 : s.limitInDoubt = s1 at *
  have he1 : s1.screening.sighted e.card = some e := by rw [l6, if_neg hne, he]
  generalize hk : s1.journal.nextSerial = serial at *
  have sa := touchSighting_self (e := { e with state := .inDoubt img serial }) (x := e) (s := s1) he1
  have oa : ∀ o, o ≠ e.card → (s1.touchSighting { e with state := .inDoubt img serial }).screening.sighted o =
      s1.screening.sighted o := fun o ho => touchSighting_other _ _ ho
  have t1 : Screened s1 (s1.touchSighting { e with state := .inDoubt img serial }) [] [] := Screened.of_screening _ _
  have t2 := Screened.of_append (s1.touchSighting { e with state := .inDoubt img serial }) (inDoubtRecord side e.card img)
  have ha := (l1.trans t1).trans t2
  have hdeny : ((s1.touchSighting { e with state := .inDoubt img serial }).append
      (inDoubtRecord side e.card img)).screening.deny = s.screening.deny := by
    rw [append_sightings]
    exact l4
  have hfind : ((s1.touchSighting { e with state := .inDoubt img serial }).append
      (inDoubtRecord side e.card img)).host.finding = s.host.finding := by
    rw [State.append_host_finding]
    exact l2
  have hfinds : ((s1.touchSighting { e with state := .inDoubt img serial }).append
      (inDoubtRecord side e.card img)).host.findings = s.host.findings := by
    rw [State.append_host_findings]
    exact l3
  have hscr : ((s1.touchSighting { e with state := .inDoubt img serial }).append
      (inDoubtRecord side e.card img)).screening = (s1.touchSighting { e with state := .inDoubt img serial }).screening :=
    append_sightings _ _
  generalize hb : (s1.touchSighting { e with state := .inDoubt img serial }).append (inDoubtRecord side e.card img) = b at *
  simp only [List.append_nil] at ha
  obtain ⟨c1, c2, c3, c4⟩ := cloneIf_spec p.cloneMark e.card b
  generalize hc : b.cloneIf p.cloneMark e.card = c at *
  have sc : c.screening.sighted = b.screening.sighted := by
    funext o
    simp only [Screening.sighted, c2]
  have hce : c.screening.sighted e.card =
      some { e with state := .inDoubt img serial, updated := s1.time.now, touched := s1.screening.order } := by
    rw [sc, hscr]
    exact sa
  obtain ⟨r1, r2, r3, r4, ⟨order, r5⟩, r6⟩ := applyHeld_inDoubt p.applies hce rfl
  have now1 : s1.time.now = s.time.now := by rw [l1.rest]
  have nowc : c.time.now = s.time.now := by rw [c1.rest, ha.rest]
  have htx : b.host.tx = s.host.tx := by rw [ha.host]
  have hblink : b.link = s.link := by rw [ha.link]; rfl
  have hlisted : (s.screening.denied e.card).isSome = true ∨ s.screening.deny.length < 16384 ∨
      0 < s.screening.localCount →
      (b.screening.denied e.card).isSome = true ∨ b.screening.deny.length < 16384 ∨ 0 < b.screening.localCount := by
    intro h
    simpa only [Screening.denied, Screening.localCount, hdeny] using h
  have all := (ha.trans c1).trans r1
  rw [hblink] at all
  simp only [List.nil_append, List.append_nil] at all
  subst hside
  refine ⟨⟨?_, fun o ho => ?_, all.link, ?_, fun hm => ?_, fun hm => ?_⟩, _, all⟩
  · rw [r5, nowc]
    cases heldResolves p.applies e.card e.baseline img with
    | some r => exact ⟨order, rfl⟩
    | none => exact ⟨s1.screening.order, by rw [← l5, now1]⟩
  · rw [r6 o ho, sc, hscr, oa o ho, l6]
  · have := all.records
    simpa only [l5, List.append_assoc, List.singleton_append, List.cons_append, List.nil_append, inDoubtRecord,
      resolvedRecord, Option.map_none] using this
  · obtain ⟨d1, d2, d3⟩ := c3 hm
    refine ⟨r1.told _ d3.told, r3.trans d1, fun _ => by rw [r4, d2, hfinds], ?_, fun hd => ?_⟩
    · have hlk := r1.link
      rw [hlk]
      exact d3.frame
    · have := d3.listed (hlisted hd)
      simpa only [Screening.denied, r2] using this
  · have hcb := c4 hm
    refine ⟨?_, ?_, fun _ => ?_⟩
    · rw [r2, hcb, hdeny]
    · rw [r3, hcb, hfind]
    · rw [r4, hcb, hfinds]

/-! ## Lapse requests (R89) -/

/-- The LAPSE frames of a credit are read off the table. -/
theorem lapseFrames_congr {c : Credit} (h : ∀ o, (t.screening.sighted o).elim [] (Sighting.lapseFrames · c) =
    (s.screening.sighted o).elim [] (Sighting.lapseFrames · c)) : t.lapseFrames c = s.lapseFrames c := by
  unfold State.lapseFrames
  split
  · exact h _
  all_goals rfl

/-- A lapse mark leaves the frame of a later credit as it was. -/
theorem lapsedBy_lapseFrames (cs : List Credit) (deadline : Nat) (e : Sighting) (c : Credit) :
    (e.lapsedBy cs deadline).lapseFrames c = e.lapseFrames c := by
  unfold Sighting.lapsedBy
  split
  · rename_i st d hst hd
    by_cases ho : st.origin = .own <;> simp [ho, Sighting.lapseFrames, hst]
  · rfl

/-- The lapse requests of a list are those of its head and then those of its tail. -/
theorem lapsedBy_cons (c : Credit) (cs : List Credit) (deadline : Nat) (e : Sighting) :
    (e.lapsedBy [c] deadline).lapsedBy cs deadline = e.lapsedBy (c :: cs) deadline := by
  cases hst : e.state with
  | pendingLocal p => simp [Sighting.lapsedBy, hst]
  | inDoubt i n => simp [Sighting.lapsedBy, hst]
  | committed st =>
    by_cases ho : st.origin = .own
    · by_cases hc : c.origin.tapCard.map Prod.snd == some e.card
      · cases hl : (cs.filter fun c => c.origin.tapCard.map Prod.snd == some e.card).getLast? with
        | none => simp [Sighting.lapsedBy, hst, ho, hc, hl, List.getLast?_cons]
        | some d => simp [Sighting.lapsedBy, hst, ho, hc, hl, List.getLast?_cons]
      · simp [Sighting.lapsedBy, hst, hc]
    · have h : ∀ ys, e.lapsedBy ys deadline = e := fun ys => by
        unfold Sighting.lapsedBy
        split
        · rename_i st' d h1 h2
          rw [hst] at h1
          obtain rfl := SightState.committed.inj h1
          rw [if_neg ho]
        · rfl
      rw [h, h, h]

/-- An entry for which a credit queues no frame keeps its mark. -/
theorem lapsedBy_none {c : Credit} {deadline : Nat} {e : Sighting}
    (h : c.origin.tapCard.map Prod.snd = some e.card → e.lapseFrames c = []) : e.lapsedBy [c] deadline = e := by
  unfold Sighting.lapsedBy
  split
  · rename_i st d hst hd
    by_cases ho : st.origin = .own
    · by_cases hc : c.origin.tapCard.map Prod.snd = some e.card
      · have := h hc
        simp [Sighting.lapseFrames, hst, ho] at this
      · simp [hc] at hd
    · rw [if_neg ho]
  · rfl

/-- All that the lapse request of one credit does (R89). -/
theorem lapseCredit_spec (c : Credit) (s : State) :
    Screened s (s.lapseCredit c) (s.lapseFrames c) (s.link.dropRecords (s.lapseFrames c)) ∧
      Lapsed s (s.lapseCredit c) [c] := by
  have same : s.lapseCredit c = s → s.lapseFrames c = [] →
      (∀ o e, s.screening.sighted o = some e → c.origin.tapCard.map Prod.snd = some e.card → e.lapseFrames c = []) →
      Screened s (s.lapseCredit c) (s.lapseFrames c) (s.link.dropRecords (s.lapseFrames c)) ∧
        Lapsed s (s.lapseCredit c) [c] := fun e1 e2 e3 => by
    rw [e1, e2]
    refine ⟨Screened.refl s, rfl, rfl, fun o => ?_⟩
    cases ho : s.screening.sighted o with
    | none => rfl
    | some e => rw [Option.map_some, lapsedBy_none (e3 o e ho)]
  cases hc : c.origin.tapCard with
  | none =>
    refine same (by simp [State.lapseCredit, hc]) ?_ (fun o e _ h => by simp [hc] at h)
    unfold State.lapseFrames
    split
    · rename_i h
      simp [CreditOrigin.tapCard, h] at hc
    all_goals rfl
  | some x =>
    obtain ⟨serial, card⟩ := x
    have horigin : c.origin = .tap serial card := by
      revert hc
      unfold CreditOrigin.tapCard
      split <;> simp_all
    have ef : s.lapseFrames c = (s.screening.sighted card).elim [] (Sighting.lapseFrames · c) := by
      simp only [State.lapseFrames, horigin]
    have et : s.lapseCredit c = s.lapseRequest card (sideOf c.direction) := by simp only [State.lapseCredit, hc]
    cases he : s.screening.sighted card with
    | none =>
      refine same (by rw [et]; simp only [State.lapseRequest, he]) (by rw [ef, he]; rfl) (fun o e ho h => ?_)
      simp only [Option.map_some, Option.some.injEq, hc] at h
      obtain rfl := h
      rw [(Screening.sighted_some ho).2, ho] at he
      simp at he
    | some e =>
      have hcard := (Screening.sighted_some he).2
      have hsame : e.lapseFrames c = [] → s.lapseCredit c = s →
          Screened s (s.lapseCredit c) (s.lapseFrames c) (s.link.dropRecords (s.lapseFrames c)) ∧
            Lapsed s (s.lapseCredit c) [c] := fun h1 h2 =>
        same h2 (by rw [ef, he]; exact h1) fun o x ho h => by
          simp only [Option.map_some, Option.some.injEq, hc] at h
          have := (Screening.sighted_some ho).2
          rw [← this, ← h] at ho
          rw [he] at ho
          obtain rfl := Option.some.inj ho
          exact h1
      cases hst : e.state with
      | pendingLocal p =>
        exact hsame (by simp only [Sighting.lapseFrames, hst]) (by rw [et]; simp only [State.lapseRequest, he, hst])
      | inDoubt i n =>
        exact hsame (by simp only [Sighting.lapseFrames, hst]) (by rw [et]; simp only [State.lapseRequest, he, hst])
      | committed st =>
        cases ho : st.origin with
        | peer a =>
          exact hsame (by simp [Sighting.lapseFrames, hst, ho])
            (by rw [et]; simp only [State.lapseRequest, he, hst, ho])
        | own =>
          have efr : s.lapseFrames c = [.lapse card e.baseline (sideOf c.direction)] := by
            rw [ef, he]
            simp [Sighting.lapseFrames, hst, ho, hcard]
          let x : Sighting :=
            { e with
              state :=
                .committed
                  { st with
                    lapse :=
                      some
                        { side := sideOf c.direction, deadline := s.time.now + s.service.params.regrantWindow } } }
          have ex : s.lapseCredit c = (s.putSighting x).enqueue (.lapse card e.baseline (sideOf c.direction)) := by
            rw [et]
            simp only [State.lapseRequest, he, hst]
            split
            · rfl
            · rename_i h
              rw [ho] at h
              simp at h
          rw [efr, ex]
          have h1 : Screened s (s.putSighting x) [] [] := Screened.of_screening _ _
          have h2 := Screened.of_enqueue (s.putSighting x) (.lapse card e.baseline (sideOf c.direction))
          refine ⟨h1.trans h2, ?_, ?_, fun o => ?_⟩
          · rw [enqueue_screening]
            rfl
          · rw [enqueue_screening]
            show (replaceSighting x s.screening.sightings).map _ = _
            simp only [replaceSighting, List.map_map]
            refine List.map_congr_left fun y _ => ?_
            simp only [Function.comp]
            split
            · rename_i h
              exact h.symm
            · rfl
          · rw [enqueue_screening]
            by_cases hoc : o = card
            · subst hoc
              rw [he]
              have : (s.putSighting x).screening.sighted x.card = some x := putSighting_self (x := e) (by
                show s.screening.sighted e.card = some e
                rw [hcard, he])
              rw [show x.card = o from hcard] at this
              rw [this]
              simp [Sighting.lapsedBy, hst, ho, hc, hcard, x]
            · rw [putSighting_other x s (by rw [show x.card = card from hcard]; exact hoc)]
              refine (sighted_map_self fun y hy => lapsedBy_none fun h => ?_).symm
              simp only [Option.map_some, Option.some.injEq, hc] at h
              exact absurd (by rw [← hy, h]) hoc

/-- A credit's removal changes the aisle and the ports alone (R119, R120). -/
theorem removeCredit_rest (k : SlotId) (s : State) :
    s.removeCredit k =
      { s with
        passage := (s.removeCredit k).passage, portU := (s.removeCredit k).portU, portP := (s.removeCredit k).portP } := by
  unfold State.removeCredit State.freeSlot State.settleClaim State.judgeWaiting State.grantPort State.onPort
  split
  · rename_i side _
    split
    · cases side <;> rfl
    · rfl
  · rfl

/-- The records of a clearing are read off the table and the queue. -/
theorem faultRecords_congr (cs : List Credit) (h : ∀ c, t.lapseFrames c = s.lapseFrames c) (l : Link) :
    t.faultRecords l cs = s.faultRecords l cs := by
  induction cs generalizing l with
  | nil => rfl
  | cons c cs ih => simp only [State.faultRecords, h, ih]

/-- All that a leaf fault's clearing of credits does beside the aisle (R89, R123). -/
theorem clearCredits_fault_spec (cs : List Credit) (s : State) :
    let t := cs.foldl (State.clearCredit .fault) s
    t.time = s.time ∧ t.service = s.service ∧ t.link = s.link.withFrames (cs.flatMap s.lapseFrames) ∧
      t.formed = s.formed ++ s.syncAnswers (cs.flatMap s.lapseFrames) ∧ t.host.resetTaken = s.host.resetTaken ∧
      Journals s t (s.faultRecords s.link cs) ∧ Lapsed s t cs := by
  induction cs generalizing s with
  | nil =>
    refine ⟨rfl, rfl, rfl, by simp [State.syncAnswers, Link.dropReplies], rfl, Journals.of_same rfl, rfl, rfl, fun o => ?_⟩
    exact (sighted_map_self fun x _ => by
      unfold Sighting.lapsedBy
      split
      · rename_i h
        simp at h
      · rfl).symm
  | cons c cs ih =>
    simp only [List.foldl_cons]
    let r := s.removeCredit c.slot
    have er := removeCredit_rest c.slot s
    have e : s.clearCredit .fault c = (r.append (c.unused .gateFault)).lapseCredit c := rfl
    let a := r.append (c.unused .gateFault)
    have h1 : Screened r a [] [c.unused .gateFault] := Screened.of_append r _
    have hr : r.screening = s.screening ∧ r.link = s.link ∧ r.journal = s.journal ∧ r.host = s.host ∧
        r.time = s.time ∧ r.service = s.service ∧ r.formed = s.formed := by
      have er' : r = _ := er
      rw [er']
      exact ⟨rfl, rfl, rfl, rfl, rfl, rfl, rfl⟩
    obtain ⟨hr1, hr2, hr3, hr4, hr5, hr6, hr7⟩ := hr
    have ha : a.screening = s.screening := (append_sightings _ r).trans hr1
    have fa : ∀ d, a.lapseFrames d = s.lapseFrames d := fun d => lapseFrames_congr fun o => by rw [ha]
    obtain ⟨h2, l1, l2, l3⟩ := lapseCredit_spec c a
    let b := a.lapseCredit c
    have h3 : Screened r b _ _ := h1.trans h2
    rw [fa] at h3
    have elink : a.link = s.link := h1.link.trans hr2
    have et : a.time = s.time ∧ a.service = s.service := by
      rw [h1.rest]
      exact ⟨hr5, hr6⟩
    have fb : ∀ d, b.lapseFrames d = s.lapseFrames d := fun d => by
      rw [← fa d]
      refine lapseFrames_congr fun o => ?_
      rw [l3]
      cases a.screening.sighted o with
      | none => rfl
      | some x => exact lapsedBy_lapseFrames [c] _ x d
    obtain ⟨i1, i2, i3, i4, i5, i6, j1, j2, j3⟩ := ih b
    rw [e]
    have bt : b.time = s.time := by rw [h3.rest, ← hr5]
    have bs : b.service = s.service := by rw [h3.rest, ← hr6]
    have bh : b.host.resetTaken = s.host.resetTaken := by rw [h3.host, ← hr4]
    have bl : b.link = s.link.withFrames (s.lapseFrames c) := by rw [h3.link, hr2]; rfl
    have efm : cs.flatMap b.lapseFrames = cs.flatMap s.lapseFrames := by
      congr 1
      exact funext fb
    refine ⟨i1.trans bt, i2.trans bs, ?_, ?_, i5.trans bh, ?_, ?_, ?_, fun o => ?_⟩
    · rw [i3, bl, efm, ← Link.withFrames_append]
      rfl
    · rw [i4, h3.formed, hr7, efm, List.append_assoc]
      congr 1
      simp only [State.syncAnswers, bh, bl, hr2, hr4, List.flatMap_cons, List.nil_append, Link.dropReplies_append]
      split <;> simp
    · have hb : Journals s b ([c.unused .gateFault] ++ s.link.dropRecords (s.lapseFrames c)) := by
        have := h3.records
        rw [elink] at this
        exact ⟨by simpa only [State.taken, hr3, hr5, hr6] using this.grown,
          by simpa only [State.taken, hr3, hr6] using this.halted⟩
      have := hb.append i6 bt (by rw [bs])
      rw [faultRecords_congr cs fb, bl] at this
      simpa [State.faultRecords] using this
    · rw [j1, l1, ha]
    · rw [j2, l2, ha]
    · rw [j3, l3, ha, bt, bs, et.1, et.2, Option.map_map]
      congr 1
      funext x
      exact lapsedBy_cons c cs _ x

end Sys2Proof.Machine
end

