-- ==== Sys2Proof/Laws/Taps.lean ====
section
/-! SUPPORT. `Inner` for what the reader ports do with a tap. -/

namespace Sys2Proof.Machine

variable {s t : State}

/-! ## The context and the port -/

theorem onCtx_inner (side : Side) (f : TapContext → TapContext) (h : Inner s t) : Inner s (t.onCtx side f) :=
  onPort_inner _ _ h

theorem closeTap_inner (side : Side) (named : PortState) (h : Inner s t) : Inner s (t.closeTap side named) :=
  judgeDrain_inner (onPort_inner _ _ h)

theorem endExchange_inner (side : Side) (h : Inner s t) : Inner s (t.endExchange side) := onPort_inner _ _ h

theorem askIn_inner (side : Side) (st : PortState) (r : CardRequest) (h : Inner s t) :
    Inner s (t.askIn side st r) := onPort_inner _ _ h

theorem releaseTap_inner (side : Side) (h : Inner s t) : Inner s (t.releaseTap side) := by
  unfold State.releaseTap
  split
  · exact freeSlot_inner _ (onCtx_inner _ _ h)
  · exact onClaim_inner _ h

theorem holdStop_inner (side : Side) (h : Inner s t) : Inner s (t.holdStop side) := onPort_inner _ _ h

theorem endUnwrittenTap_inner (side : Side) (c : TapContext) (h : Inner s t) :
    Inner s (t.endUnwrittenTap side c) := by
  unfold State.endUnwrittenTap
  split
  · exact endUnwritten_inner _ _ h
  · exact h

/-! ## Refusals, the blocking write, successes -/

theorem recordRefusal_inner (c : TapContext) (reason : RefusalReason) (h : Inner s t) :
    Inner s (t.recordRefusal c reason) := by
  unfold State.recordRefusal
  split
  · exact h
  · exact append_inner _ h

theorem refuse_inner (side : Side) (reason : RefusalReason) (h : Inner s t) : Inner s (t.refuse side reason) := by
  unfold State.refuse
  split
  · exact h
  · exact closeTap_inner _ _ (holdStop_inner _ (giveResult_inner _ _ (releaseTap_inner _
      (endUnwrittenTap_inner _ _ (recordRefusal_inner _ _ h)))))

theorem startBlock_inner (side : Side) (v : Verdict) (h : Inner s t) : Inner s (t.startBlock side v) := by
  unfold State.startBlock
  split
  · exact h
  · exact askIn_inner _ _ _ (onPort_inner _ _ h)

theorem endBlock_inner (side : Side) (confirmed : Bool) (h : Inner s t) : Inner s (t.endBlock side confirmed) := by
  unfold State.endBlock
  split
  · exact h
  · simp only
    split
    · exact refuse_inner _ _ (append_inner _ h)
    · exact closeTap_inner _ _ (holdStop_inner _ (giveResult_inner _ _ (append_inner _ h)))

theorem handOver_inner (side : Side) (origin : CreditOrigin) (h : Inner s t) : Inner s (t.handOver side origin) := by
  unfold State.handOver
  split
  · exact h
  · split
    · split
      · exact formCredit_inner _ _ _ (onCtx_inner _ _ h)
      · exact releaseTap_inner _ h
    · exact h

theorem succeed_inner (side : Side) (c : TapContext) (outcome : TapOutcome) (origin : Option CreditOrigin)
    (h : Inner s t) : Inner s (t.succeed side c outcome origin) := by
  unfold State.succeed
  refine closeTap_inner _ _ (giveResult_inner _ _ ?_)
  split
  · exact handOver_inner _ _ h
  · exact releaseTap_inner _ h

theorem creditAndCommit_inner (side : Side) (card : CardNo) (origin : CreditOrigin) (h : Inner s t) :
    Inner s (t.creditAndCommit side card origin) := by
  unfold State.creditAndCommit
  have h1 : Inner s { t with freeReads := t.freeReads + 1 } := freeReads_inner _ h
  split
  · simp only
    split
    · exact commitSighting_inner _ _ (handOver_inner _ _ h1)
    · exact handOver_inner _ _ (commitSighting_inner _ _ h1)
  · exact handOver_inner _ _ (commitSighting_inner _ _ h)

theorem commit_inner (side : Side) (c : TapContext) (card : CardNo) (d : Decision) (img : Image) (h : Inner s t) :
    Inner s (t.commit side c card d img) :=
  closeTap_inner _ _ (giveResult_inner _ _ (creditAndCommit_inner _ _ _ (append_inner _ h)))

theorem commitMarked_inner (side : Side) (c : TapContext) (card : CardNo) (d : Decision) (img : Image)
    (h : Inner s t) : Inner s (t.commitMarked side c card d img) :=
  startBlock_inner _ _ (onCtx_inner _ _ (commitSighting_inner _ _ (releaseTap_inner _ (append_inner _ h))))

theorem inDoubt_inner (side : Side) (h : Inner s t) : Inner s (t.inDoubt side) := by
  unfold State.inDoubt
  split
  · exact h
  · refine closeTap_inner _ _ (holdStop_inner _ (giveResult_inner _ _ (releaseTap_inner _ ?_)))
    split
    · exact convert_inner _ _ h
    · exact h

/-! ## The purse write and the checks -/

theorem storeImage_inner (side : Side) (i : ImageRead) (img : Image) (h : Inner s t) :
    Inner s (t.storeImage side i img) := askIn_inner _ _ _ h

theorem switchToClone_inner (side : Side) (card : CardNo) (h : Inner s t) : Inner s (t.switchToClone side card) :=
  startBlock_inner _ _ (onCtx_inner _ _ (cloneOutcome_inner _ (endUnwritten_inner _ _ h)))

theorem beginWrite_inner (side : Side) (card : CardNo) (i : ImageRead) (d : Decision) (body : Image)
    (h : Inner s t) : Inner s (t.beginWrite side card i d body) := by
  unfold State.beginWrite
  simp only
  split
  · exact switchToClone_inner _ _ (onCtx_inner _ _ h)
  · exact storeImage_inner _ _ _ (storeSent_inner _ _ _ (onCtx_inner _ _ (onCtx_inner _ _ h)))

theorem voidWrite_inner (side : Side) (card : CardNo) (h : Inner s t) : Inner s (t.voidWrite side card) := by
  unfold State.voidWrite
  split
  · exact switchToClone_inner _ _ h
  · exact refuse_inner _ _ h

theorem checkJourney_inner (side : Side) (c : TapContext) (card : CardNo) (i : ImageRead) (tapTime : Nat)
    (h : Inner s t) : Inner s (t.checkJourney side c card i tapTime) := by
  unfold State.checkJourney
  split
  · exact refuse_inner _ _ h
  · exact succeed_inner _ _ _ _ (endUnwrittenTap_inner _ _ (append_inner _ h))
  · exact succeed_inner _ _ _ _ (endUnwrittenTap_inner _ _ h)
  · exact beginWrite_inner _ _ _ _ _ h

theorem checkSighting_inner (side : Side) (c : TapContext) (card : CardNo) (i : ImageRead) (tapTime : Nat)
    (h : Inner s t) : Inner s (t.checkSighting side c card i tapTime) := by
  unfold State.checkSighting
  simp only
  have h1 := onCtx_inner side (fun x =>
    { x with
      image := some i, screening := some (t.screen side card i.image.balance i.image.seen).2 })
    (screen_inner side card i.image.balance i.image.seen h)
  split
  · exact startBlock_inner _ _ h1
  · exact succeed_inner _ _ _ _ h1
  · exact succeed_inner _ _ _ _ h1
  · exact checkJourney_inner _ _ _ _ _ h1

theorem checkImage_inner (side : Side) (c : TapContext) (card : CardNo) (tapTime : Nat) (h : Inner s t) :
    Inner s (t.checkImage side c card tapTime) := by
  unfold State.checkImage
  split
  · exact refuse_inner _ _ h
  · exact checkSighting_inner _ _ _ _ _ h

theorem checkDeny_inner (side : Side) (c : TapContext) (card : CardNo) (tapTime : Nat) (h : Inner s t) :
    Inner s (t.checkDeny side c card tapTime) := by
  unfold State.checkDeny
  split
  · split
    · exact refuse_inner _ _ h
    · exact startBlock_inner _ _ h
  · exact checkImage_inner _ _ _ _ h

theorem screenTap_inner (side : Side) (c : TapContext) (hd : Header) (card : CardNo) (h : Inner s t) :
    Inner s (t.screenTap side c hd card) := by
  unfold State.screenTap
  have h1 := onCtx_inner side (fun x => { x with tapTime := some t.time.now })
    (onPort_inner side (fun p => { p with state := .screening, exchange := none }) h)
  simp only
  split
  · exact refuse_inner _ _ h1
  · exact checkDeny_inner _ _ _ _ h1

/-! ## Checks 1 to 3 -/

theorem freeExit_inner (side : Side) (h : Inner s t) : Inner s (t.freeExit side) := onPort_inner _ _ h

theorem requestSlot_inner (side : Side) (h : Inner s t) : Inner s (t.requestSlot side) := by
  unfold State.requestSlot
  split
  · exact grantPort_inner _ h
  · exact onPort_inner _ _ (onClaim_inner _ h)

theorem emergencyPath_inner (side : Side) (h : Inner s t) : Inner s (t.emergencyPath side) := by
  unfold State.emergencyPath
  split
  · exact refuse_inner _ _ h
  · exact freeExit_inner _ h

theorem checkAisle_inner (side : Side) (h : Inner s t) : Inner s (t.checkAisle side) := by
  unfold State.checkAisle
  split
  · exact emergencyPath_inner _ h
  · exact requestSlot_inner _ h

theorem detect_inner (side : Side) (card : CardNo) (h : Inner s t) : Inner s (t.detect side card) := by
  unfold State.detect
  simp only
  split
  · exact closeTap_inner _ _ (onPort_inner _ _ h)
  · split
    · exact refuse_inner _ _ (onPort_inner _ _ h)
    · exact checkAisle_inner _ (onPort_inner _ _ h)

theorem collide_inner (side : Side) (h : Inner s t) : Inner s (t.collide side) :=
  refuse_inner _ _ (onPort_inner _ _ h)

theorem vanish_inner (side : Side) (named : PortState) (h : Inner s t) : Inner s (t.vanish side named) :=
  closeTap_inner _ _ (onClaim_inner _ h)

/-! ## Answers and windows -/

theorem summoned_inner (side : Side) (card : CardNo) (collided : Bool) (h : Inner s t) :
    Inner s (t.summoned side card collided) := by
  unfold State.summoned
  split
  · split
    · exact collide_inner _ h
    · exact detect_inner _ _ h
  · split
    · exact refuse_inner _ _ h
    · split
      · exact endExchange_inner _ h
      · exact vanish_inner _ _ h
  all_goals exact endExchange_inner _ h

theorem readingAnswer_inner (side : Side) (c : TapContext) (area : Area) (content : List Byte) (h : Inner s t) :
    Inner s (t.readingAnswer side c area content) := by
  unfold State.readingAnswer
  split
  · split
    · exact askIn_inner _ _ _ (onCtx_inner _ _ h)
    · exact refuse_inner _ _ h
  · exact askIn_inner _ _ _ (onCtx_inner _ _ h)
  · exact screenTap_inner _ _ _ _ (onCtx_inner _ _ h)
  · exact endExchange_inner _ h

theorem imageReadback_inner (side : Side) (c : TapContext) (card : CardNo) (i : ImageRead) (d : Decision)
    (img : Image) (area : Area) (content : List Byte) (h : Inner s t) :
    Inner s (t.imageReadback side c card i d img area content) := by
  unfold State.imageReadback
  have h1 := onPort_inner side (fun p => { p with deadline := .stopped, exchange := none }) h
  split
  · split
    · simp only
      split
      · exact commitMarked_inner _ _ _ _ _ h1
      · exact commit_inner _ _ _ _ _ h1
    · exact askIn_inner _ _ _ h
  · split
    · exact storeImage_inner _ _ _ (onCtx_inner _ _ h)
    · exact voidWrite_inner _ _ h

theorem confirmingAnswer_inner (side : Side) (c : TapContext) (area : Area) (content : List Byte)
    (h : Inner s t) : Inner s (t.confirmingAnswer side c area content) := by
  unfold State.confirmingAnswer
  split
  · exact endBlock_inner _ _ h
  · exact imageReadback_inner _ _ _ _ _ _ _ _ h
  · exact endExchange_inner _ h

theorem fetched_inner (side : Side) (area : Area) (content : List Byte) (h : Inner s t) :
    Inner s (t.fetched side area content) := by
  unfold State.fetched
  split
  · exact endExchange_inner _ h
  · split
    · exact readingAnswer_inner _ _ _ _ h
    · exact confirmingAnswer_inner _ _ _ _ h
    all_goals exact endExchange_inner _ h

theorem stored_inner (side : Side) (area : Area) (h : Inner s t) : Inner s (t.stored side area) :=
  askIn_inner _ _ _ h

theorem wrongAnswer_inner (side : Side) (h : Inner s t) : Inner s (t.wrongAnswer side) := onPort_inner _ _ h

theorem retry_inner (side : Side) (error : Bool) (h : Inner s t) : Inner s (t.retry side error) :=
  onPort_inner _ _ h

theorem retrySummon_inner (side : Side) (error : Bool) (h : Inner s t) : Inner s (t.retrySummon side error) := by
  unfold State.retrySummon
  split
  · exact retry_inner _ _ h
  · exact onPort_inner _ _ h

theorem summonWindow_inner (side : Side) (x : Exchange) (error : Bool) (h : Inner s t) :
    Inner s (t.summonWindow side x error) := by
  unfold State.summonWindow
  split
  · split
    · exact retrySummon_inner _ _ h
    · exact endExchange_inner _ h
  · split
    · exact retrySummon_inner _ _ h
    · split
      · exact endExchange_inner _ h
      · exact onPort_inner _ _ h
  · split
    · exact retrySummon_inner _ _ h
    · exact vanish_inner _ _ (onPort_inner _ _ h)
  all_goals exact endExchange_inner _ h

theorem fetchFailed_inner (side : Side) (area : Area) (h : Inner s t) : Inner s (t.fetchFailed side area) := by
  unfold State.fetchFailed
  split
  · exact refuse_inner _ _ h
  · split
    · exact endBlock_inner _ _ h
    · exact inDoubt_inner _ h
  all_goals exact endExchange_inner _ h

theorem areaWindow_inner (side : Side) (error : Bool) (failed : State → State)
    (hf : ∀ u, Inner s u → Inner s (failed u)) (h : Inner s t) : Inner s (t.areaWindow side error failed) := by
  unfold State.areaWindow
  split
  · exact retry_inner _ _ h
  · exact hf _ (onPort_inner _ _ h)

theorem windowClosed_inner (side : Side) (seen : Bool) (h : Inner s t) : Inner s (t.windowClosed side seen) := by
  unfold State.windowClosed
  split
  · exact h
  · simp only
    split
    · exact summonWindow_inner _ _ _ h
    · exact areaWindow_inner _ _ _ (fun _ => fetchFailed_inner _ _) h
    · exact areaWindow_inner _ _ _ (fun _ => stored_inner _ _) h

theorem deadlineExpired_inner (side : Side) (h : Inner s t) : Inner s (t.deadlineExpired side) := by
  unfold State.deadlineExpired
  split
  · exact h
  · have h1 : Inner s (t.onPort side Port.abandon) := onPort_inner _ _ h
    simp only
    split
    · exact inDoubt_inner _ h1
    · exact refuse_inner _ _ h1

end Sys2Proof.Machine
end

