-- ==== Sys2Proof/Laws/Link.lean ====
section
/-! SUPPORT. `Inner` for the Emergency Unit's judging (R145) and the operations of the Aisle Link Controller. An
operation that changes a contribution judges the line emergency state at once, so the two are one lemma. -/

namespace Sys2Proof.Machine

variable {s t : State}

/-! ## The line emergency state -/

theorem emergencyPortU_inner (h : Inner s t) : Inner s t.emergencyPortU := by
  unfold State.emergencyPortU
  split
  · exact refuse_inner _ _ h
  · exact h

theorem emergencyPortP_inner (h : Inner s t) : Inner s t.emergencyPortP := by
  unfold State.emergencyPortP
  split
  · exact freeExit_inner _ h
  · exact h

theorem emergencyStarts_inner (cause : EmergencyCause) (h : Inner s t) : Inner s (t.emergencyStarts cause) :=
  emergencyPortP_inner (emergencyPortU_inner (aisleEmergency_inner (raise_inner _ (append_inner _
    (onClaim_inner _ h)))))

theorem emergencyEnds_inner (cause : EmergencyCause) (h : Inner s t) : Inner s (t.emergencyEnds cause) :=
  settleLeaves_inner (raise_inner _ (append_inner _ h))

/-- Whatever the line emergency state was, judging makes it what it is judged to be (R145). -/
theorem judgeEmergency_inner (cause : EmergencyCause) (h : Inner0 s t) : Inner s (t.judgeEmergency cause) := by
  unfold State.judgeEmergency
  split
  · rename_i hj
    exact emergencyStarts_inner _ { h with line := fun _ => hj.symm }
  · rename_i hj
    exact emergencyEnds_inner _ { h with line := fun _ => hj.symm }
  · rename_i hl hj
    exact { h with line := fun _ => hl.trans hj.symm }
  · rename_i hl hj
    exact { h with line := fun _ => hl.trans hj.symm }

theorem onEmergency_inner0 (f : Emergency → Emergency) (h : Inner0 s t) : Inner0 s (t.onEmergency f) := { h with }

theorem changeOwn_inner (f : Emergency → Emergency) (cause : EmergencyCause)
    (hf : (f t.emergency).line = t.emergency.line) (h : Inner s t) : Inner s (t.changeOwn f cause) := by
  unfold State.changeOwn
  simp only
  split
  · rename_i own
    refine { onEmergency_inner0 f h.toInner0 with line := fun o => ?_ }
    have := h.line o
    simp only [State.lineOk, State.lineJudged, State.onEmergency_emergency, State.onEmergency_link] at this own ⊢
    rw [hf, own]
    exact this
  · exact raise_inner _ (judgeEmergency_inner _
      (onLink_inner0 _ id rfl (onEmergency_inner0 f h.toInner0)))

/-! ## Cuts and choices on the link -/

@[simp] theorem Link.cutTx_rows (l : Link) : l.cutTx.rows = l.rows := rfl

/-- A frame cut short leaves the queue as long as it was, with nothing in transmission. -/
theorem Link.cutTx_ok {l : Link} (o : l.queueOk) : l.cutTx.queueOk := by
  refine ⟨by simpa [Link.cutTx] using o.1, ?_⟩
  have : l.cutTx.queue.countP QItem.inTx = 0 := by
    simp [Link.cutTx, List.countP_eq_zero]
  omega

/-- Any frame of the link's own making in transmission is as good. -/
theorem Link.queueOk_cut {l m : Link} (o : l.queueOk) (hq : m.queue = l.cutTx.queue) : m.queueOk := by
  have h0 := Link.cutTx_ok o
  have : l.cutTx.queue.countP QItem.inTx = 0 := by
    simp [Link.cutTx, List.countP_eq_zero]
  exact ⟨by rw [hq]; exact h0.1, by rw [hq, this]; exact Nat.zero_le _⟩

theorem changeFirst_send (p : QItem → Bool) (xs : List QItem) :
    (changeFirst p QItem.send xs).countP QItem.inTx ≤ xs.countP QItem.inTx + 1 := by
  induction xs with
  | nil => simp [changeFirst]
  | cons x xs ih =>
    simp only [changeFirst]
    split
    · simp only [List.countP_cons]
      have : (if (QItem.send x).inTx = true then 1 else 0) = 1 := rfl
      split <;> omega
    · simp only [List.countP_cons]
      omega

theorem chooseFirst_ok {p : QItem → Bool} {xs ys : List QItem} (h : chooseFirst p xs = some ys) :
    ys.length = xs.length ∧ ys.countP QItem.inTx ≤ xs.countP QItem.inTx + 1 := by
  unfold chooseFirst at h
  split at h
  · cases h
    exact ⟨changeFirst_length _ _ _, changeFirst_send _ _⟩
  · simp at h

theorem chooseEligible_ok {ahead : List CardNo} {xs ys : List QItem} (h : chooseEligible ahead xs = some ys) :
    ys.length = xs.length ∧ ys.countP QItem.inTx ≤ xs.countP QItem.inTx + 1 := by
  induction xs generalizing ahead ys with
  | nil => simp [chooseEligible] at h
  | cons x xs ih =>
    have keep : ∀ a : List CardNo, (chooseEligible a xs).map (x :: ·) = some ys →
        ys.length = (x :: xs).length ∧ ys.countP QItem.inTx ≤ (x :: xs).countP QItem.inTx + 1 := by
      intro a ha
      obtain ⟨zs, hz, rfl⟩ := Option.map_eq_some_iff.1 ha
      have := ih hz
      simp only [List.length_cons, List.countP_cons]
      omega
    have send_ : (x.send :: xs).length = (x :: xs).length ∧
        (x.send :: xs).countP QItem.inTx ≤ (x :: xs).countP QItem.inTx + 1 := by
      have : (if (QItem.send x).inTx = true then 1 else 0) = 1 := rfl
      refine ⟨rfl, ?_⟩
      simp only [List.countP_cons]
      omega
    simp only [chooseEligible] at h
    split at h
    · exact keep _ h
    · exact keep _ h
    · split at h
      · exact keep _ h
      · cases h; exact send_
    · split at h
      · exact keep _ h
      · cases h; exact send_

theorem chooseData_ok {xs ys : List QItem} (h : chooseData xs = some ys) :
    ys.length = xs.length ∧ ys.countP QItem.inTx ≤ xs.countP QItem.inTx + 1 := by
  unfold chooseData at h
  rcases Option.or_eq_some_iff.1 h with h | ⟨_, h⟩
  · rcases Option.or_eq_some_iff.1 h with h | ⟨_, h⟩
    · exact chooseFirst_ok h
    · exact chooseEligible_ok h
  · exact chooseFirst_ok h

/-- What an operation of the link's own does: rows and invariant stay. -/
structure Link.Keeps (l m : Link) : Prop where
  rows : m.rows = l.rows
  queue : l.queueOk → m.queueOk

theorem keeps_inner {f : Link → Link} (hf : t.link.Keeps (f t.link)) (h : Inner s t) : Inner s (t.onLink f) :=
  onLink_inner f hf.queue (by rw [hf.rows]) h

variable (l : Link)

theorem Link.restartSilence_keeps (clock : Nat) : l.Keeps (l.restartSilence clock) := ⟨rfl, id⟩

theorem Link.cutTx_keeps : l.Keeps l.cutTx := ⟨rfl, Link.cutTx_ok⟩

theorem Link.dropToken_keeps (clock : Nat) : l.Keeps (l.dropToken clock) :=
  ⟨rfl, fun o => Link.queueOk_cut o rfl⟩

theorem Link.atRest_keeps (addr : Nat) : l.Keeps (l.atRest addr) := ⟨rfl, fun o => Link.queueOk_cut o rfl⟩

theorem Link.send_keeps (tx : LinkTx) : l.Keeps (l.send tx) := ⟨rfl, fun o => Link.queueOk_cut o rfl⟩

theorem Link.passTo_keeps (a : Nat) : l.Keeps (l.passTo a) := ⟨rfl, fun o => Link.queueOk_cut o rfl⟩

theorem Link.loneHolder_keeps (clock : Nat) : l.Keeps (l.loneHolder clock) :=
  ⟨rfl, fun o => Link.queueOk_cut o rfl⟩

theorem Link.pass_keeps (clock : Nat) : l.Keeps (l.pass clock) := by
  unfold Link.pass
  split
  · exact Link.passTo_keeps _ _
  · exact Link.loneHolder_keeps _ _

theorem Link.invite_keeps (a : Nat) : l.Keeps (l.invite a) := ⟨rfl, fun o => Link.queueOk_cut o rfl⟩

theorem Link.endFrames_keeps (clock : Nat) : l.Keeps (l.endFrames clock) := by
  unfold Link.endFrames
  split
  · split
    · exact Link.invite_keeps _ _
    · exact Link.pass_keeps _ _
  · exact Link.pass_keeps _ _

theorem Link.nextInTurn_keeps (clock : Nat) (own : Bool) : l.Keeps (l.nextInTurn clock own) := by
  unfold Link.nextInTurn
  split
  · exact Link.endFrames_keeps _ _
  · split
    · exact Link.send_keeps _ _
    · rename_i queue _ hd
      refine ⟨rfl, fun o => ?_⟩
      have h0 := Link.cutTx_ok o
      have h1 := chooseData_ok hd
      have h2 : l.cutTx.queue.countP QItem.inTx = 0 := by
        simp [Link.cutTx, List.countP_eq_zero]
      refine ⟨h1.1.le.trans h0.1, ?_⟩
      show queue.countP QItem.inTx ≤ 1
      omega
    · exact Link.endFrames_keeps _ _

theorem Link.goOn_keeps (clock : Nat) (own : Bool) : l.Keeps (l.goOn clock own) := by
  unfold Link.goOn
  split
  · exact ⟨rfl, fun o => Link.queueOk_cut o rfl⟩
  · exact Link.nextInTurn_keeps _ _ _

theorem Link.choose_keeps (clock : Nat) (own : Bool) : l.Keeps (l.choose clock own) := by
  unfold Link.choose
  split
  · exact Link.nextInTurn_keeps _ _ _
  · exact ⟨rfl, id⟩

theorem Link.beginTx_keeps (clock : Nat) (own : Bool) : l.Keeps (l.beginTx clock own) :=
  ⟨(Link.choose_keeps l clock own).rows, (Link.choose_keeps l clock own).queue⟩

theorem Link.Keeps.trans {l m n : Link} (h1 : l.Keeps m) (h2 : m.Keeps n) : l.Keeps n :=
  ⟨h2.rows.trans h1.rows, fun o => h2.queue (h1.queue o)⟩

theorem Link.beginTurn_keeps (clock : Nat) (own : Bool) : l.Keeps (l.beginTurn clock own) := by
  refine Link.Keeps.trans ?_ (Link.goOn_keeps _ clock own)
  exact ⟨rfl, fun o => Link.queueOk_cut o rfl⟩

theorem Link.openWindow_keeps (clock : Nat) : l.Keeps (l.openWindow clock) :=
  ⟨rfl, fun o => Link.queueOk_cut o rfl⟩

theorem Link.dataSent_keeps : l.Keeps l.dataSent := by
  refine ⟨rfl, fun o => ?_⟩
  have h0 : ({ l with queue := dropFirst QItem.inTx l.queue } : Link).queueOk :=
    Link.queueOk_sublist o (dropFirst_sublist _ _) rfl
  exact Link.queueOk_cut h0 rfl

theorem Link.emergencyGone_keeps (assert : Bool) : l.Keeps (l.emergencyGone assert) :=
  ⟨rfl, fun o => Link.queueOk_cut o rfl⟩

theorem Link.retryPass_keeps (a : Nat) : l.Keeps (l.retryPass a) := ⟨rfl, fun o => Link.queueOk_cut o rfl⟩

/-! ## Rows -/

@[simp] theorem Link.setRow_length (a : Nat) (r : MemberRow) : (l.setRow a r).rows.length = l.rows.length := by
  cases a <;> simp [Link.setRow]

theorem Link.setRow_queueOk (a : Nat) (r : MemberRow) (o : l.queueOk) : (l.setRow a r).queueOk := by
  cases a <;> exact o

/-- A row set with the contribution it had leaves the contributions as they are. -/
theorem Link.setRow_contribution (a : Nat) (r : MemberRow) (hr : r.contribution = (l.row a).contribution) :
    (l.setRow a r).rows.map MemberRow.contribution = l.rows.map MemberRow.contribution := by
  cases a with
  | zero => rfl
  | succ k =>
    simp only [Link.setRow, Link.row] at hr ⊢
    refine List.ext_getElem (by simp) fun i h1 h2 => ?_
    simp only [List.getElem_map, List.getElem_set]
    split
    · rename_i e
      subst e
      simp only [List.length_map] at h2
      rw [hr, List.getD_eq_getElem _ _ h2]
    · rfl

/-- A row changed but for its contribution. -/
theorem setRow_inner (a : Nat) (r : MemberRow) (hr : r.contribution = (t.link.row a).contribution)
    (h : Inner s t) : Inner s (t.onLink fun l => l.setRow a r) :=
  onLink_inner _ (Link.setRow_queueOk _ _ _) (Link.setRow_contribution _ _ _ hr) h

theorem setRow_inner0 (a : Nat) (f : Link → MemberRow) (h : Inner0 s t) :
    Inner0 s (t.onLink fun l => l.setRow a (f l)) :=
  onLink_inner0 _ (Link.setRow_queueOk _ _ _) (Link.setRow_length _ _ _) h

theorem setContribution_inner (a : Nat) (c : Contribution) (cause : EmergencyCause) (h : Inner s t) :
    Inner s (t.setContribution a c cause) := judgeEmergency_inner _ (setRow_inner0 _ _ h.toInner0)

theorem heard_inner (a : Nat) (reason : Reason) (h : Inner s t) : Inner s (t.heard a reason) := by
  unfold State.heard
  have h1 := setRow_inner a { t.link.row a with present := true, lastHeard := some t.time.now } rfl h
  simp only
  split
  · exact h1
  · exact raise_inner _ (append_inner _ h1)

theorem loseRow_inner (a : Nat) (h : Inner s t) : Inner s (t.loseRow a) := by
  unfold State.loseRow
  simp only
  split
  · exact judgeEmergency_inner _ (setRow_inner0 _ _ h.toInner0)
  · exact h

theorem loseAll_inner (h : Inner s t) : Inner s t.loseAll := foldl_inner _ (fun _ _ => loseRow_inner _) _ h

theorem loseSuccessor_inner (a : Nat) (h : Inner s t) : Inner s (t.loseSuccessor a) :=
  judgeEmergency_inner _ (setRow_inner0 _ _
    (raise_inner _ (append_inner _ (setRow_inner a { t.link.row a with present := false } rfl h))).toInner0)

theorem blankOwnRow_inner (h : Inner s t) : Inner s t.blankOwnRow :=
  judgeEmergency_inner _ (onLink_inner0 _ (Link.setRow_queueOk _ _ _) (Link.setRow_length _ _ _) h.toInner0)

/-! ## The token -/

theorem takeToken_inner (h : Inner s t) : Inner s t.takeToken := by
  unfold State.takeToken
  refine keeps_inner (Link.beginTurn_keeps _ _ _) ?_
  split
  · exact raise_inner _ (onLink_inner _ id rfl h)
  · exact h

theorem continueTurn_inner (h : Inner s t) : Inner s t.continueTurn := keeps_inner (Link.goOn_keeps _ _ _) h

theorem passToken_inner (h : Inner s t) : Inner s t.passToken := keeps_inner (Link.pass_keeps _ _) h

theorem dropToken_inner (h : Inner s t) : Inner s t.dropToken := keeps_inner (Link.dropToken_keeps _ _) h

/-! ## Conflict and restart -/

theorem Link.conflicted_keeps (clock : Nat) : l.Keeps (l.conflicted clock) :=
  ⟨rfl, fun o => Link.queueOk_cut o rfl⟩

theorem conflict_inner (h : Inner s t) : Inner s t.conflict := by
  have h1 := loseAll_inner (keeps_inner (Link.conflicted_keeps t.link t.clock) h)
  exact judgeSyncs_inner (raise_inner _ (append_inner _ h1))

theorem Link.restarted_contributions (addr clock : Nat) :
    (l.restarted addr clock).rows.map MemberRow.contribution = l.rows.map MemberRow.contribution := by
  simp [Link.restarted, Link.restartSilence, Link.atRest, Link.forgetHeard]

theorem restarted_inner (addr clock : Nat) (h : Inner s t) : Inner s (t.onLink (Link.restarted addr clock)) :=
  onLink_inner _ (fun o => Link.queueOk_cut o rfl) (Link.restarted_contributions _ _ _) h

theorem restartLink_inner (addr : Nat) (h : Inner s t) : Inner s (t.restartLink addr) := by
  have h1 := restarted_inner addr (t.onLink (Link.dropToken t.clock)).loseAll.clock (loseAll_inner (dropToken_inner h))
  exact judgeSyncs_inner (raise_inner _ (blankOwnRow_inner h1))

/-! ## Taking a frame -/

theorem noReception_inner (h : Inner s t) : Inner s t.noReception := onLink_inner _ id rfl h

theorem endReception_inner (h : Inner s t) : Inner s t.endReception :=
  keeps_inner (Link.restartSilence_keeps _ _) (noReception_inner h)

theorem failInvitation_inner (h : Inner s t) : Inner s t.failInvitation := by
  unfold State.failInvitation
  split
  · exact passToken_inner h
  all_goals exact h

theorem discardFrame_inner (h : Inner s t) : Inner s t.discardFrame := by
  unfold State.discardFrame
  split
  · exact h
  · exact failInvitation_inner (endReception_inner h)

theorem idleFrame_inner (h : Inner s t) : Inner s t.idleFrame := by
  unfold State.idleFrame
  split
  · exact h
  · exact failInvitation_inner (noReception_inner h)

theorem meetFrame_inner (h : Inner s t) : Inner s t.meetFrame := by
  unfold State.meetFrame
  split
  · split
    · exact dropToken_inner h
    · exact h
  all_goals exact h

theorem takeFrame_inner (src : Byte) (act : Nat → State → State) (hf : ∀ a u, Inner s u → Inner s (act a u))
    (h : Inner s t) : Inner s (t.takeFrame src act) := by
  unfold State.takeFrame
  split
  · exact h
  · split
    · exact discardFrame_inner h
    · split
      · exact conflict_inner h
      · exact hf _ _ (endReception_inner h)

theorem takeOther_inner (src : Byte) (act : Nat → State → State) (hf : ∀ a u, Inner s u → Inner s (act a u))
    (h : Inner s t) : Inner s (t.takeOther src act) :=
  takeFrame_inner _ _ (fun _ _ h => hf _ _ (heard_inner _ _ (meetFrame_inner h))) h

theorem joinReply_inner (a : Nat) (h : Inner s t) : Inner s (t.joinReply a) := by
  unfold State.joinReply
  split
  · split
    · split
      · exact keeps_inner (Link.passTo_keeps _ _) (heard_inner _ _ h)
      · exact heard_inner _ _ (dropToken_inner h)
    · exact heard_inner _ _ h
  all_goals exact heard_inner _ _ h

theorem answerInvite_inner (a : Nat) (h : Inner s t) : Inner s (t.answerInvite a) := by
  unfold State.answerInvite
  refine keeps_inner (Link.send_keeps _ _) ?_
  split
  · exact h
  · exact dropToken_inner h

/-! ## Monitor events and windows -/

theorem lineStarts_inner (dest : Option Byte) (h : Inner s t) : Inner s (t.lineStarts dest) := by
  unfold State.lineStarts
  split
  · exact h
  · have h1 : Inner s (t.onLink fun l => { l with rxBegun := l.filters dest }) := onLink_inner _ id rfl h
    simp only
    split
    · exact keeps_inner (Link.restartSilence_keeps _ _) h1
    · exact dropToken_inner h1
    · exact dropToken_inner h1
    · split
      · exact h1
      · exact dropToken_inner h1

theorem choose_inner (h : Inner s t) : Inner s t.choose := keeps_inner (Link.choose_keeps _ _ _) h

theorem txEnds_inner (h : Inner s t) : Inner s t.txEnds := by
  unfold State.txEnds
  split
  · exact h
  · exact continueTurn_inner (judgeSyncs_inner (keeps_inner (Link.dataSent_keeps _) h))
  · exact continueTurn_inner (keeps_inner (Link.emergencyGone_keeps _ _) h)
  · exact keeps_inner (Link.openWindow_keeps _ _) h
  · exact keeps_inner (Link.openWindow_keeps _ _) h
  · exact keeps_inner (Link.cutTx_keeps _) h

theorem frameSent_inner (h : Inner s t) : Inner s t.frameSent := txEnds_inner (choose_inner h)

theorem passUnanswered_inner (h : Inner s t) : Inner s t.passUnanswered := by
  unfold State.passUnanswered
  split
  · split
    · exact h
    · split
      · exact keeps_inner (Link.retryPass_keeps _ _) h
      · exact passToken_inner (loseSuccessor_inner _ h)
  all_goals exact h

theorem inviteUnanswered_inner (h : Inner s t) : Inner s t.inviteUnanswered := by
  unfold State.inviteUnanswered
  split
  · split
    · exact h
    · split
      · exact onLink_inner _ id rfl h
      · exact passToken_inner h
  all_goals exact h

theorem loneWaitEnds_inner (h : Inner s t) : Inner s t.loneWaitEnds := by
  unfold State.loneWaitEnds
  split
  · exact keeps_inner (Link.beginTurn_keeps _ _ _) h
  · exact h

theorem silenceEnds_inner (h : Inner s t) : Inner s t.silenceEnds := by
  unfold State.silenceEnds
  split
  · exact takeToken_inner h
  · exact h

/-! ## Frames and deadlines of rows -/

theorem emergencyFrame_inner (assert : Bool) (a : Nat) (h : Inner s t) : Inner s (t.emergencyFrame assert a) := by
  unfold State.emergencyFrame
  split
  · exact setContribution_inner _ _ _ h
  · exact setContribution_inner _ _ _ h

theorem refreshReached_inner (a : Nat) (h : Inner s t) : Inner s (t.refreshReached a) := by
  unfold State.refreshReached
  split
  · split
    · exact setContribution_inner _ _ _ h
    · exact h
  all_goals exact h

theorem holdReached_inner (a : Nat) (h : Inner s t) : Inner s (t.holdReached a) := by
  unfold State.holdReached
  split
  · exact setContribution_inner _ _ _ h
  all_goals exact h

theorem inboundLapse_inner (card : CardNo) (img : SImage) (side : Side) (h : Inner s t) :
    Inner s (t.inboundLapse card img side) := by
  unfold State.inboundLapse
  split
  · exact h
  · split
    · exact h
    · split
      · split
        · exact putSighting_inner _ h
        · exact h
      · exact h
      · exact h

theorem inboundRegrant_inner (src : Nat) (card : CardNo) (img : SImage) (h : Inner s t) :
    Inner s (t.inboundRegrant src card img) := by
  unfold State.inboundRegrant
  split
  · exact h
  · split
    · exact h
    · split
      · split
        · refine putSighting_inner _ ?_
          unfold State.doubleRegrant
          split
          · exact noteFinding_inner _ _ (append_inner _ h)
          · exact h
        · exact h
      · exact h
      · exact h

theorem inboundDeny_inner (src : Nat) (card : CardNo) (h : Inner s t) : Inner s (t.inboundDeny src card) := by
  unfold State.inboundDeny
  split
  · exact denyFinding_inner _ _ h
  · exact h

end Sys2Proof.Machine
end

