-- ==== Sys2Proof/Tests/Slice0.lean ====
section
/-! SUPPORT. Tests: ill-formed commands that the well-formedness check refuses, the manual's worked cases, single steps
from small states, and for every statement with hypotheses a state and operands that meet them, clause by clause. -/

namespace Sys2Proof.Machine.Tests

open Sys2Proof Sys2Proof.Machine

/-! ## Well-formedness: one ill-formed command for each check -/

theorem test_wf_link_sources :
    ([.linkToken 0, .linkJoinInvite 17, .linkJoinReply 0, .linkSighting 17 1 0 0 1 0, .linkLapse 0 1 1 0 1,
      .linkRegrant 17 1 1 0, .linkDenyAdd 0 1, .linkEmergency 17 1, .refreshDeadline 0, .holdDeadline 17] :
      List Instr).all (fun c => !c.wf) = true := by decide

theorem test_wf_link_codes :
    ([.linkLapse 1 1 1 0 0, .linkLapse 1 1 1 0 3, .linkEmergency 1 0, .linkEmergency 1 3] : List Instr).all
      (fun c => !c.wf) = true := by decide

theorem test_wf_reader_answers :
    ([.summonAnswer .U 1 true, .fetchAnswer .U .header (List.replicate 7 0), .fetchAnswer .P .imageA [],
      .fetchAnswer .P .imageB (List.replicate 41 0)] : List Instr).all (fun c => !c.wf) = true := by decide

theorem test_wf_known_kind_is_not_unknown :
    ([.unknownKind 1 1, .unknownKind 1 30] : List Instr).all (fun c => !c.wf) = true := by decide

/-- Every request constructor. -/
def requests (tag : Byte) (b : List Byte) : List Instr :=
  [.identify tag b, .status tag b, .setTime tag b, .getTime tag b, .suspend tag b, .resume tag b, .reset tag b,
    .setStation tag b, .setZoneCount tag b, .loadZoneRow tag b, .loadBandSet tag b, .setClass tag b,
    .setParameters tag b, .selectScheme tag b, .retireScheme tag b, .denyAdd tag b, .denyRemove tag b,
    .denyClear tag b, .denyQuery tag b, .sightingQuery tag b, .syncLine tag b, .journalPeek tag b, .journalDrop tag b,
    .staffPass tag b, .holdOpen tag b, .holdRelease tag b, .gateReset tag b, .alarmClear tag b, .setEmergency tag b,
    .clearEmergency tag b]

theorem test_wf_longest_body : ((requests 1 []).all fun c => c.wf) = true := by decide

theorem test_wf_body_too_long : bodyOk (List.replicate 1025 0) = false ∧ bodyOk (List.replicate 1024 0) = true := by
  decide +kernel

theorem test_wf_requests_ask_for_the_body (tag : Byte) (b : List Byte) (h : bodyOk b = false) :
    ∀ c ∈ requests tag b, c.wf = false := by
  intro c hc
  simp only [requests, List.mem_cons, List.not_mem_nil, or_false] at hc
  rcases hc with rfl | rfl | rfl | rfl | rfl | rfl | rfl | rfl | rfl | rfl | rfl | rfl | rfl | rfl | rfl | rfl | rfl
    | rfl | rfl | rfl | rfl | rfl | rfl | rfl | rfl | rfl | rfl | rfl | rfl | rfl <;> exact h

/-! ## The queue and the table's words -/

theorem test_no_row_has_bits : decodeTableWord 8 0 = none ∧ State.reset.withFetchWord 8 0 = State.reset := ⟨rfl, rfl⟩

/-! ## Worked cases of the manual -/

/-- The network of the worked cases (03). -/
def network : Service :=
  { Service.initial { s1 := .current, s2 := .accepted, s3 := .accepted, s4 := .accepted } with
    state := .inService
    zoneCount := some 6
    rows :=
      [(1, [120, 180, 240, 300, 360, 420]), (2, [180, 120, 200, 300, 380, 440]), (3, [240, 200, 120, 220, 300, 360]),
        (4, [300, 310, 240, 120, 210, 280]), (5, [360, 360, 290, 210, 120, 200]), (6, [420, 440, 360, 280, 200, 120])]
    weekday :=
      some
        [{ start := 0, multiplier := 1000 }, { start := 420, multiplier := 1250 }, { start := 570, multiplier := 1000 },
          { start := 1020, multiplier := 1200 }, { start := 1140, multiplier := 1000 }]
    weekendSet := some [{ start := 0, multiplier := 900 }]
    classes :=
      { ClassTable.initial with
        c1 := { valid := true, discount := 0, cap := 0, overdraft := 500, entryMin := 100 }
        c2 := { valid := true, discount := 250, cap := 400, overdraft := 0, entryMin := 100 }
        c4 := { valid := true, discount := 500, cap := 600, overdraft := 200, entryMin := 0 } }
    station := some { number := 7, zones := { first := 3, second := none }, mode := .bidirectional } }

/-- Service day 3 is a Tuesday. -/
def tuesday : TimeBase := { now := 3 * 86400 + 12 * 3600, set := true, offset := 0, boundary := 180 }

/-- A time of that Tuesday. -/
def clock (h m : Nat) : Nat := 3 * 86400 + h * 3600 + m * 60

/-- A card that has left the system. -/
def card0 : Image :=
  { txc := 5, balance := 1125, journey := .outside, entryStation := 1, entryZones := { first := 2, second := none },
    entryTime := 0, originZones := { first := 2, second := none }, chainStart := clock 7 45, chainPaid := 0,
    chainLegs := 1, lastExit := none, graceUsed := false, capDay := 3, spent := 395, scheme := 1, stamp := 0 }

theorem test_case1_leg1 :
    network.priceExit tuesday network.classes.c4 { first := 3, second := none } card0 (clock 8 10) =
      some { charge := 125, balance := 1000, paid := 125, spent := 520, capDay := 3 } := by decide +kernel

theorem test_case1_leg2 :
    network.priceExit tuesday network.classes.c4 { first := 5, second := none }
        { card0 with balance := 1000, chainPaid := 125, spent := 520 } (clock 9 2) =
      some { charge := 80, balance := 920, paid := 205, spent := 600, capDay := 3 } := by decide +kernel

theorem test_case1_leg3 :
    network.priceExit tuesday network.classes.c4 { first := 6, second := none }
        { card0 with balance := 920, chainPaid := 205, spent := 600 } (clock 9 40) =
      some { charge := 0, balance := 920, paid := 205, spent := 600, capDay := 3 } := by decide +kernel

theorem test_case1_links :
    linkable network.params (clock 8 31)
        { card0 with lastExit := some { station := 7, time := clock 8 10 } } = true ∧
      linkable network.params (clock 9 45)
        { card0 with chainLegs := 3, lastExit := some { station := 7, time := clock 9 40 } } = false := by decide +kernel

theorem test_case2_border :
    network.priceExit tuesday network.classes.c2 { first := 2, second := some 3 }
        { card0 with
          balance := 640, originZones := { first := 4, second := some 5 }, chainStart := clock 11 20, capDay := 2,
          spent := 150 } (clock 12 0) =
      some { charge := 180, balance := 460, paid := 180, spent := 180, capDay := 3 } := by decide +kernel

theorem test_case3_missing_entry :
    network.priceMissing tuesday network.classes.c1 { first := 3, second := none }
        { card0 with balance := 300, capDay := 1 } (clock 18 10) =
      some { charge := 432, balance := -132, paid := 432, spent := 432, capDay := 3 } ∧
      network.priceMissing tuesday network.classes.c1 { first := 3, second := none }
        { card0 with balance := -100 } (clock 18 10) = none ∧
      network.missingBase [4, 5] = 300 := by decide +kernel

theorem test_case4_saturates :
    scaled 20000 4000 = 65535 ∧ surcharged Params.default 65535 12600 = 65535 ∧
      settleFare tuesday { valid := true, discount := 0, cap := 0, overdraft := 0, entryMin := 0 }
          { card0 with balance := 500000, spent := 1200 } (clock 18 10) 65535 0 =
        some { charge := 65535, balance := 434465, paid := 65535, spent := 65535, capDay := 3 } := by decide +kernel

theorem test_case5_clock_set_back : elapsed (clock 8 0 + 10) (clock 8 0 + 40) = 0 := by decide +kernel

/-- The time base of the worked case of 04. -/
def saturday : TimeBase := { now := 604807200, set := true, offset := 60, boundary := 180 }

theorem test_service_days_near_the_boundary :
    [604797000, 604801800, 604807199, 604807200].map
        (fun t => (saturday.serviceDay t, dayOfWeek (saturday.serviceDay t), saturday.minuteOfDay t)) =
      [(6999, 4, 10), (6999, 4, 90), (6999, 4, 179), (7000, 5, 180)] := by decide +kernel

theorem test_time_before_the_first_midnight :
    ({ saturday with offset := -60 } : TimeBase).minuteOfDay 0 = 1380 ∧
      ({ saturday with offset := -60 } : TimeBase).serviceDay 0 = 0 := by decide +kernel

/-! ## Formats -/

theorem test_crc_check_value : crc16 [49, 50, 51, 52, 53, 54, 55, 56, 57] = 0x29B1 := by decide +kernel

theorem test_frame_lengths :
    (linkFrame 2 1 1 []).length = 6 ∧ (LinkMsg.sighting 1 ⟨0, 0⟩ ⟨1, 0⟩).body.length = 16 ∧
      (LinkMsg.lapse 1 ⟨0, 0⟩ .U).body.length = 11 ∧ (LinkMsg.regrant 1 ⟨0, 0⟩).body.length = 10 ∧
      (LinkMsg.denyAdd 1).body.length = 4 ∧ (CardRequest.frame .summon).length = 3 ∧
      (CardRequest.frame (.fetch .header)).length = 4 := by decide +kernel

/-- A record with no optional field. -/
def plainRecord (n : Nat) : Record := { serial := n, time := 0, body := { kind := .alarm } }

theorem test_peek_reply_lengths :
    (plainRecord 1).bytes.length = 35 ∧
      (ReplyBody.peeked { count := 0, oldest := none, next := 1, halted := false } []).bytes.length = 17 ∧
      (ReplyBody.peeked { count := 8, oldest := some 1, next := 9, halted := false }
        ((List.range 8).map fun i => plainRecord (i + 1))).bytes.length = 297 := by decide +kernel

theorem test_kind_numbers :
    RecKind.entry.code = 1 ∧ RecKind.cardBlocked.code = 7 ∧ RecKind.refusal.code = 10 ∧
      RecKind.unusedCredit.code = 16 ∧ RecKind.membership.code = 22 ∧
      ReqKind.setEmergency.code = 29 ∧ ReqKind.clearEmergency.code = 30 ∧
      (NoticeBody.tapResult .U none).kindCode = 134 ∧ (NoticeBody.tapResult .P none).kindCode = 135 := by decide +kernel

theorem test_host_receiver_reads_an_identify_frame :
    hostRun none (hostFrame 1 1 []) = (none, [.identify 1 []]) ∧
      hostRun none [165, 0, 0, 1, 1, 0, 0] = (none, [.hostFrameBadCrc]) := by decide +kernel

/-! ## Small states -/

/-- The part in service with the network of the worked cases, on a Tuesday at noon. -/
def serving : State := { State.reset with service := network, time := tuesday }

/-- A state with other host link contents. -/
def withHost (f : HostLink → HostLink) : State := serving.onHost f

/-- A state with other aisle contents. -/
def withAisle (f : Passage → Passage) : State := serving.onPassage f

/-- A state whose service state is another. -/
def inState (st : ServiceState) : State := serving.onService fun v => { v with state := st }

/-- A context of Port U for card 17. -/
def tapU : TapContext := { TapContext.fresh .U (some 17) with path := some .normal, slot := some .one }

/-- The header of card 17, a valid senior card. -/
def header17 : Header := { card := 17, cls := 4, status := .active, expiry := 3 }

/-- Port U in a state of the dialogue with card 17. -/
def dialogue (st : PortState) (r : CardRequest) (c : TapContext) : State :=
  serving.onPort .U fun p =>
    { p with
      state := st, attempts := 0, deadline := .running 300, ctx := some c,
      exchange := some { request := r, windowError := false, earlierError := false } }

/-- A sighting entry of card 17. -/
def entry17 (st : SightState) : Sighting :=
  { card := 17, baseline := { txc := 5, stamp := 9 }, state := st, updated := 0, touched := 0 }

/-- A part that holds one sighting entry. -/
def sighting17 (st : SightState) : State := serving.onScreening fun c => { c with sightings := [entry17 st] }

/-- A member of the line at address 1, with gate 2 present. -/
def member : State :=
  serving.onLink fun l =>
    { l with
      addr := 1, state := .member,
      rows := [MemberRow.blank, { MemberRow.blank with present := true }] ++ List.replicate 14 MemberRow.blank }

/-- A queued frame. -/
def frame17 : QItem := { msg := .denyAdd 17, marks := [], inTx := false }

/-- A member that is sending the first of two queued frames. -/
def sending : State :=
  member.onLink fun l =>
    { l with
      token := .sending, tx := some .data, txBegun := true,
      queue := [{ frame17 with inTx := true }, { frame17 with msg := .denyAdd 18 }] }

/-- A credit of origin TAP on slot 1. -/
def credit17 : Credit := { slot := .one, direction := .inbound, origin := .tap 1 17, state := .unassigned 8000 }

/-! ## Single steps -/

theorem test_power_on_with_quiet_pins : execPowerOn quietPins State.reset = .next State.reset := rfl

theorem test_idle_step_advances_the_clock : step State.reset = .next { State.reset with clock := 1 } := rfl

theorem test_drive_enable_is_released_between_two_frames :
    (match exec .linkFrameSent sending with
      | .next t =>
        t.link.tx == none && t.link.due && !t.driveEnable &&
          (match step t with
            | .next u => u.link.tx == some .data && u.driveEnable
            | _ => false)
      | _ => false) = true := by decide

theorem test_an_emergency_between_two_frames_is_sent_next :
    (match exec .linkFrameSent sending with
      | .next t =>
        match step (t.onEmergency fun e => { e with hostFlag := true, line := true }) with
        | .next u => u.link.tx == some (.emergency true) && u.link.queue.length == 1
        | _ => false
      | _ => false) = true := by decide

theorem test_monitor_does_not_run_while_driving :
    exec (.lineTransmissionStart (some 255)) sending = .next sending := rfl

theorem test_invitation_not_begun_is_dropped :
    (match exec (.lineTransmissionStart (some 255))
        (member.onLink fun l => { l with token := .sending, due := true, inviteDue := true }) with
      | .next t => t.link.token == .waiting && !t.link.due && t.link.pointer == member.link.pointer
      | _ => false) = true := rfl

theorem test_no_pass_is_retried_before_its_window :
    (match exec .passWindowExpiry (member.onLink fun l => { l with token := .passing 2 1, tx := some (.token 2) }) with
      | .next t => t.link.token == .passing 2 1
      | _ => false) = true := rfl

theorem test_line_codes : lineCode true = 1 ∧ lineCode false = 2 := ⟨rfl, rfl⟩

theorem test_reset_state_is_out_of_service :
    State.reset.missing.any = true ∧ State.reset.service.state = .outOfService ∧ State.reset.lineJudged = false := by
  decide

theorem test_network_is_ready : serving.missing.any = false := by decide +kernel

theorem test_requests_fit_their_forms :
    ReqKind.identify.fits [] = true ∧ ReqKind.selectScheme.fits [1] = true ∧ ReqKind.setTime.fits (be 4 7) = true ∧
      ReqKind.loadZoneRow.fits (be 1 1 ++ be 1 2 ++ be 2 5 ++ be 2 6) = true ∧
      ReqKind.setParameters.fits Params.default.bytes = true := by decide +kernel

/-! ## Witnesses: states and operands that meet the hypotheses of the statements, clause by clause -/

theorem test_meets_StepRunsTheFrontCommand :
    ({ State.reset with pending := [.slotGrant] } : State).pending = .slotGrant :: [] ∧ State.reset.pending = [] :=
  ⟨rfl, rfl⟩

theorem test_meets_RequestsTurnedAway :
    requestIn (.identify 0 []) = some (0, .identify, []) ∧ requestIn (.reset 1 []) = some (1, .reset, []) ∧
      (withHost fun h => { h with resetTaken := true }).host.resetTaken = true ∧
      (1 : Byte) ∈ (withHost fun h => { h with window := [1] }).host.window ∧
      4 ≤ (withHost fun h => { h with window := [1, 2, 3, 4] }).host.window.length := by decide

theorem test_meets_RequestsThatFailTheirForm :
    serving.admits 1 (.unknown 31) ∧ serving.admits 1 (.unknown 0) ∧ serving.admits 1 (.unknown 255) ∧
      serving.admits 1 .identify ∧ ReqKind.identify.fits [0] = false ∧ ReqKind.loadZoneRow.fits [1, 1, 0] = false :=
  ⟨rfl, rfl, rfl, rfl, rfl, by decide⟩

theorem test_meets_RequestsThatOnlyRead :
    serving.admits 1 .identify ∧ serving.admits 1 .status ∧ serving.admits 1 .denyQuery ∧
      serving.admits 1 .sightingQuery ∧ State.reset.admits 1 .journalPeek ∧ 65535 < 65536 :=
  ⟨rfl, rfl, rfl, rfl, rfl, by decide⟩

theorem test_meets_ResetRequestIsTaken :
    serving.admits 1 .reset ∧ (withHost fun h => { h with window := [1, 2, 3, 4] }).admits 5 .reset := ⟨rfl, rfl⟩

theorem test_meets_HostFramesDiscardedAndSent :
    (withHost fun h => { h with tx := some (.notice (.alarm .clear none)) }).host.tx =
        some (.notice (.alarm .clear none)) ∧
      (withHost fun h => { h with tx := some (.reply (Reply.inWindow 1 .reset .ok)) }).host.tx =
        some (.reply (Reply.inWindow 1 .reset .ok)) ∧
      (Reply.inWindow 1 .reset .ok).linkRefusal = false ∧ serving.host.tx = none ∧
      ¬((Reply.inWindow 1 .identify .ok).kind = .reset ∧ (Reply.inWindow 1 .identify .ok).body = .ok) ∧
      ({ Reply.inWindow 1 .identify (.refused .busy) with linkRefusal := true } : Reply).linkRefusal = true := by decide

/-- A part that has just sent a notice, with two others pending. -/
def noticeSent : State :=
  withHost fun h => { h with tx := some (.notice (.alarm .clear none)), notices := [.serviceState, .gateFault] }

theorem test_a_notice_is_over_when_sent :
    (match exec .hostFrameSent noticeSent with
      | .next t => t.host.notices == [.serviceState] && t.tells .gateFault && !t.tells .alarm
      | _ => false) = true := by decide

theorem test_meets_TransmitterChooses :
    (withHost fun h => { h with tx := some (.notice (.alarm .clear none)) }).host.tx.isSome = true ∧
      (withHost fun h => { h with replies := [Reply.inWindow 1 .reset .ok] }).host.replies =
        Reply.inWindow 1 .reset .ok :: [] ∧
      serving.host.tx = none ∧ serving.host.replies = [] ∧ serving.host.notices = [] ∧
      (withHost fun h => { h with notices := [.serviceState, .alarm] }).host.notices ≠ [] := by decide

theorem test_of_two_tap_results_the_one_raised_first_is_sent :
    (match exec (.speedStrapChange false true)
        (withHost fun h => { h with notices := [.serviceState, .tapResultP, .tapResultU] }) with
      | .next t => t.host.notices == [.serviceState, .tapResultU] && t.tells .tapResultP
      | _ => false) = true := by decide

theorem test_meets_GetTime : serving.admits 1 .getTime := rfl

theorem test_meets_SetTime :
    serving.screening.sightOk ∧ serving.admits 1 .setTime ∧ 4294967295 < 4294967296 :=
  ⟨List.nodup_nil, rfl, by decide⟩

theorem test_meets_SecondTick :
    serving.screening.sightOk ∧ (serving.onTime fun b => { b with now := 4294967294 }).time.now < 4294967295 ∧
      4294967295 ≤ (serving.onTime fun b => { b with now := 4294967295 }).time.now :=
  ⟨List.nodup_nil, by decide, by decide⟩

/-- A lapse mark that ended one second before noon. -/
def lateMark : LapseMark := { side := .U, deadline := tuesday.now - 1 }

/-- A standing of this gate's own image with that mark. -/
def lateStanding : Standing := { origin := .own, lapse := some lateMark, regranted := false }

theorem test_meets_Aging :
    (sighting17 (.committed lateStanding)).screening.sighted 17 = some (entry17 (.committed lateStanding)) ∧
      lateStanding.lapse = some lateMark ∧ lateMark.deadline < tuesday.now ∧
      (sighting17 (.pendingLocal ⟨.U, some lateStanding, none, false, none⟩)).screening.sighted 17 =
        some (entry17 (.pendingLocal ⟨.U, some lateStanding, none, false, none⟩)) ∧
      serving.service.params.sightingLifetime < tuesday.now - (entry17 (.committed ⟨.own, none, false⟩)).updated ∧
      serving.service.params.inDoubtLifetime < tuesday.now - (entry17 (.inDoubt ⟨6, 9⟩ 1)).updated := by decide +kernel

theorem test_meets_Suspend :
    serving.admits 1 .suspend ∧ serving.portU.ctx = none ∧ serving.portP.ctx = none ∧
      ¬((dialogue .reading (.fetch .header) tapU).portU.ctx = none ∧
        (dialogue .reading (.fetch .header) tapU).portP.ctx = none) ∧
      (inState .suspending).admits 1 .suspend ∧ (inState .suspending).service.state = .suspending ∧
      (inState .suspended).service.state = .suspended ∧ (inState .outOfService).service.state = .outOfService ∧
      (inState .suspending).host.resetTaken = false :=
  ⟨rfl, rfl, rfl, by decide, rfl, rfl, rfl, rfl, rfl⟩

theorem test_meets_Resume :
    (inState .suspended).admits 1 .resume ∧ (inState .suspended).missing.any = false ∧
      State.reset.admits 1 .resume ∧ State.reset.missing.any = true ∧ (inState .inService).admits 1 .resume ∧
      (inState .suspending).admits 1 .resume := ⟨rfl, by decide +kernel, rfl, rfl, rfl, rfl⟩

theorem test_meets_RefusedLoads :
    requestIn (.setZoneCount 1 (be 2 6)) = some (1, .setZoneCount, be 2 6) ∧ ReqKind.setZoneCount.isLoad = true ∧
      ReqKind.setZoneCount.fits (be 2 6) = true ∧ serving.admits 1 .setZoneCount ∧
      ¬(1 ≤ 0 ∧ 0 ≤ 16) ∧ ¬(1 ≤ 17 ∧ 17 ≤ 16) ∧ (inState .suspended).admits 1 .setClass ∧
      ¬(8 ≤ 7 ∧ ClassRec.invalid.inRange) ∧
      ¬(7 ≤ 7 ∧ ({ ClassRec.invalid with discount := 1001 } : ClassRec).inRange) ∧
      ¬(1 ≤ 7 ∧ 7 ≤ (inState .suspended).service.zoneCount.getD 0) ∧
      ([5] : List Nat).length ≠ (inState .suspended).service.zoneCount.getD 0 ∧
      ¬(7 ≤ 7 ∧ 2 ≤ 1 ∧ ClassRec.invalid.inRange) := by
  refine ⟨rfl, rfl, by decide, rfl, by decide, by decide, rfl, ?_, ?_, by decide, by decide, ?_⟩ <;>
    simp [ClassRec.inRange]

theorem test_meets_a_station_out_of_range :
    (inState .suspended).admits 1 .setStation ∧
      FirstOffends
        [1 ≤ 0 ∧ 0 ≤ 4095, 1 ≤ 16 ∧ 16 ≤ 16, 1 = 0 ∨ (1 ≤ 16 ∧ 1 ≠ 16), 1 ≤ 3 ∧ 3 ≤ 3, 16 ≤ 16,
          (-720 : Int) ≤ -720 ∧ (-720 : Int) ≤ 840, 1439 ≤ 1439] 1 ∧
      FirstOffends
        [1 ≤ 4095 ∧ 4095 ≤ 4095, 1 ≤ 16 ∧ 16 ≤ 16, 16 = 0 ∨ (16 ≤ 16 ∧ 16 ≠ 16), 1 ≤ 3 ∧ 3 ≤ 3, 16 ≤ 16,
          (-720 : Int) ≤ 840 ∧ (840 : Int) ≤ 840, 1439 ≤ 1439] 3 ∧
      FirstOffends
        [1 ≤ 4095 ∧ 4095 ≤ 4095, 1 ≤ 1 ∧ 1 ≤ 16, 0 = 0 ∨ (0 ≤ 16 ∧ 0 ≠ 1), 1 ≤ 1 ∧ 1 ≤ 3, 0 ≤ 16,
          (-720 : Int) ≤ 840 ∧ (840 : Int) ≤ 840, 1440 ≤ 1439] 7 :=
  ⟨rfl, ⟨[], _, _, rfl, by simp, by decide, rfl⟩, ⟨[_, _], _, _, rfl, by simp, by decide, rfl⟩,
    ⟨[_, _, _, _, _, _], _, _, rfl, by simp, by decide, rfl⟩⟩

theorem test_meets_parameters_out_of_range :
    (inState .suspended).admits 1 .setParameters ∧ (∀ v ∈ Params.default.values, v < 65536) ∧
      FirstOffends (({ Params.default with grace := 601 } : Params).conditions 0) 1 ∧
      FirstOffends (Params.default.conditions 128) 17 :=
  ⟨rfl, by decide, ⟨[], _, _, rfl, by simp, by decide, rfl⟩,
    ⟨[_, _, _, _, _, _, _, _, _, _, _, _, _, _, _, _], _, _, rfl, by simp [Params.default], by decide, rfl⟩⟩

theorem test_meets_rows_and_bands_out_of_range :
    (inState .suspended).admits 1 .loadZoneRow ∧ (inState .suspended).admits 1 .loadBandSet ∧
      ([0, 1, 2, 3, 20000, 20001] : List Nat) = [0, 1, 2, 3, 20000] ++ 20001 :: [] ∧
      (inState .suspended).service.zoneCount = some ([0, 1, 2, 3, 20000, 20001] : List Nat).length ∧
      ¬(1 ≤ 0 ∧ 0 ≤ 2) ∧ ¬(1 ≤ 3 ∧ 3 ≤ 2) ∧
      ¬(1 ≤ ([] : List Band).length ∧ ([] : List Band).length ≤ 8) ∧
      ¬(([] : List Band) = [] → 1 = 0) ∧
      bandsInRange [{ start := 0, multiplier := 250 }, { start := 1439, multiplier := 4000 }] ∧
      ¬(∀ x ∈ ([{ start := 0, multiplier := 250 }, { start := 1439, multiplier := 4000 }] : List Band),
        x.start < 1439) ∧
      ¬(250 ≤ 4001 ∧ 4001 ≤ 4000) ∧ ¬(250 ≤ 249 ∧ 249 ≤ 4000) := by
  refine ⟨rfl, rfl, rfl, rfl, by decide, by decide, by decide, by decide, ?_, by decide, by decide, by decide⟩
  simp [bandsInRange]

theorem test_meets_TablesAreReplaced :
    (inState .suspended).admits 1 .setZoneCount ∧ (inState .outOfService).admits 1 .loadZoneRow ∧
      (inState .suspended).service.zoneCount = some ([0, 1, 2, 3, 4, 20000] : List Nat).length ∧
      bandsInRange [{ start := 0, multiplier := 250 }, { start := 1439, multiplier := 4000 }] ∧
      ({ valid := true, discount := 1000, cap := 65535, overdraft := 50000, entryMin := 50000 } : ClassRec).inRange ∧
      (inState .suspended).admits 1 .setClass := by
  refine ⟨rfl, rfl, rfl, ?_, ?_, rfl⟩ <;> simp [ClassRec.inRange, bandsInRange]

/-- A station at the bounds of R170. -/
def farStation : StationLoad :=
  { station := { number := 4095, zones := { first := 16, second := some 1 }, mode := .exitOnly }, addr := 16,
    offset := -720, boundary := 1439 }

theorem test_meets_StationLoad :
    farStation.inRange ∧ ({ farStation with addr := 0, offset := 840 } : StationLoad).inRange ∧
      (inState .suspended).lineOk ∧ (inState .suspended).link.rows.length = 16 ∧
      (inState .suspended).admits 1 .setStation ∧ (inState .suspended).link.addr = 0 ∧
      (inState .suspended).link.state ≠ .offline .conflict := by
  refine ⟨?_, ?_, rfl, rfl, rfl, rfl, by decide⟩ <;> simp [StationLoad.inRange, farStation]

/-- A suspended member with an outstanding SYNC_LINE, whose gate 2 asserts, gate 3 is held and the rest are absent. -/
def leaving : State :=
  { member.onLink fun l =>
      { l with
        syncs := [{ tag := 9, dropped := 0 }],
        rows :=
          [MemberRow.blank, { present := true, lastHeard := none, contribution := .asserted 10000 },
              { present := false, lastHeard := none, contribution := .held 60000 }]
            ++ List.replicate 13 MemberRow.blank } with
    service := (inState .suspended).service, emergency := { fire := false, hostFlag := false, line := true } }

theorem test_meets_a_station_load_with_members :
    leaving.service.state = .suspended ∧ leaving.lineOk ∧ leaving.link.rows.length = 16 ∧
      leaving.admits 1 .setStation ∧ leaving.link.addr ≠ farStation.addr ∧
      (leaving.link.row 2).present = true ∧ (leaving.link.row 2).contribution = .asserted 10000 ∧
      2 ≠ farStation.addr ∧ (leaving.link.row 3).present = false ∧ 3 ≠ farStation.addr :=
  ⟨rfl, rfl, rfl, rfl, by decide, rfl, rfl, by decide, rfl, by decide⟩

theorem test_meets_Parameters : Params.default.inRange ∧ (inState .suspended).admits 1 .setParameters := by
  refine ⟨?_, rfl⟩
  simp [Params.inRange, Params.default]

theorem test_meets_Schemes :
    serving.admits 1 .selectScheme ∧ serving.admits 1 .retireScheme ∧ serving.service.schemes.get 1 = .current ∧
      serving.service.schemes.get 4 = .accepted ∧
      ({ serving.service.schemes with s2 := .empty, s3 := .retired } : Schemes).get 2 = .empty ∧
      ({ serving.service.schemes with s2 := .empty, s3 := .retired } : Schemes).get 3 = .retired ∧
      ¬(1 ≤ 0 ∧ 0 ≤ 4) ∧ ¬(1 ≤ 5 ∧ 5 ≤ 4) := ⟨rfl, rfl, rfl, rfl, rfl, rfl, by decide, by decide⟩

/-- A CENTRAL deny entry of card 17. -/
def deny17 : DenyEntry := { card := 17, origin := .central, action := .refuse, added := 0, made := 0 }

/-- A part that denies card 17. -/
def denying : State := serving.onScreening fun c => { c with deny := [deny17] }

theorem test_meets_DenyEdits :
    serving.screening.denyOk ∧ denying.screening.denyOk ∧ serving.admits 1 .denyAdd ∧ serving.admits 1 .denyRemove ∧
      serving.admits 1 .denyClear ∧ serving.screening.denied 17 = none ∧ denying.screening.denied 17 = some deny17 ∧
      serving.screening.deny.length < 16384 := by
  refine ⟨?_, ?_, rfl, rfl, rfl, rfl, rfl, by decide⟩ <;>
    simp [Screening.denyOk, denying, serving, State.reset, State.onScreening, Screening.localCount, Config.localCap,
      Config.denyCap, DenyEntry.isLocal, deny17]

theorem test_meets_a_full_deny_list :
    16384 ≤ (serving.onScreening fun c => { c with deny := List.replicate 16384 deny17 }).screening.deny.length := by
  change 16384 ≤ (List.replicate 16384 deny17).length
  rw [List.length_replicate]

theorem test_meets_JournalDrop :
    serving.admits 1 .journalDrop ∧
      (serving.onJournal fun j => { j with records := [plainRecord 1] }).journal.records.head?.map Record.serial =
        some 1 ∧
      serving.journal.records.head?.map Record.serial ≠ some 1 := by
  refine ⟨rfl, rfl, by decide⟩

theorem test_meets_SyncLine :
    member.admits 1 .syncLine ∧ serving.link.state = .offline .noAddress ∧
      (∀ reason, member.link.state ≠ .offline reason) ∧ member.link.queue = [] ∧
      (member.onLink fun l => { l with queue := [frame17] }).link.queue ≠ [] ∧
      (member.link.syncs.map Sync.tag).Nodup ∧ member.host.resetTaken = false :=
  ⟨rfl, rfl, fun _ h => (nomatch h), rfl, by decide, List.nodup_nil, rfl⟩

theorem test_meets_StaffPass :
    serving.admits 1 .staffPass ∧ serving.emergency.line = false ∧ serving.passage.leaf ≠ .fault ∧
      serving.passage.claim.direction = none ∧ (∀ o ∈ serving.passage.occupants, o.direction = .inbound) ∧
      serving.passage.claim.slot1 = none ∧ serving.leavesSettled ∧
      (serving.onEmergency fun e => { e with line := true }).emergency.line = true ∧
      (withAisle fun g => { g with leaf := .fault }).passage.leaf = .fault ∧
      (withAisle fun g =>
          { g with claim := { g.claim with slot1 := some .credit, slot2 := some (.context .P) } }).passage.claim.slot2.isSome =
        true ∧
      ∃ o ∈ (withAisle fun g => { g with occupants := [⟨.outbound, .mouth, none⟩] }).passage.occupants,
        o.direction ≠ .inbound :=
  ⟨rfl, rfl, by decide, rfl, by decide, rfl, rfl, rfl, rfl, rfl, by decide⟩

theorem test_meets_HoldOpen :
    serving.admits 1 .holdOpen ∧ serving.admits 1 .holdRelease ∧ serving.passage.leaf ≠ .fault ∧
      serving.passage.holdOpen = false ∧
      (withAisle fun g => { g with leaf := .heldOpen, holdOpen := true }).passage.holdOpen = true ∧
      (withAisle fun g => { g with leaf := .heldOpen, holdOpen := true }).leavesSettled ∧
      (withAisle fun g => { g with leaf := .fault }).passage.leaf = .fault :=
  ⟨rfl, rfl, by decide, rfl, rfl, rfl, rfl⟩

theorem test_meets_GateReset :
    serving.admits 1 .gateReset ∧ serving.passage.leaf ≠ .fault ∧
      (withAisle fun g => { g with leaf := .fault }).admits 1 .gateReset ∧
      (withAisle fun g => { g with leaf := .fault }).passage.claim.waitU = false ∧
      (withAisle fun g => { g with gateReset := some 1 }).passage.gateReset = some 1 ∧
      (withAisle fun g => { g with gateReset := some 1 }).passage.leaf = .closed ∧
      (withAisle fun g => { g with gateReset := some 1, leaf := .opening }).passage.leaf = .opening :=
  ⟨rfl, by decide, rfl, rfl, rfl, rfl, rfl⟩

theorem test_meets_AlarmClear :
    serving.admits 1 .alarmClear ∧ Latches.clear.any = false ∧
      ({ Latches.clear with intrusion := true } : Latches).any = true ∧
      ({ Latches.clear with intrusion := true } : Latches).get .intrusion = true ∧ serving.journal.halted = false :=
  ⟨rfl, rfl, rfl, rfl, rfl⟩

theorem test_meets_HostEmergencyFlag :
    serving.lineOk ∧ serving.admits 1 .setEmergency ∧ serving.admits 1 .clearEmergency ∧
      serving.emergency.hostFlag = false ∧ serving.emergency.fire = false ∧ serving.emergency.line = false ∧
      ({ serving with emergency := ⟨true, false, true⟩ } : State).lineOk ∧
      ({ serving with emergency := ⟨false, true, true⟩ } : State).lineOk ∧
      ({ serving with emergency := ⟨false, true, true⟩ } : State).admits 1 .clearEmergency ∧
      serving.journal.halted = false := ⟨rfl, rfl, rfl, rfl, rfl, rfl, rfl, rfl, rfl, rfl⟩

/-- A member whose gate 2 asserts. -/
def asserting : State :=
  { member.onLink fun l =>
      { l with rows := l.rows.set 1 { present := true, lastHeard := none, contribution := .asserted 10000 } } with
    emergency := { fire := false, hostFlag := false, line := true } }

/-- The record of a start by the fire input. -/
def fireStart : RecBody := { kind := .emergencyStart, reason := some .fire }

theorem test_meets_FireInput :
    serving.lineOk ∧ serving.emergency.fire = false ∧ serving.link.rows.any MemberRow.contributes = false ∧
      asserting.lineOk ∧ asserting.emergency.hostFlag = false ∧
      asserting.link.rows.any MemberRow.contributes = true ∧
      ({ serving with emergency := ⟨true, false, true⟩ } : State).lineOk ∧
      ({ serving with emergency := ⟨false, true, true⟩ } : State).lineOk ∧ serving.portU.state ≠ .waitAisle ∧
      serving.journal.halted = false ∧ serving.roomFor (serving.startRecords fireStart).length :=
  ⟨rfl, rfl, rfl, rfl, rfl, rfl, rfl, rfl, by decide, rfl, Or.inr (by decide)⟩

theorem test_leaves_close_at_the_end_of_an_emergency :
    (match exec (.fireInputChange false)
        { withAisle (fun g => { g with leaf := .heldOpen }) with emergency := ⟨true, false, true⟩ } with
      | .next t => t.passage.leaf == .closing && t.passage.travel == some 1500 && t.tells .emergencyChange
      | _ => false) = true := by decide

theorem test_an_assert_taken_first_restarts_the_refresh_deadline :
    (match exec (.linkEmergency 2 1) { asserting with clock := 10000 } with
      | .next t =>
        match exec (.refreshDeadline 2) t with
        | .next u => u.link.row 2 == { present := true, lastHeard := some tuesday.now, contribution := .asserted 20000 }
        | _ => false
      | _ => false) = true := by decide +kernel

/-- An occupant in an aisle. -/
def body (d : Direction) (st : Stage) : Occupant := { direction := d, stage := st, credit := none }

theorem test_meets_MouthOccupied :
    serving.mouth .U = false ∧ (serving.onPins fun p => { p with mouthU := true }).mouth .U = true ∧
      (withAisle fun g => { g with occupants := [body .inbound .leaf] }).passage.occupants =
        [] ++ body .inbound .leaf :: [] ∧
      farMouth (body .inbound .leaf).direction = .P ∧
      (∀ x ∈ serving.passage.occupants, ¬(x.stage = .leaf ∧ farMouth x.direction = .U)) ∧
      serving.passage.occupants.length < 3 ∧
      3 ≤ (withAisle fun g => { g with occupants := List.replicate 3 (body .inbound .far) }).passage.occupants.length ∧
      ∀ x ∈ List.replicate 3 (body .inbound .far), ¬(x.stage = .leaf ∧ farMouth x.direction = .U) := by decide

theorem test_meets_LeafOccupied :
    serving.pins.leaf = false ∧ (serving.passage.credits.map Credit.slot).Nodup ∧
      (withAisle fun g => { g with occupants := [body .inbound .mouth] }).passage.occupants =
        [] ++ body .inbound .mouth :: [] ∧
      (serving.onPins fun p => { p with mouthU := true }).mouth (sideOf .inbound) = true ∧
      (serving.onPins fun p => { p with mouthU := true }).mouth (farMouth .inbound) = false ∧
      (withAisle fun g =>
          { g with claim := { g.claim with direction := some .inbound }, credits := [credit17] }).passage.credits =
        [] ++ credit17 :: [] ∧
      credit17.state ≠ .assigned ∧
      ¬(serving.passage.claim.direction = some .inbound ∧ ∃ c ∈ serving.passage.credits, c.state ≠ .assigned) ∧
      serving.passage.holdOpen = false ∧ serving.emergency.line = false ∧
      (withAisle fun g => { g with holdOpen := true }).passage.holdOpen = true ∧
      serving.pins.mouthU = false ∧ serving.pins.mouthP = false ∧
      3 ≤ (withAisle fun g => { g with occupants := List.replicate 3 (body .inbound .far) }).passage.occupants.length ∧
      (∀ x ∈ List.replicate 3 (body .inbound .far), x.stage ≠ .mouth) := by decide

/-- Opened leaves with an assigned credit on slot 1, LEAF occupied, with these occupants and the U mouth as given. -/
def atLeaf (occupants : List Occupant) (mouthU : Bool) : State :=
  (withAisle fun g =>
      { g with
        leaf := .opened, occupants := occupants, credits := [{ credit17 with state := .assigned }],
        claim := { g.claim with direction := some .inbound, slot1 := some .credit } }).onPins fun p =>
    { p with leaf := true, mouthU := mouthU }

theorem test_meets_LeafClear (mouthU : Bool) :
    ∀ occupants ∈
        ([[], [⟨.inbound, .leaf, some .one⟩], [body .inbound .leaf, ⟨.inbound, .leaf, some .one⟩, body .inbound .far]] :
          List (List Occupant)),
      (atLeaf occupants mouthU).pins.leaf = true ∧
        ((atLeaf occupants mouthU).passage.occupants.filterMap Occupant.credit).Nodup ∧
        (atLeaf occupants mouthU).leavesSettled ∧ (atLeaf occupants mouthU).passage.claim.waitU = false ∧
        (atLeaf occupants mouthU).passage.claim.waitP = false ∧
        ((atLeaf occupants true).mouth .U = true ∧ ∀ o ∈ occupants, sideOf o.direction = .U) := by
  intro occupants h
  simp only [List.mem_cons, List.not_mem_nil, or_false] at h
  rcases h with rfl | rfl | rfl <;> exact ⟨rfl, by cases mouthU <;> decide, rfl, rfl, rfl, rfl, by decide⟩

theorem test_meets_MouthClear :
    (serving.onPins fun p => { p with mouthU := true }).mouth .U = true ∧ serving.pins.leaf = false ∧
      serving.passage.claim.waitU = false ∧ serving.passage.claim.waitP = false := ⟨rfl, rfl, rfl, rfl⟩

theorem serving_roomFor_two : serving.roomFor 2 := Or.inr (by decide)

/-- Two bodies at the U mouth and one at FAR on its way to it, LEAF occupied, with these credits and hold-open. -/
def crowded (credits : List Credit) (held : Bool) : State :=
  (withAisle fun g =>
      { g with
        leaf := if held then .heldOpen else .opened, holdOpen := held, credits := credits,
        claim := { g.claim with direction := credits.head?.map Credit.direction },
        occupants := [body .inbound .mouth, body .outbound .far, body .inbound .mouth] }).onPins fun p =>
    { p with mouthU := true, leaf := true }

/-- A second credit, on slot 2. -/
def credit18 : Credit := { credit17 with slot := .two, origin := .tap 2 18 }

theorem test_meets_a_mouth_cleared_over_an_occupied_leaf :
    ∀ credits ∈ ([[], [credit17], [credit17, credit18]] : List (List Credit)), ∀ held,
      (crowded credits held).mouth .U = true ∧ (crowded credits held).pins.leaf = true ∧
        ((crowded credits held).passage.credits.map Credit.slot).Nodup ∧
        ((crowded credits held).passage.occupants.filterMap Occupant.credit).Nodup ∧
        ((crowded credits held).passage.claim.direction = none → (crowded credits held).passage.credits = []) ∧
        (crowded credits held).leavesSettled ∧
        (crowded credits held).passage.occupants.countP (fun o => o.stage == .mouth && sideOf o.direction == .U) = 2 ∧
        (crowded credits held).passage.claim.waitU = false ∧ (crowded credits held).passage.claim.waitP = false ∧
        (crowded credits held).passage.holdOpen = held ∧ (crowded credits held).emergency.line = false ∧
        (crowded credits held).journal.halted = false ∧ (crowded credits held).roomFor 2 := by
  intro credits h held
  have hr : (crowded credits held).roomFor 2 := serving_roomFor_two
  simp only [List.mem_cons, List.not_mem_nil, or_false] at h
  rcases h with rfl | rfl | rfl <;> cases held <;>
    exact ⟨rfl, rfl, by decide, by decide, by decide, rfl, rfl, rfl, rfl, rfl, rfl, rfl, hr⟩

theorem test_meets_Switches :
    serving.passage.leaf ≠ .opening ∧ serving.passage.leaf ≠ .closing ∧
      (withAisle fun g => { g with leaf := .opening }).passage.leaf = .opening ∧
      (withAisle fun g => { g with leaf := .closing }).passage.leaf = .closing ∧
      serving.host.resetTaken = false := by decide

theorem test_meets_TravelTimeout :
    serving.passage.leaf ≠ .opening ∧ serving.passage.leaf ≠ .closing ∧
      (withAisle fun g => { g with leaf := .opening, gateReset := some 1 }).passage.leaf = .opening ∧
      (withAisle fun g => { g with leaf := .opening, gateReset := some 1 }).passage.gateReset = some 1 ∧
      serving.passage.credits = [] := by decide

/-- A part with an unassigned credit for the own image of card 17. -/
def credited : State :=
  (sighting17 (.committed { origin := .own, lapse := none, regranted := false })).onPassage fun g =>
    { g with credits := [credit17] }

/-- A leaf on its way with that credit standing. -/
def opening : State := credited.onPassage fun g => { g with leaf := .opening }

theorem test_meets_a_leaf_fault_with_credits :
    opening.passage.leaf = .opening ∧ opening.passage.credits = [credit17] ∧
      opening.passage.credits.flatMap opening.lapseFrames = [.lapse 17 ⟨5, 9⟩ .U] ∧
      opening.faultRecords opening.link opening.passage.credits = [credit17.unused .gateFault] := by decide

theorem test_meets_credits_without_a_lapse_frame :
    (∀ st ∈ ([.committed ⟨.peer 2, none, false⟩, .inDoubt ⟨6, 9⟩ 1, .pendingLocal ⟨.U, none, none, false, none⟩] :
        List SightState), (sighting17 st).lapseFrames credit17 = []) ∧
      serving.lapseFrames credit17 = [] ∧
      credited.lapseFrames { credit17 with origin := .staff } = [] := by decide

theorem test_meets_CreditExpiry :
    credited.passage.credits = [] ++ credit17 :: [] ∧ credit17.slot = .one ∧ credit17.state ≠ .assigned ∧
      (∀ x ∈ ([] ++ [] : List Credit), x.slot ≠ .one) ∧ (∀ c ∈ serving.passage.credits, c.slot = .one → c.state = .assigned) ∧
      credit17.origin = .tap 1 17 ∧
      credited.screening.sighted 17 = some (entry17 (.committed ⟨.own, none, false⟩)) ∧
      credited.journal.halted = false ∧ ({ credit17 with origin := .grace } : Credit).origin.tapCard = none := by decide

/-- Both ports wait for a slot. -/
def waiting : State :=
  (dialogue .waitAisle .summon { tapU with path := none, slot := none }).onPassage fun g =>
    { g with claim := { g.claim with waitU := true, waitP := true } }

theorem test_meets_WaitingRequests :
    waiting.passage.claim.waits .U = true ∧ waiting.grantable (dirOf .U) = true ∧
      waiting.passage.claim.waits (otherSide .U) = true ∧ waiting.grantable (dirOf (otherSide .U)) = true ∧
      waiting.passage.claim.lastGranted = dirOf (otherSide .U) ∧ waiting.passage.claim.slot1 = none ∧
      (∀ side, ¬(serving.passage.claim.waits side = true ∧ serving.grantable (dirOf side) = true)) :=
  ⟨rfl, rfl, rfl, rfl, rfl, rfl, fun side => by cases side <;> decide⟩

theorem test_meets_SummonAnswers :
    ((dialogue .idle .summon tapU).port .U).exchange =
        some { request := .summon, windowError := false, earlierError := false } ∧
      ((dialogue .done .summon tapU).port .U).state = .done ∧ (dialogue .idle .summon tapU).service.state = .inService ∧
      (dialogue .idle .summon tapU).journal.halted = false ∧ (dialogue .idle .summon tapU).emergency.line = false ∧
      (dialogue .idle .summon tapU).grantable (dirOf .U) = true ∧
      ((withAisle fun g => { g with leaf := .fault }).grantable (dirOf .U)) = false ∧
      (waiting.port .U).ctx = some { tapU with path := none, slot := none } ∧
      (waiting.port .U).state = .waitAisle ∧ ({ tapU with path := none, slot := none } : TapContext).side = .U ∧
      tapU.card ≠ some 18 ∧ (inState .outOfService).service.state ≠ .inService := by decide +kernel

theorem test_meets_no_entry_held : serving.holdsNoEntry .U (some 17) := by
  intro c h
  cases h
  rfl

theorem test_meets_a_start_with_a_tap_waiting :
    waiting.portU.state = .waitAisle ∧ waiting.portU.ctx = some { tapU with path := none, slot := none } ∧
      waiting.holdsNoEntry .U tapU.card ∧ waiting.roomFor (waiting.startRecords fireStart).length ∧
      waiting.lineOk ∧ waiting.emergency.fire = false ∧ waiting.portP.state ≠ .waitAisle :=
  ⟨rfl, rfl, fun c h => by cases h; rfl, Or.inr (by decide), rfl, rfl, by decide⟩

/-- Port P waits for a slot, its deadline paused. -/
def waitingOut : State :=
  (serving.onPort .P fun p =>
      { p with
        state := .waitAisle, deadline := .paused 300, aisleWait := some 2000,
        ctx := some (TapContext.fresh .P (some 17)) }).onPassage fun g =>
    { g with claim := { g.claim with waitP := true } }

theorem test_meets_a_start_with_a_tap_waiting_to_leave :
    waitingOut.portP.state = .waitAisle ∧ waitingOut.portP.ctx = some (TapContext.fresh .P (some 17)) ∧
      waitingOut.portP.deadline = .paused 300 ∧ waitingOut.portU.state ≠ .waitAisle ∧ waitingOut.lineOk ∧
      waitingOut.emergency.hostFlag = false ∧ waitingOut.emergency.fire = false ∧
      waitingOut.link.rows.any MemberRow.contributes = false :=
  ⟨rfl, rfl, rfl, by decide, rfl, rfl, rfl, rfl⟩

/-- Port U reading the last image of card 17. -/
def reading (r : CardRequest) : State :=
  dialogue .reading r
    { tapU with header := some header17, areaA := some { bytes := [], valid := some card0 } }

theorem test_meets_Reading :
    ((reading (.fetch .imageB)).port .U).state = .reading ∧
      ((reading (.fetch .imageB)).port .U).ctx =
        some { tapU with header := some header17, areaA := some { bytes := [], valid := some card0 } } ∧
      header17.bytes.length = 8 ∧ Header.accept 17 header17.bytes = some header17 ∧
      Header.accept 18 header17.bytes = none ∧ (List.replicate 40 (0 : Byte)).length = 40 ∧
      (serving.service.classes.get header17.cls).valid = true ∧ (serving.service.classes.get 0).valid = false ∧
      serving.time.serviceDay serving.time.now = header17.expiry ∧
      denying.screening.denied 17 = some deny17 ∧ serving.screening.denied 17 = none := by decide +kernel

theorem test_meets_an_unusable_card :
    chooseImage none (serving.service.readArea 17 (List.replicate 40 0)).valid = .refuse .stampBad := rfl

/-- A context for card 17 that has read its header and its first area, with an image. -/
def tapTen (side : Side) (path : Path) (img : Image) : TapContext :=
  { TapContext.fresh side (some 17) with
    path := some path, slot := some .one, header := some header17, areaA := some { bytes := [], valid := some img } }

/-- A port that reads the last area of card 17, over a sighting table. -/
def atCheckTen (side : Side) (path : Path) (img : Image) (entries : List Sighting) : State :=
  (serving.onPort side fun p =>
      { p with
        state := .reading, ctx := some (tapTen side path img),
        exchange := some { request := .fetch .imageB, windowError := false, earlierError := false } }).onScreening
    fun c => { c with sightings := entries }

/-- A card that has left the system here this minute. -/
def leaver : Image := { card0 with lastExit := some { station := 7, time := tuesday.now } }

theorem test_meets_check_ten (side : Side) (path : Path) (img : Image) (entries : List Sighting)
    (h : img.txc < 65535) :
    (atCheckTen side path img entries).ReachesCheckTen side (tapTen side path img) 17 header17
      { slot := .A, image := img } (List.replicate 40 0) := by
  have hi : chooseImage (some img) (serving.service.readArea 17 (List.replicate 40 0)).valid =
      .image { slot := .A, image := img } := if_neg (Nat.not_le.mpr h)
  have he : serving.time.serviceDay serving.time.now ≤ header17.expiry := by decide +kernel
  cases side <;> exact ⟨rfl, ⟨_, rfl, rfl⟩, rfl, ⟨rfl, rfl, rfl⟩, by decide, ⟨rfl, rfl, he⟩, rfl, hi⟩

theorem test_meets_entries_cloned :
    (entry17 (.committed ⟨.own, none, false⟩)).Cloned card0.seen ∧
      (entry17 (.pendingLocal ⟨.P, none, none, false, none⟩)).Cloned card0.seen ∧
      (entry17 (.inDoubt ⟨6, 9⟩ 1)).Cloned card0.seen :=
  ⟨Or.inl ⟨_, rfl, by decide, by decide⟩, Or.inr (Or.inl ⟨_, rfl⟩),
    Or.inr (Or.inr ⟨_, _, rfl, by decide, by decide, by decide⟩)⟩

/-- An entry of the image on card 17. -/
def sameImage (st : SightState) : Sighting := { entry17 st with baseline := card0.seen }

theorem test_meets_regrant_and_recovered :
    (atCheckTen .U .normal card0 [sameImage (.committed ⟨.own, some ⟨.U, tuesday.now⟩, false⟩)]).screening.sighted 17 =
        some (sameImage (.committed ⟨.own, some ⟨.U, tuesday.now⟩, false⟩)) ∧
      (sameImage (.committed ⟨.own, some ⟨.U, tuesday.now⟩, false⟩)).baseline = card0.seen ∧
      serving.time.now ≤ tuesday.now ∧ serving.passage.leaf ≠ .fault ∧ serving.link.queue.length < 64 ∧
      card0.seen ≠ (entry17 (.inDoubt card0.seen 1)).baseline := by decide

theorem test_meets_entries_clear :
    (atCheckTen .U .normal card0 []).Clears .U 17 { slot := .A, image := card0 } none [] ∧
      (atCheckTen .U .normal card0 [{ sameImage (.committed ⟨.own, none, true⟩) with baseline := ⟨4, 9⟩ }]).Clears .U 17
        { slot := .A, image := card0 } (some .ours) [] ∧
      (atCheckTen .P .normal card0 [sameImage (.committed ⟨.own, some ⟨.U, tuesday.now⟩, false⟩)]).Clears .P 17
        { slot := .A, image := card0 } (some ⟨.own, some ⟨.U, tuesday.now⟩, false⟩) [] ∧
      (atCheckTen .U .normal card0 [sameImage (.inDoubt ⟨6, 9⟩ 1)]).Clears .U 17 { slot := .A, image := card0 }
        (some .ours) [resolvedRecord 17 1 ⟨6, 9⟩ .voided (some (.U, 1125)) none] ∧
      (atCheckTen .U .normal card0 [{ sameImage (.inDoubt ⟨6, 9⟩ 1) with baseline := ⟨4, 9⟩ }]).Clears .U 17
        { slot := .A, image := card0 } none [resolvedRecord 17 1 ⟨6, 9⟩ .abandoned (some (.U, 1125)) none] :=
  ⟨Or.inl ⟨rfl, rfl, rfl⟩, Or.inr ⟨_, rfl, Or.inl ⟨_, rfl, by decide, rfl, rfl⟩⟩,
    Or.inr ⟨_, rfl, Or.inr (Or.inl ⟨_, rfl, rfl, (fun m h hs => by cases h; cases hs), rfl, rfl⟩)⟩,
    Or.inr ⟨_, rfl, Or.inr (Or.inr ⟨_, _, rfl, Or.inl ⟨rfl, rfl, rfl⟩⟩)⟩,
    Or.inr ⟨_, rfl, Or.inr (Or.inr ⟨_, _, rfl, Or.inr ⟨by decide, by decide, by decide, rfl, rfl⟩⟩)⟩⟩

theorem test_meets_rulings :
    ruleTap serving.service serving.time .P .normal (serving.service.classes.get 4) serving.time.now leaver =
        .exitGrace ∧
      ruleTap serving.service serving.time .P .freeExit (serving.service.classes.get 4) serving.time.now card0 =
        .free ∧
      ruleTap serving.service serving.time .U .normal (serving.service.classes.get 4) serving.time.now
          { card0 with balance := -1 } = .refuse .insufficient ∧
      (atCheckTen .P .normal leaver []).roomFor 2 := ⟨by decide +kernel, by decide +kernel, by decide +kernel, Or.inr (by decide)⟩

theorem test_meets_ATapThatPasses :
    (atCheckTen .U .normal card0 []).screening.sightings.length < 1024 ∧
      ruleTap serving.service serving.time .U .normal (serving.service.classes.get 4) serving.time.now card0 =
        .write { kind := .entry, charge := 0 }
          (unlinkedEntry { number := 7, zones := { first := 3, second := none }, mode := .bidirectional }
            serving.time.now card0) ∧
      (∀ m, 1 ≤ m → m ≤ 4 → (serving.service.schemes.get m = .current ↔ m = 1)) := by
  refine ⟨by decide, by decide +kernel, fun m h1 h4 => ?_⟩
  obtain rfl | rfl | rfl | rfl : m = 1 ∨ m = 2 ∨ m = 3 ∨ m = 4 := by omega
  all_goals decide

/-- The image that follows a body is given by its stamp, which covers the other fields. -/
theorem test_meets_a_new_image (b : Image) (k txc : Nat) (card : CardNo) :
    let img :=
      { b with
        txc := txc, scheme := k,
        stamp := Config.stampOf k (stampInput card ({ b with txc := txc, scheme := k } : Image).covered) }
    img = { b with txc := txc, scheme := k, stamp := img.stamp } ∧
      img.stamp = Config.stampOf k (stampInput card img.covered) := ⟨rfl, rfl⟩

/-- Port U in a readback of card 17, asking for an area, with a clone mark or none and a retry or none behind it. -/
def readback (request : CardRequest) (mark retried : Bool) : State :=
  { dialogue .confirming request
      { tapU with
        header := some header17, image := some { slot := .A, image := card0 },
        areaA := some { bytes := List.replicate 40 7, valid := some card0 },
        decision := some { kind := .entry, charge := 0 }, newImage := some { card0 with txc := 6 },
        storeSent := true, storeRetried := retried } with
    screening :=
      { deny := [], order := 0,
        sightings :=
          [entry17
            (.pendingLocal
              { side := .U, prior := none, stored := some ({ card0 with txc := 6 } : Image).seen, cloneMark := mark,
                held := none })] } }

/-- Port U reading back the image written for card 17. -/
def confirming : State := readback (.fetch .imageB) false false

/-- A readback that is the last attempt of its exchange. -/
def lastReadback : State := confirming.onPort .U fun p => { p with attempts := 2 }

/-- The entry of the tap in a readback, with a held update or none. -/
def pending17 (mark : Bool) (held : Option HeldUpdate) : PendingTap :=
  { side := .U, prior := none, stored := some ({ card0 with txc := 6 } : Image).seen, cloneMark := mark, held := held }

/-- A readback of a tap with this clone mark, held update, path and slot. -/
def readingBack (mark : Bool) (held : Option HeldUpdate) (path : Path) (slot : Option SlotId) : State :=
  ((readback (.fetch .imageB) mark false).onScreening fun v =>
      { v with sightings := [entry17 (.pendingLocal (pending17 mark held))] }).onPort .U fun p =>
    { p with ctx := p.ctx.map fun c => { c with path := some path, slot := slot } }

theorem test_meets_ReadsBack (mark : Bool) (held : Option HeldUpdate) (path : Path) (slot : Option SlotId) :
    (readingBack mark held path slot).ReadsBack .U
      { tapU with
        header := some header17, image := some { slot := .A, image := card0 },
        areaA := some { bytes := List.replicate 40 7, valid := some card0 },
        decision := some { kind := .entry, charge := 0 }, newImage := some { card0 with txc := 6 },
        storeSent := true, path := some path, slot := slot }
      17 { slot := .A, image := card0 } { kind := .entry, charge := 0 } { card0 with txc := 6 }
      (entry17 (.pendingLocal (pending17 mark held))) (pending17 mark held) :=
  ⟨rfl, ⟨_, rfl, rfl⟩, rfl, ⟨rfl, rfl⟩, ⟨rfl, rfl, rfl⟩, rfl, ⟨rfl, rfl, rfl⟩, List.nodup_singleton _⟩

/-- An update from gate 2 of an image to the next txc. -/
def updateOf (read : SImage) : HeldUpdate :=
  { src := 2, read := read, written := { txc := read.txc + 1, stamp := 1 }, marking := false }

theorem test_meets_held_updates :
    heldEnd (pending17 false (some (updateOf (card0.seen)))).applies 17 (some card0.seen) =
        .adopted (updateOf card0.seen) ∧
      heldEnd (some (updateOf ⟨7, 0⟩)) 17 (some card0.seen) = .adopted (updateOf ⟨7, 0⟩) ∧
      heldEnd (some (updateOf ⟨5, 1⟩)) 17 (some card0.seen) = .late (updateOf ⟨5, 1⟩) ∧
      heldEnd (some (updateOf ⟨5, 1⟩)) 17 none = .adopted (updateOf ⟨5, 1⟩) ∧
      heldEnd (some (updateOf ⟨5, 1⟩)) 17 (some ⟨6, 1⟩) = .passed ∧ heldEnd none 17 none = .passed ∧
      (pending17 false (some { updateOf ⟨7, 0⟩ with marking := true })).applies = none ∧
      (entry17 (.pendingLocal (pending17 true (some { updateOf ⟨5, 1⟩ with marking := true })))).heldBack
          (pending17 true (some { updateOf ⟨5, 1⟩ with marking := true })) =
        .adopted { updateOf ⟨5, 1⟩ with marking := true } := by decide

theorem test_meets_held_updates_that_resolve :
    heldResolves (some (updateOf ⟨6, 9⟩)) 17 ⟨5, 9⟩ ⟨6, 9⟩ = some (updateOf ⟨6, 9⟩, .committed) ∧
      heldResolves (some (updateOf ⟨5, 9⟩)) 17 ⟨5, 9⟩ ⟨6, 9⟩ = some (updateOf ⟨5, 9⟩, .voided) ∧
      heldResolves (some (updateOf ⟨6, 8⟩)) 17 ⟨5, 9⟩ ⟨6, 9⟩ = some (updateOf ⟨6, 8⟩, .voided) ∧
      heldResolves (some (updateOf ⟨7, 0⟩)) 17 ⟨5, 9⟩ ⟨6, 9⟩ = none ∧ heldResolves none 17 ⟨5, 9⟩ ⟨6, 9⟩ = none := by
  decide

/-- So many IN_DOUBT entries, the IN_DOUBT serials rising from 1. -/
def doubts (n : Nat) : List Sighting :=
  (List.range n).map fun k => { entry17 (.inDoubt ⟨6, 9⟩ (k + 1)) with card := BitVec.ofNat 32 (k + 100) }

theorem test_meets_the_entry_given_up :
    (serving.onScreening fun c => { c with sightings := doubts 63 }).screening.GivesUp none ∧
      (serving.onScreening fun c => { c with sightings := doubts 64 }).screening.GivesUp
        (some { entry17 (.inDoubt ⟨6, 9⟩ 1) with card := 100 }) := by
  refine ⟨⟨fun _ => rfl, fun h => absurd h (by decide)⟩, fun h => absurd h (by decide), fun _ =>
    ⟨_, _, _, rfl, by decide, rfl, ?_⟩⟩
  intro x hx hne image m hm
  obtain ⟨k, -, rfl⟩ := List.mem_map.mp hx
  cases hm
  rcases Nat.eq_zero_or_pos k with rfl | hk
  · exact absurd rfl hne
  · omega

/-- A drain under way, two SUSPENDs outstanding. -/
def draining (s : State) : State := s.onService fun v => { v with state := .suspending, suspends := [8, 9] }

/-- The drain has been completed: state, notice and these replies, in order. -/
def drainedWith (r : Result) (replies : List Reply) : Bool :=
  match r with
  | .next t =>
    t.service.state == .suspended && t.service.suspends == [] && t.portU.ctx == none && t.portP.ctx == none &&
      t.formed == replies && t.tells .serviceState
  | _ => false

theorem test_the_last_end_of_a_tap_completes_the_drain :
    ([exec (.answerWindowClose .U none)
          (draining (confirming.onPort .U fun p => { p with attempts := 2 })),
        exec (.dialogueDeadlineExpiry .U) (draining confirming),
        exec (.summonAnswer .U 18 false) (draining (dialogue .waitAisle .summon { tapU with path := none, slot := none })),
        exec (.fireInputChange true) (draining (dialogue .waitAisle .summon { tapU with path := none, slot := none }))].all
      fun r =>
        drainedWith r
          [Reply.inWindow 8 .suspend (.serviceState .suspended), Reply.inWindow 9 .suspend (.serviceState .suspended)]) =
      true := by decide +kernel

theorem test_meets_readbacks_of_each_kind (mark : Bool) (held : Option HeldUpdate) (path : Path)
    (slot : Option SlotId) :
    (readingBack mark held path slot).passage.claim.waits .U = false ∧
      (readingBack mark held path slot).passage.claim.waitU = false ∧
      (readingBack mark held path slot).passage.claim.waitP = false ∧
      (readingBack mark held path slot).link.queue.length < 63 ∧
      (readingBack mark held path slot).roomFor 2 ∧ (readingBack mark held path slot).emergency.line = false ∧
      (readingBack mark held path slot).passage.leaf ≠ .fault ∧
      ((readingBack mark held path slot).onPassage fun g => { g with leaf := .fault }).passage.leaf = .fault ∧
      ((readingBack mark held path slot).onPassage fun g => { g with leaf := .fault }).passage.credits = [] :=
  ⟨rfl, rfl, rfl, (by decide : (0 : Nat) < 63), serving_roomFor_two, rfl, (nomatch ·), rfl, rfl⟩

theorem test_meets_readbacks_that_differ :
    (List.replicate 40 (7 : Byte)).length = 40 ∧ List.replicate 40 7 ≠ ({ card0 with txc := 6 } : Image).bytes ∧
      ((readback (.fetch .imageA) false false).port .U).ctx.bind (TapContext.areaBytes · .A) =
        some (List.replicate 40 7) ∧
      (((readback (.fetch .imageA) false true).port .U).ctx.map TapContext.storeRetried) = some true ∧
      some (List.replicate 40 (7 : Byte)) ≠ some (List.replicate 40 0) ∧
      (readback (.fetch .imageA) true true).screening.sighted 17 =
        some (entry17 (.pendingLocal ⟨.U, none, some { card0 with txc := 6 }.seen, true, none⟩)) :=
  ⟨by decide, by decide +kernel, rfl, rfl, by decide, rfl⟩

theorem test_meets_a_readback_that_fails :
    (lastReadback.port .U).state = .confirming ∧ 2 ≤ (lastReadback.port .U).attempts ∧
      lastReadback.screening.counts.inDoubt < 64 ∧ lastReadback.passage.claim.waitP = false ∧
      Area.imageB ≠ Area.header := ⟨rfl, by decide, by decide, rfl, by decide⟩

/-- A second readback of the old area, with this clone mark and held update behind it and an older standing of the entry,
a drain under way. -/
def voiding (mark : Bool) (held : HeldUpdate) : State :=
  (draining (readback (.fetch .imageA) mark true)).onScreening fun v =>
    { v with sightings := [entry17 (.pendingLocal { pending17 mark (some held) with prior := some .ours })] }

theorem test_a_void_applies_the_held_update_of_its_tap :
    (match exec (.fetchAnswer .U .imageA (List.replicate 40 7))
        (voiding false { updateOf ⟨5, 1⟩ with marking := true }) with
      | .next t =>
        t.link == (voiding false (updateOf ⟨5, 1⟩)).link.withFrame (.denyAdd 17) && t.service.state == .suspended &&
          t.formed.length == 2 &&
          t.journal.records.map Record.body ==
            [{ kind := .refusal, side := some .U, card := some 17, reason := some (.refusal .writeFailed),
               balance := some 1125 },
              { kind := .cloneLate, card := some 17, peer := some 2 }]
      | _ => false) = true := by decide +kernel

theorem test_a_marked_tap_in_doubt_is_converted_and_resolved :
    (match exec (.dialogueDeadlineExpiry .U)
        (readingBack true (some (updateOf ({ card0 with txc := 6 } : Image).seen)) .normal (some .one)) with
      | .next t =>
        t.link.queue.map QItem.msg == [.denyAdd 17] && (t.screening.denied 17).isSome &&
          t.journal.records.map (fun r => (r.body.kind, r.body.related, r.body.outcome)) ==
            [(.inDoubt, none, none), (.resolved, some 1, some .committed)]
      | _ => false) = true := by decide +kernel

/-- Port U in the readback of a blocking write of card 17, with the verdict fixed before it. -/
def blocking (v : Verdict) : State :=
  dialogue .confirming (.fetch .header) { tapU with header := some header17, verdict := some v }

theorem test_meets_blocking_writes_that_end :
    ((blocking (.refused .denied)).port .U).ctx =
        some { tapU with header := some header17, verdict := some (.refused .denied) } ∧
      (blocking .committedClone).port .U ≠ (blocking (.refused .clone)).port .U ∧
      ({ header17 with status := .blocked } : Header).bytes.length = 8 ∧
      ((blocking .committedClone).onPort .U fun p => { p with attempts := 2 }).portU.attempts = 2 ∧
      (blocking (.refused .clone)).holdsNoEntry .U tapU.card ∧ (blocking (.refused .denied)).roomFor 2 :=
  ⟨rfl, by decide, by decide, rfl, fun c h => by cases h; rfl, Or.inr (by decide)⟩

theorem test_stop_is_lit_through_a_blocking_write : ((blocking .committedClone).lamps .U).stop = true := rfl

/-- Port U waiting for the aisle with a SUMMON in flight. -/
def summoning (attempts : Nat) (early : Bool) : State :=
  waiting.onPort .U fun p =>
    { p with
      attempts := attempts, exchange := some { request := .summon, windowError := false, earlierError := early } }

theorem test_meets_windows_of_a_waiting_port :
    ((summoning 1 false).port .U).state = .waitAisle ∧ (summoning 1 false).service.state ≠ .suspending ∧
      ((summoning 1 false).port .U).attempts < 2 ∧ 2 ≤ ((summoning 2 true).port .U).attempts ∧
      (true || false || (none : Option AnswerError).isSome) = true ∧
      (false || false || (none : Option AnswerError).isSome) = false := by decide

theorem test_meets_Exchanges :
    (serving.port .U).exchange = none ∧
      ((dialogue .writing (.store .imageB []) tapU).port .U).exchange =
        some { request := .store .imageB [], windowError := false, earlierError := false } ∧
      ((dialogue .writing (.store .imageB []) tapU).onPort .U fun p => { p with attempts := 2 }).portU.attempts = 2 ∧
      ((dialogue .reading (.fetch .header) tapU).port .U).attempts < 2 ∧ tapU.side = .U ∧
      ((dialogue .idle .summon tapU).port .U).state = .idle ∧
      ((dialogue .done .summon tapU).port .U).state = .done := by decide

theorem test_meets_answers_that_do_not_fit :
    (CardRequest.fetch .header ≠ .summon ∧ CardRequest.store .imageB [] ≠ .summon) ∧
      (CardRequest.fetch .header = .fetch .header → ([0] : List Byte).length ≠ 8) ∧
      (CardRequest.fetch .header = .fetch .imageA → ([] : List Byte).length ≠ 40) ∧
      (CardRequest.summon = .fetch .imageA → (List.replicate 40 (0 : Byte)).length ≠ 40) ∧
      (∀ bytes, CardRequest.store .imageB [] ≠ .store .imageA bytes) ∧
      ∀ bytes, CardRequest.fetch .imageB ≠ .store .imageB bytes :=
  ⟨by decide, fun _ => by decide, nofun, nofun, nofun, nofun⟩

theorem test_meets_TapTimers :
    (waiting.port .U).state = .waitAisle ∧ (serving.port .U).state ≠ .waitAisle ∧
      ((dialogue .reading (.fetch .header) tapU).port .U).deadline = .running 300 ∧ tapU.storeSent = false ∧
      (confirming.port .U).deadline = .running 300 ∧
      ((confirming.port .U).ctx.map TapContext.storeSent) = some true ∧
      (∀ until_, (serving.port .U).deadline ≠ .running until_) ∧ confirming.screening.counts.inDoubt < 64 ∧
      confirming.passage.claim.waitU = false ∧ confirming.passage.claim.waits .U = false ∧
      (confirming.port .U).exchange.isSome = true :=
  ⟨rfl, by decide, rfl, rfl, rfl, rfl, fun _ h => (nomatch h), by decide, rfl, rfl, rfl⟩

theorem test_meets_TurnsBegin :
    member.meets 2 ∧ member.link.state = .member ∧ member.link.token = .waiting ∧
      (member.onLink fun l => { l with state := .listening }).link.state = .listening ∧
      ¬(serving.link.state = .listening ∨ (serving.link.state = .member ∧ serving.link.token = .waiting)) ∧
      (member.onLink fun l => { l with loneWait := some 5 }).link.loneWait.isSome = true ∧
      member.link.loneWait = none ∧ sending.link.token = .sending ∧ sending.link.rows.length = 16 ∧
      (∀ reason, sending.link.state ≠ .offline reason) ∧ (2 : Byte).toNat ≠ sending.link.addr :=
  ⟨⟨fun _ h => (nomatch h), by decide, by decide, by decide, rfl, rfl⟩, rfl, rfl, rfl, by decide, rfl, rfl, rfl, rfl,
    fun _ h => (nomatch h), by decide⟩

/-- A member that waits to send the next frame of its turn, with so many sent, this queue, an invitation due or not,
and gate 2 present or not. -/
def dueToSend (sent : Nat) (queue : List QItem) (inviteDue peer : Bool) : State :=
  member.onLink fun l =>
    { l with
      token := .sending, due := true, sent := sent, queue := queue, inviteDue := inviteDue,
      rows := if peer then l.rows else List.replicate 16 MemberRow.blank }

theorem test_meets_what_a_turn_sends :
    (dueToSend 3 [] false true).link.due = true ∧ (dueToSend 3 [] false true).pending = [] ∧
      (dueToSend 3 [] false true).link.FramesLeft true ∧ (dueToSend 3 [] false true).link.EmergencyWaits true ∧
      ((dueToSend 3 [] false true).onLink fun l => { l with deassertPending := true }).link.EmergencyWaits false ∧
      (dueToSend 3 [frame17] false true).link.FramesLeft false ∧
      ¬(dueToSend 3 [frame17] false true).link.EmergencyWaits false ∧
      ¬(dueToSend 4 [frame17] true true).link.FramesLeft true ∧ (dueToSend 4 [frame17] true true).link.inviteDue = true ∧
      (dueToSend 4 [frame17] true false).link.invited = some 2 ∧ (dueToSend 4 [] true true).link.invited = none ∧
      ¬(dueToSend 0 [] false true).link.FramesLeft false ∧ (dueToSend 0 [] false true).link.inviteDue = false ∧
      (dueToSend 0 [] false true).link.successor = some 2 ∧ ¬(dueToSend 4 [frame17] false false).link.MoreToSend true := by
  simp only [Link.FramesLeft, Link.EmergencyWaits, Link.MoreToSend]
  decide

theorem test_meets_how_a_turn_goes_on :
    sending.link.due = false ∧ sending.link.tx = some .data ∧
      (dueToSend 1 [] false true).link.MoreToSend false ∧ (dueToSend 4 [] true false).link.MoreToSend false ∧
      ¬(dueToSend 1 [] false false).link.MoreToSend false ∧ sending.link.window = none ∧
      (member.onLink fun l => { l with tx := some (.emergency false) }).link.tx = some (.emergency false) ∧
      (member.onLink fun l => { l with tx := some (.emergency true) }).link.due = false ∧ member.link.due = false ∧
      (member.link.turn + 1) % 8 ≠ 0 ∧ ((member.onLink fun l => { l with turn := 7 }).link.turn + 1) % 8 = 0 := by
  simp only [Link.FramesLeft, Link.EmergencyWaits, Link.MoreToSend]
  decide

/-- A queue whose LAPSE waits behind the SIGHTING of its card. -/
def lapseBehind : List QItem :=
  [{ frame17 with msg := .sighting 17 ⟨5, 9⟩ ⟨6, 9⟩ }, { frame17 with msg := .lapse 17 ⟨6, 9⟩ .U }]

theorem test_meets_frames_eligible_and_not :
    ({ frame17 with msg := .regrant 18 ⟨6, 9⟩ } : QItem).Eligible [{ frame17 with msg := .sighting 17 ⟨5, 9⟩ ⟨6, 9⟩ }] ∧
      ∀ ahead x later, lapseBehind = ahead ++ x :: later → ¬x.Eligible ahead := by
  refine ⟨⟨Or.inr rfl, by decide⟩, ?_⟩
  intro ahead x later h he
  rcases ahead with _ | ⟨a, _ | ⟨b, _ | ⟨c, rest⟩⟩⟩ <;>
    simp only [lapseBehind, List.nil_append, List.cons_append, List.cons.injEq, reduceCtorEq, and_false] at h
  · obtain ⟨rfl, -⟩ := h
    exact absurd he.1 (by decide)
  · obtain ⟨rfl, rfl, -⟩ := h
    exact he.2 _ List.mem_cons_self ⟨rfl, rfl⟩

/-- A full queue: a frame in transmission, a LAPSE of card 17 that SYNC_LINE 1 has marked, 62 frames of other cards. -/
def fullQueue : List QItem :=
  { frame17 with msg := .denyAdd 16, inTx := true } ::
    { frame17 with msg := .lapse 17 ⟨6, 9⟩ .U, marks := [1] } ::
      (List.range 62).map fun k => { frame17 with msg := .denyAdd (BitVec.ofNat 32 (k + 100)) }

/-- A member with that queue and the SYNC_LINE outstanding. -/
def full : State := member.onLink fun l => { l with queue := fullQueue, syncs := [{ tag := 1, dropped := 0 }] }

theorem test_meets_frames_replaced_kept_and_queued :
    (full.link.withFrame (.lapse 17 ⟨7, 9⟩ .P)).queue =
        fullQueue.set 1 { frame17 with msg := .lapse 17 ⟨7, 9⟩ .P, marks := [1] } ∧
      full.link.withFrame (.denyAdd 100) = full.link ∧ full.link.dropRecords [.denyAdd 100] = [] ∧
      (full.link.withFrame (.denyAdd 16)).queue =
        (fullQueue.eraseIdx 1) ++ [{ frame17 with msg := .denyAdd 16 }] := by decide +kernel

theorem test_meets_a_frame_driven_out_of_a_full_queue :
    full.link.drivenOut (.denyAdd 17) = some { frame17 with msg := .lapse 17 ⟨6, 9⟩ .U, marks := [1] } ∧
      full.link.dropRecords [.denyAdd 17] =
        [{ kind := .shareDropped, card := some 17, reason := some (.dropped .lapse) }] ∧
      full.syncAnswers [.denyAdd 17] = [Reply.inWindow 1 .syncLine (.synced 1)] ∧
      (full.link.withFrame (.denyAdd 17)).syncs = [] := by decide +kernel

theorem test_a_clone_late_over_a_full_queue :
    (match exec (.linkSighting 2 17 4 1 5 1)
        { sighting17 (.committed ⟨.own, none, false⟩) with link := full.link } with
      | .next t =>
        t.link == (full.heardFrom 2).link.withFrame (.denyAdd 17) &&
          t.formed == [Reply.inWindow 1 .syncLine (.synced 1)] &&
          t.journal.records.map Record.body ==
            [{ kind := .shareDropped, card := some 17, reason := some (.dropped .lapse) },
              { kind := .cloneLate, card := some 17, peer := some 2 }]
      | _ => false) = true := by decide +kernel

theorem test_meets_Invitations :
    (∀ reason, member.link.state ≠ .offline reason) ∧ (2 : Byte).toNat ≠ member.link.addr ∧
      member.link.rows.length = 16 ∧
      (member.onLink fun l => { l with token := .inviting 3 false }).link.token =
        .inviting (3 : Byte).toNat false ∧
      (member.onLink fun l => { l with window := some 2 }).link.window.isSome = true ∧
      member.link.token = .waiting ∧ (member.link.row (2 : Byte).toNat).present = true ∧
      sending.link.token ≠ .waiting ∧ sending.link.window = none ∧ (2 : Byte).toNat ≠ 3 :=
  ⟨fun _ h => (nomatch h), by decide, rfl, rfl, rfl, rfl, rfl, by decide, rfl, by decide⟩

theorem test_meets_SightingFrames :
    member.meets 2 ∧ (member.link.row (2 : Byte).toNat).present = true ∧ (6 : BitVec 16).toNat = (5 : BitVec 16).toNat + 1 ∧
      (5 : BitVec 16).toNat ≠ (5 : BitVec 16).toNat + 1 ∧ member.screening.sighted 17 = none ∧
      member.screening.sightings.length < 1024 ∧
      (entry17 (.committed ⟨.own, none, false⟩)).baseline ≠ ⟨(6 : BitVec 16).toNat, 1⟩ ∧
      (entry17 (.committed ⟨.own, none, false⟩)).baseline = ⟨(5 : BitVec 16).toNat, 9⟩ ∧
      (sighting17 (.inDoubt ⟨6, 9⟩ 1)).screening.sighted 17 = some (entry17 (.inDoubt ⟨6, 9⟩ 1)) :=
  ⟨⟨fun _ h => (nomatch h), by decide, by decide, by decide, rfl, rfl⟩, rfl, rfl, by decide, rfl, by decide, by decide,
    rfl, rfl⟩

theorem test_a_late_finding_is_counted_while_a_frame_is_sent :
    (match exec (.linkSighting 2 17 4 1 5 1)
        { (sighting17 (.committed ⟨.own, none, false⟩)).onHost (fun h =>
            { h with tx := some (.notice (.alarm .clear none)), findings := 3 }) with link := member.link } with
      | .next t => t.host.findings == 4 && t.tells .cloneDetected
      | _ => false) = true := by decide +kernel

/-- A full sighting table whose one COMMITTED entry is that of card 18. -/
def fullTable : State :=
  member.onScreening fun c =>
    { c with
      sightings :=
        { entry17 (.committed ⟨.own, none, false⟩) with card := 18 } ::
          List.replicate 1023 { entry17 (.inDoubt ⟨6, 9⟩ 1) with card := 19 } }

theorem test_meets_a_full_sighting_table :
    fullTable.screening.sighted 17 = none ∧ 1024 ≤ fullTable.screening.sightings.length ∧
      ∀ x ∈ fullTable.screening.sightings, x ≠ { entry17 (.committed ⟨.own, none, false⟩) with card := 18 } →
        ¬∃ other, x.state = .committed other := by
  refine ⟨by decide +kernel, ?_, ?_⟩
  · change 1024 ≤ (_ :: List.replicate 1023 _).length
    rw [List.length_cons, List.length_replicate]
  · intro x hx hne ⟨other, ho⟩
    rcases List.mem_cons.mp hx with h | h
    · exact hne h
    · rw [List.eq_of_mem_replicate h] at ho
      cases ho

/-- A deny list in order, its first `loc` entries LOCAL. -/
def denyList (n loc : Nat) : List DenyEntry :=
  (List.range n).map fun k =>
    { card := BitVec.ofNat 32 (k + 100), origin := if k < loc then .own else .central, action := .refuse, added := k,
      made := k }

/-- A member with that deny list. -/
def denyingMany (n loc : Nat) : State := member.onScreening fun c => { c with deny := denyList n loc }

theorem denyList_countP (n loc : Nat) : (denyList n loc).countP DenyEntry.isLocal = min n loc := by
  induction n with
  | zero => simp [denyList]
  | succ n ih =>
    rw [denyList] at ih ⊢
    rw [List.range_succ, List.map_append, List.countP_append, ih]
    by_cases h : n < loc <;> simp [DenyEntry.isLocal, h] <;> omega

theorem denyList_order (n loc : Nat) (h : n ≤ 16384) :
    (denyList n loc).Pairwise fun a b => a.card.toNat < b.card.toNat := by
  rw [denyList, List.pairwise_map]
  refine List.Pairwise.imp_of_mem ?_ List.pairwise_lt_range
  intro a b ha hb hab
  have := List.mem_range.mp hb
  simp only [BitVec.toNat_ofNat]
  omega

theorem test_meets_full_deny_lists :
    (denyingMany 600 512).screening.denyOk ∧ (denyingMany 600 512).screening.localCount = 512 ∧
      (denyingMany 600 511).screening.denyOk ∧ (denyingMany 600 511).screening.localCount < 512 ∧
      (denyingMany 16384 1).screening.denyOk ∧ 16384 ≤ (denyingMany 16384 1).screening.deny.length ∧
      0 < (denyingMany 16384 1).screening.localCount ∧ (denyingMany 16384 0).screening.localCount = 0 := by
  have hc (n loc : Nat) : (denyingMany n loc).screening.localCount = min n loc := denyList_countP n loc
  have hl (n loc : Nat) : (denyingMany n loc).screening.deny.length = n := by
    change (denyList n loc).length = n
    simp [denyList]
  have ho (n loc : Nat) (h : n ≤ 16384) (h' : loc ≤ 512) : (denyingMany n loc).screening.denyOk :=
    ⟨denyList_order n loc h, (hc n loc).trans_le (Nat.le_trans (Nat.min_le_right _ _) h'), (hl n loc).trans_le h⟩
  simp only [hc, hl]
  exact ⟨ho _ _ (by omega) (by omega), by decide, ho _ _ (by omega) (by omega), by decide, ho _ _ (by omega) (by omega),
    by decide, by decide, by decide⟩

theorem test_meets_the_oldest_local_entry (n : Nat) (h : 0 < n) :
    ∃ old ∈ (denyingMany n 1).screening.deny, old.origin ≠ .central ∧
      ∀ x ∈ (denyingMany n 1).screening.deny, x.origin ≠ .central → x ≠ old →
        old.added < x.added ∨ (old.added = x.added ∧ old.made < x.made) := by
  refine ⟨⟨100, .own, .refuse, 0, 0⟩, List.mem_map.mpr ⟨0, List.mem_range.mpr h, rfl⟩, by decide, ?_⟩
  intro x hx hl hne
  obtain ⟨k, -, rfl⟩ := List.mem_map.mp hx
  by_cases hk : k < 1
  · obtain rfl : k = 0 := by omega
    exact absurd rfl hne
  · exact absurd (if_neg hk) hl

theorem test_meets_LapseRegrantAndDeny :
    member.meets 2 ∧ (17 : CardNo) ≠ 0 ∧ (17 : CardNo) ≠ BitVec.allOnes 32 ∧
      (entry17 (.committed ⟨.own, none, true⟩)).baseline = ⟨(5 : BitVec 16).toNat, 9⟩ ∧
      (sighting17 (.committed ⟨.own, none, true⟩)).screening.sighted 17 =
        some (entry17 (.committed ⟨.own, none, true⟩)) ∧
      member.screening.denied 17 = none ∧ (denying.screening.denied 17).isSome = true ∧
      member.screening.localCount < 512 :=
  ⟨⟨fun _ h => (nomatch h), by decide, by decide, by decide, rfl, rfl⟩, by decide, by decide, rfl, rfl, rfl, rfl,
    by decide⟩

theorem test_meets_PeerContributions :
    member.lineOk ∧ asserting.lineOk ∧ member.meets 2 ∧ asserting.link.rows.length = 16 ∧
      (asserting.link.row (2 : Byte).toNat).contribution = .asserted 10000 ∧
      10000 ≤ ({ asserting with clock := 10000 } : State).clock ∧ asserting.clock < 10000 ∧
      (asserting.link.row (2 : Byte).toNat).present = true ∧ (member.link.row (3 : Byte).toNat).present = false ∧
      (∀ reason, sending.link.state ≠ .offline reason) ∧ sending.lineOk ∧ sending.link.token = .sending ∧
      sending.link.window = none ∧ sending.roomFor 2 ∧ sending.journal.halted = false ∧
      (({ asserting with link := { asserting.link with rows := asserting.link.rows.set 1 ⟨false, none, .held 60000⟩ } } :
        State).link.row (2 : Byte).toNat).contribution = .held 60000 :=
  ⟨rfl, rfl, ⟨fun _ h => (nomatch h), by decide, by decide, by decide, rfl, rfl⟩, rfl, rfl, Nat.le_refl _, by decide, rfl,
    rfl, fun _ h => (nomatch h), rfl, rfl, rfl, Or.inr (by decide), rfl, rfl⟩

theorem test_meets_Monitor :
    serving.link.state = .offline .noAddress ∧ member.link.token = .waiting ∧
      (member.onLink fun l => { l with token := .sending }).link.token = .sending ∧
      (member.onLink fun l => { l with rxBegun := true }).link.rxBegun = true ∧ member.link.rxBegun = false ∧
      sending.driveEnable = true ∧ member.driveEnable = false ∧
      (member.onLink fun l => { l with token := .inviting 3 false, window := some 2 }).driveEnable = false ∧
      ((some (255 : Byte)).any fun d => d.toNat == member.link.addr || d == 255) = true ∧
      ((none : Option Byte).any fun d => d.toNat == member.link.addr || d == 255) = false ∧
      (1 : Byte).toNat = member.link.addr ∧ member.lineOk := by
  refine ⟨rfl, rfl, rfl, rfl, rfl, rfl, rfl, rfl, rfl, rfl, rfl, rfl⟩

/-- A member that holds the token in an invitation whose window has closed over a frame begun. -/
def inviting : State := member.onLink fun l => { l with token := .inviting 3 true, rxBegun := true }

theorem test_meets_a_frame_lost_in_an_invitation :
    inviting.link.token = .inviting 3 true ∧ inviting.link.rxBegun = true ∧ inviting.link.successor = some 2 ∧
      (inviting.onLink fun l => { l with rows := List.replicate 16 MemberRow.blank }).link.successor = none ∧
      (∀ a, sending.link.token ≠ .inviting a true) ∧ sending.link.token ≠ .waiting :=
  ⟨rfl, rfl, by decide, by decide, fun _ h => (nomatch h), by decide⟩

theorem test_meets_a_conflict :
    (1 : Byte).toNat = leaving.link.addr ∧ leaving.lineOk ∧ leaving.link.rows.length = 16 ∧
      (leaving.link.row 2).present = true ∧ (leaving.link.row 2).contribution = .asserted 10000 ∧
      (leaving.link.row 3).present = false ∧ leaving.journal.halted = false ∧ leaving.roomFor 2 ∧
      (leaving.onService fun v => { v with params := { v.params with emergencyHold := 0 } }).lineOk ∧
      (leaving.onJournal fun j => { j with halted := true }).journal.halted = true :=
  ⟨rfl, rfl, rfl, rfl, rfl, rfl, rfl, Or.inr (by decide), rfl, rfl⟩

theorem test_a_conflict_answers_the_outstanding_sync_line :
    (match exec (.linkDenyAdd 1 17) leaving with
      | .next t => t.formed == [Reply.inWindow 9 .syncLine .offline] && t.link.syncs == []
      | _ => false) = true := by decide +kernel

theorem test_meets_FramesSent :
    member.link.tx = none ∧ member.link.window = none ∧
      (member.onLink fun l => { l with token := .passing 2 2, window := some 2 }).link.window.isSome = true ∧
      (member.onLink fun l => { l with tx := some .data, queue := [{ frame17 with inTx := true }] }).link.queue =
        [] ++ { frame17 with inTx := true } :: [] ∧
      member.link.syncs = [] ∧ (member.onLink fun l => { l with tx := some (.token 2) }).link.tx = some (.token 2) ∧
      (member.onLink fun l => { l with token := .passing 2 1 }).link.token = .passing 2 1 ∧
      (member.onLink fun l => { l with token := .passing 2 2 }).link.token = .passing 2 2 ∧
      (member.onLink fun l => { l with token := .inviting 3 false, rxBegun := true }).link.rxBegun = true ∧
      (member.onLink fun l => { l with token := .inviting 3 false }).link.rxBegun = false :=
  ⟨rfl, rfl, rfl, rfl, rfl, rfl, rfl, rfl, rfl, rfl⟩

/-- A member that sends the only frame marked for one SYNC_LINE and the first of two marked for another. -/
def syncing : State :=
  sending.onLink fun l =>
    { l with
      queue := [{ frame17 with inTx := true, marks := [1, 2] }, { frame17 with msg := .denyAdd 18, marks := [2] }],
      syncs := [{ tag := 1, dropped := 0 }, { tag := 2, dropped := 1 }] }

theorem test_meets_sync_lines_that_complete :
    syncing.link.tx = some .data ∧
      syncing.link.queue =
        [] ++ { frame17 with inTx := true, marks := [1, 2] } :: [{ frame17 with msg := .denyAdd 18, marks := [2] }] ∧
      (∀ reason, syncing.link.state ≠ .offline reason) ∧ (syncing.link.syncs.map Sync.tag).Nodup ∧
      syncing.host.resetTaken = false ∧
      ¬(∀ y ∈ syncing.link.syncs,
        ∃ x ∈ [({ frame17 with msg := .denyAdd 18, marks := [2] } : QItem)], y.tag ∈ x.marks) ∧
      ∀ y ∈ [({ tag := 2, dropped := 1 } : Sync)],
        ∃ x ∈ [({ frame17 with msg := .denyAdd 18, marks := [2] } : QItem)], y.tag ∈ x.marks :=
  ⟨rfl, rfl, fun _ h => (nomatch h), by decide, rfl, by decide, by decide⟩

theorem test_meets_a_successor_lost :
    (leaving.onLink fun l => { l with token := .passing 2 2, window := some 2 }).link.token = .passing 2 2 ∧
      (leaving.onLink fun l => { l with token := .passing 2 2, window := some 2 }).link.window.isSome = true ∧
      (leaving.onLink fun l => { l with token := .passing 2 2, window := some 2 }).lineOk ∧
      (leaving.onLink fun l => { l with token := .passing 2 2, window := some 2 }).link.rows.length = 16 :=
  ⟨rfl, rfl, rfl, rfl⟩

theorem test_meets_the_row_whose_loss_ends_an_emergency :
    leaving.link.LastAsserting 2 ∧ leaving.link.StaysHeld 3 0 ∧
      ¬leaving.link.StaysHeld farStation.addr leaving.service.params.emergencyHold := by
  have absent : ∀ x < 17, 2 < x → (leaving.link.row x).present = false := by decide
  refine ⟨⟨by decide, by decide, rfl, ⟨_, rfl⟩, fun x h h16 hp => ?_⟩, Or.inl ⟨_, rfl⟩, ?_⟩
  · rw [absent x (by omega) h] at hp
    cases hp
  · rintro (⟨d, h⟩ | ⟨⟨d, h⟩, -⟩) <;> cases h

theorem test_an_emergency_ends_with_the_successor_lost :
    (match exec .passWindowExpiry
        ((asserting.onLink fun l => { l with token := .passing 2 2, window := some 2 }).onService fun v =>
          { v with params := { v.params with emergencyHold := 0 } }) with
      | .next t =>
        !t.emergency.line &&
          t.journal.records.map Record.body ==
            [{ kind := .membership, peer := some 2, reason := some .lost },
              { kind := .emergencyEnd, peer := some 2, reason := some .peerLost }]
      | _ => false) = true := by decide +kernel

theorem test_meets_Fares :
    1 ≤ network.zoneCount.getD 0 ∧ network.bandsReady = true ∧
      (∀ bands, network.weekday = some bands ∨ network.weekendSet = some bands → bandsInRange bands) := by
  refine ⟨by decide, rfl, ?_⟩
  rintro bands (h | h) <;> cases h <;> simp [bandsInRange]

theorem test_meets_the_matrix :
    network.rows = [(1, [120, 180, 240, 300, 360, 420])] ++ (2, [180, 120, 200, 300, 380, 440]) :: network.rows.drop 2 ∧
      (∀ r ∈ [(1, [120, 180, 240, 300, 360, 420])], r.1 ≠ 2) ∧
      ([180, 120, 200, 300, 380, 440] : List Nat)[5]? = some 440 ∧ network.fare 2 6 = 440 ∧
      (match exec (.loadZoneRow 1 (be 1 2 ++ be 1 6 ++ ([0, 1, 2, 3, 4, 20000] : List Nat).flatMap (be 2)))
          (inState .suspended) with
        | .next t => t.service.fare 2 6 == 20000 && t.service.fare 3 6 == 360
        | _ => false) = true := by decide +kernel

theorem test_meets_priced :
    (priced tuesday { ClassRec.invalid with cap := 600 } card0 0 125 0 395).isSome = true := by decide +kernel

theorem test_meets_CheckEleven :
    network.station = some { number := 7, zones := { first := 3, second := none }, mode := .bidirectional } ∧
      card0.journey = .outside ∧ ({ card0 with journey := .inSystem } : Image).journey = .inSystem ∧
      card0.balance < ({ ClassRec.invalid with entryMin := 1126 } : ClassRec).entryMin ∧
      ({ ClassRec.invalid with entryMin := 1125 } : ClassRec).entryMin ≤ card0.balance ∧
      (network.priceMissing tuesday network.classes.c4 ⟨3, none⟩ card0 tuesday.now).isSome = true ∧
      (network.priceExit tuesday network.classes.c2 ⟨6, none⟩ { card0 with balance := 0, spent := 0 }
        tuesday.now) = none := by decide +kernel

theorem test_meets_CardAreas :
    (Header.accept 17 header17.bytes).isSome = true ∧ header17.cls ≤ 7 ∧
      ({ card0 with txc := 65534 } : Image).txc < 65535 ∧ 65535 ≤ ({ card0 with txc := 65535 } : Image).txc ∧
      ({ card0 with txc := 65534 } : Image).txc < ({ card0 with txc := 65535 } : Image).txc ∧
      ({ card0 with balance := 0 } : Image).txc = card0.txc ∧
      (∀ y, (none : Option Image) = some y → y.txc < card0.txc) := by
  refine ⟨by decide +kernel, by decide, by decide, by decide, by decide, rfl, fun _ h => (nomatch h)⟩

theorem test_meets_WhatIsWritten :
    card0.inRange ∧ header17.card ≠ 0 ∧ header17.card ≠ BitVec.allOnes 32 ∧ header17.cls ≤ 7 ∧
      (LinkMsg.sighting 17 ⟨65534, 0⟩ ⟨65535, 0⟩).inRange := by
  refine ⟨?_, by decide, by decide, by decide, ⟨by decide, by decide⟩⟩
  simp [Image.inRange, Zones.inRange, card0, clock, Config.maxTime]

theorem test_meets_WarmReset :
    (∀ e ∈ serving.screening.sightings, e.isPending = false) ∧ serving.passage.credits = [] ∧
      serving.screening.sightOk := ⟨by decide, rfl, List.nodup_nil⟩

theorem test_meets_a_warm_reset_over_taps_and_credits :
    (readingBack true (some (updateOf ⟨6, 9⟩)) .normal (some .one)).screening.sightOk ∧
      (readingBack true (some (updateOf ⟨6, 9⟩)) .normal (some .one)).screening.sightings.length ≤ 1024 ∧
      credited.screening.sightOk ∧ credited.screening.sightings.length ≤ 1024 ∧
      credited.passage.credits.flatMap credited.lapseFrames = [.lapse 17 ⟨5, 9⟩ .U] :=
  ⟨List.nodup_singleton _, by decide, List.nodup_singleton _, by decide, by decide⟩

theorem test_a_warm_reset_settles_a_marked_tap_and_lapses_a_credit :
    (match exec (.warmReset false)
        (((readingBack true (some (updateOf ({ card0 with txc := 6 } : Image).seen)) .normal (some .one)).onScreening
            fun v =>
              { v with sightings := v.sightings ++ [{ entry17 (.committed ⟨.own, none, false⟩) with card := 18 }] }).onPassage
          fun g => { g with credits := [credit18] }) with
      | .next t =>
        t.journal.records.map (fun r => r.body.kind) == [.inDoubt, .resolved] &&
          t.link.queue.map QItem.msg == [.denyAdd 17, .lapse 18 ⟨5, 9⟩ .U] &&
          (t.screening.sighted 17).any fun e => e.state == .committed ⟨.peer 2, none, false⟩
      | _ => false) = true := by decide +kernel

theorem test_meets_TablesChange :
    exec .slotGrant serving = .next serving ∧ serving.service.state ≠ .outOfService ∧
      State.reset.service.state = .outOfService ∧ State.reset.portU.ctx = none ∧ State.reset.portP.ctx = none ∧
      ({ serving.service.schemes with s2 := .retired } : Schemes).get 2 = .retired :=
  ⟨rfl, by decide, rfl, rfl, rfl, rfl⟩

/-- A part whose next append brings the count to notice level and halt level. -/
def atLevels : State := serving.onService fun v => { v with params := { v.params with noticeLevel := 1, haltLevel := 1 } }

theorem test_meets_RecordsNeverChange :
    (∀ p, Instr.fireInputChange true ≠ .powerOn p) ∧ (∀ fire, Instr.fireInputChange true ≠ .warmReset fire) ∧
      Instr.fireInputChange true ≠ .hostFrameSent ∧
      (match exec (.fireInputChange true) atLevels with
        | .next t =>
          t.journal.records.map Record.body == [fireStart] && t.journal.halted && t.tells .journalLevel &&
            t.tells .journalHalt
        | _ => false) = true :=
  ⟨fun _ h => (nomatch h), fun _ h => (nomatch h), by decide, by decide⟩

theorem test_meets_StepKeepsGood :
    Good { State.reset with clock := 7 } ∧
      step { State.reset with clock := 7 } = .next { State.reset with clock := 8 } := by
  refine ⟨⟨⟨rfl, by decide⟩, ⟨by simp only [Params.levelsOk]; decide, fun _ => by decide⟩, rfl,
    ⟨List.Pairwise.nil, by decide, by decide⟩, List.nodup_nil, ⟨by decide, by decide⟩, rfl, ?_, ⟨List.nodup_nil, ?_⟩,
    ⟨List.nodup_nil, ?_⟩, ?_⟩, rfl⟩
  · exact Nat.zero_le 3
  · exact Nat.zero_le 65535
  · exact List.not_mem_nil
  · exact Nat.zero_le _

theorem test_meets_StepKeepsSound :
    Sound { State.reset with clock := 7 } ∧
      step { State.reset with clock := 7 } = .next { State.reset with clock := 8 } := by
  refine ⟨⟨by decide, fun e h => absurd h List.not_mem_nil, ?_, ?_, ?_, ?_, ?_, fun _ _ _ => rfl, by decide,
    ⟨List.nodup_nil, fun o h => absurd h List.not_mem_nil⟩, fun _ => rfl, rfl,
    ⟨?_, fun h => h.elim (nomatch ·) (nomatch ·)⟩, ⟨by decide, (nomatch ·), fun _ h => (nomatch h)⟩, ?_, fun h => (nomatch h), by decide⟩, rfl⟩
  · intro side x h
    cases side <;> cases h
  · intro side c h
    cases side <;> cases h
  · intro side h
    cases side <;> cases h
  · intro side c k h
    cases side <;> cases h
  · intro k
    refine ⟨fun side h => ?_, fun h => ?_⟩ <;> cases k <;> cases h
  · intro m n h1 h4 _ _ h
    obtain rfl | rfl | rfl | rfl : m = 1 ∨ m = 2 ∨ m = 3 ∨ m = 4 := by omega
    all_goals cases h
  · intro side h
    cases side <;> exact absurd rfl h

end Sys2Proof.Machine.Tests
end

section
/-! Why soundness is not kept (O21): `Sound` lets a port in WAIT_AISLE hold a slot whose request no longer waits, and
the end of such a tap without outcome leaves the slot behind. -/

namespace Sys2Proof.Machine

/-- A tap of Port U that stands in WAIT_AISLE although its context holds slot 1 already; the third attempt of its
SUMMON is in flight, and its window is about to close in silence. -/
def slotInWaitAisle : State :=
  { State.reset with
    portU :=
      { Port.initial with
        state := .waitAisle, attempts := 2,
        exchange := some { request := .summon, windowError := false, earlierError := false },
        ctx := some { TapContext.fresh .U (some 1) with slot := some .one } },
    passage :=
      { State.reset.passage with
        claim := { Claim.initial with direction := some .inbound, slot1 := some (.context .U) } },
    service :=
      { State.reset.service with
        state := .inService, schemes := { s1 := .current, s2 := .accepted, s3 := .accepted, s4 := .accepted } },
    pending := [.answerWindowClose .U none] }

theorem slotInWaitAisle_good : Good slotInWaitAisle where
  serials := ⟨rfl, by decide⟩
  halt := ⟨by simp only [Params.levelsOk]; decide, fun _ => by decide⟩
  line := rfl
  deny := ⟨List.Pairwise.nil, by decide, by decide⟩
  sight := List.nodup_nil
  queue := ⟨by decide, by decide⟩
  rows := rfl
  occupants := Nat.zero_le 3
  notices := ⟨List.nodup_nil, Nat.zero_le _⟩
  window := ⟨List.nodup_nil, List.not_mem_nil⟩
  now := Nat.zero_le _

theorem slotInWaitAisle_sound : Sound slotInWaitAisle where
  sightings := by decide
  pending := fun e h => absurd h List.not_mem_nil
  requests := fun side x h => by
    cases side
    · obtain rfl : _ = x := Option.some.inj h
      exact .inr (.inl rfl)
    · cases h
  verdicts := fun side c h hv => by
    cases side
    · obtain rfl : _ = c := Option.some.inj h
      exact absurd rfl hv
    · cases h
  waits := fun side h => by cases side <;> cases h
  slots := fun side c k h hk => by
    cases side
    · obtain rfl : _ = c := Option.some.inj h
      obtain rfl : _ = k := Option.some.inj hk
      exact ⟨rfl, rfl⟩
    · cases h
  holders := fun k => by
    refine ⟨fun side h => ?_, fun h => ?_⟩
    · cases k
      · cases side
        · exact ⟨_, rfl, rfl⟩
        · cases h
      · cases h
    · cases k <;> cases h
  free := fun h => by cases h
  credits := by decide
  occupants := ⟨List.nodup_nil, fun o h => absurd h List.not_mem_nil⟩
  fault := fun _ => rfl
  leaves := rfl
  schemes := by
    refine ⟨fun m n hm hm4 hn hn4 h1 h2 => ?_, fun _ => ⟨1, by decide, by decide, rfl⟩⟩
    have only : ∀ j, 1 ≤ j → j ≤ 4 → slotInWaitAisle.service.schemes.get j = .current → j = 1 := by
      intro j h1 h4 h
      obtain rfl | rfl | rfl | rfl : j = 1 ∨ j = 2 ∨ j = 3 ∨ j = 4 := by omega
      · rfl
      all_goals cases h
    rw [only m hm hm4 h1, only n hn hn4 h2]
  turn := ⟨by decide, (nomatch ·), fun _ h => (nomatch h)⟩
  contexts := fun _ _ => .inl rfl
  drain := fun h => (nomatch h)
  journal := by decide

/-- Refutes O21. In a good and sound state a port in WAIT_AISLE may hold a slot: `Sound` says of a waiting request that
its context has no slot, and of a held slot that the claim agrees, but not that a tap in WAIT_AISLE has none. The third
silence then discards the context (R12) and leaves the slot to a context that is gone, against `Sound.holders`. -/
theorem not_stepKeepsSound : ¬ Obligations.StepKeepsSound := by
  intro h
  have after := h _ _ slotInWaitAisle_good slotInWaitAisle_sound rfl
  obtain ⟨c, hc, -⟩ := (after.holders .one).1 .U rfl
  cases hc

end Sys2Proof.Machine
end

section
/-! The scheme requests by the state of the slot (R4, R175). -/

namespace Sys2Proof.Machine

variable {s : State} {tag : Byte} {kind : ReqKind} {n : Nat}

/-! ## The four slots -/

theorem Schemes.get_put (v : Schemes) {m n : Nat} (hn : 1 ≤ n) (hn4 : n ≤ 4) (x : SchemeState) :
    (v.put n x).get m = if m = n then x else v.get m := by
  obtain rfl | rfl | rfl | rfl : n = 1 ∨ n = 2 ∨ n = 3 ∨ n = 4 := by omega
  all_goals
    unfold Schemes.put Schemes.get
    split <;> simp_all

theorem SchemeState.deselect_eq (x : SchemeState) : x.deselect = if x = .current then .accepted else x := by
  cases x <;> rfl

theorem Schemes.get_deselect (v : Schemes) (m : Nat) :
    v.deselect.get m = if v.get m = .current then .accepted else v.get m := by
  rw [← SchemeState.deselect_eq]
  unfold Schemes.deselect Schemes.get
  split <;> rfl

/-! ## The requests -/

/-- A scheme request that its body's one byte spells: the slot, or RANGE at the first field (R175, R191). -/
theorem readScheme_be (h : n < 256) : readScheme (be 1 n) = if 1 ≤ n ∧ n ≤ 4 then .value n else .range 1 := by
  have field : fieldAt (be 1 n) 0 1 = n := fieldAt_whole (by simpa using h)
  have judged_eq : ∀ b : Bool, judged [b] n = if b = true then .value n else .range 1 := by
    intro b
    cases b <;> rfl
  simp [readScheme, field, judged_eq]

/-- A request whose owner changes the Service Controller and replies: nothing but that and the reply has happened. -/
theorem answered_onService (f : Service → Service) (body : ReplyBody) (h : s.admits tag kind) :
    let t := (((s.endHostFrame.enter tag).onService f).reply tag kind body).pump
    Answered s t tag kind body ∧ t.host.notices = s.host.notices ∧ t = { s with service := t.service, host := t.host } ∧
      t.service = f s.service := by
  have hr := ((State.admits_iff s tag kind).1 h).1
  refine ⟨Answered.of_reply (u := (s.endHostFrame.enter tag).onService f) body hr rfl rfl rfl rfl rfl rfl ⟨rfl, rfl⟩
    rfl rfl, State.reply_pump_notices body hr, ?_, by simp⟩
  rw [State.pump_rest]
  unfold State.reply
  split <;> rfl

/-- A slot that SELECT_SCHEME names outside 1 to 4 is answered RANGE, as one that RETIRE_SCHEME names (R175, R191). -/
theorem scheme_range (act : Nat → State → State) (h : s.admits tag kind) (hn : n < 256) (hout : ¬(1 ≤ n ∧ n ≤ 4)) :
    request tag kind (readScheme (be 1 n)) act s =
      .next ((s.endHostFrame.enter tag).reply tag kind (.range 1)).pump := by
  rw [readScheme_be hn, if_neg hout, request_range 1 act h]

theorem scheme_value (act : Nat → State → State) (h : s.admits tag kind) (hn : n < 256) (hin : 1 ≤ n ∧ n ≤ 4) :
    request tag kind (readScheme (be 1 n)) act s = .next (act n (s.endHostFrame.enter tag)).pump := by
  rw [readScheme_be hn, if_pos hin, request_value n act h]

/-- What SELECT_SCHEME does by the state of the slot (R175). -/
theorem select_follows (h : s.admits tag .selectScheme) (hn : n < 256) :
    ∃ t, exec (.selectScheme tag (be 1 n)) s = .next t ∧
      (¬(1 ≤ n ∧ n ≤ 4) → OnlyAnswered s t tag .selectScheme (.range 1)) ∧
      (1 ≤ n → n ≤ 4 →
        (s.service.schemes.get n = .accepted →
          Answered s t tag .selectScheme (.schemes t.service.schemes) ∧ t.host.notices = s.host.notices ∧
          t = { s with service := t.service, host := t.host } ∧
          t.service = { s.service with schemes := t.service.schemes } ∧
          ∀ m, 1 ≤ m → m ≤ 4 →
            t.service.schemes.get m =
              if m = n then .current
              else if s.service.schemes.get m = .current then .accepted else s.service.schemes.get m) ∧
        (s.service.schemes.get n = .current →
          OnlyAnswered s t tag .selectScheme (.schemes s.service.schemes)) ∧
        (s.service.schemes.get n = .empty ∨ s.service.schemes.get n = .retired →
          OnlyAnswered s t tag .selectScheme (.refused .schemeState))) := by
  by_cases hin : 1 ≤ n ∧ n ≤ 4
  · refine ⟨_, scheme_value _ h hn hin, fun hout => absurd hin hout, fun h1 h4 => ⟨fun ha => ?_, fun hc => ?_, ?_⟩⟩
    · obtain ⟨answered, notices, rest, service⟩ :=
        answered_onService (kind := .selectScheme) (fun v => { v with schemes := v.schemes.deselect.put n .current })
          (.schemes (s.service.schemes.deselect.put n .current)) h
      have act : State.selectScheme tag n (s.endHostFrame.enter tag) =
          ((s.endHostFrame.enter tag).onService fun v =>
            { v with schemes := v.schemes.deselect.put n .current }).reply tag .selectScheme
              (.schemes (s.service.schemes.deselect.put n .current)) := by
        simp [State.selectScheme, ha, State.replySchemes]
      rw [act, service]
      refine ⟨answered, notices, by rw [← service]; exact rest, rfl, fun m _ _ => ?_⟩
      rw [Schemes.get_put _ h1 h4, Schemes.get_deselect]
    · simpa [State.selectScheme, hc, State.replySchemes] using
        OnlyAnswered.of_reply (.schemes s.service.schemes) h
    · rintro (he | he) <;>
        simpa [State.selectScheme, he] using OnlyAnswered.of_reply (.refused .schemeState) h
  · exact ⟨_, scheme_range _ h hn hin, fun _ => OnlyAnswered.of_reply _ h, fun h1 h4 => absurd ⟨h1, h4⟩ hin⟩

/-- What RETIRE_SCHEME does by the state of the slot (R175). -/
theorem retire_follows (h : s.admits tag .retireScheme) (hn : n < 256) :
    ∃ t, exec (.retireScheme tag (be 1 n)) s = .next t ∧
      (¬(1 ≤ n ∧ n ≤ 4) → OnlyAnswered s t tag .retireScheme (.range 1)) ∧
      (1 ≤ n → n ≤ 4 →
        (s.service.schemes.get n = .accepted →
          Answered s t tag .retireScheme (.schemes t.service.schemes) ∧ t.host.notices = s.host.notices ∧
          t = { s with service := t.service, host := t.host } ∧
          t.service = { s.service with schemes := t.service.schemes } ∧
          ∀ m, 1 ≤ m → m ≤ 4 →
            t.service.schemes.get m = if m = n then .retired else s.service.schemes.get m) ∧
        (s.service.schemes.get n = .retired →
          OnlyAnswered s t tag .retireScheme (.schemes s.service.schemes)) ∧
        (s.service.schemes.get n = .current ∨ s.service.schemes.get n = .empty →
          OnlyAnswered s t tag .retireScheme (.refused .schemeState))) := by
  by_cases hin : 1 ≤ n ∧ n ≤ 4
  · refine ⟨_, scheme_value _ h hn hin, fun hout => absurd hin hout, fun h1 h4 => ⟨fun ha => ?_, fun hc => ?_, ?_⟩⟩
    · obtain ⟨answered, notices, rest, service⟩ :=
        answered_onService (kind := .retireScheme) (fun v => { v with schemes := v.schemes.put n .retired })
          (.schemes (s.service.schemes.put n .retired)) h
      have act : State.retireScheme tag n (s.endHostFrame.enter tag) =
          ((s.endHostFrame.enter tag).onService fun v => { v with schemes := v.schemes.put n .retired }).reply tag
            .retireScheme (.schemes (s.service.schemes.put n .retired)) := by
        simp [State.retireScheme, ha, State.replySchemes]
      rw [act, service]
      exact ⟨answered, notices, by rw [← service]; exact rest, rfl, fun m _ _ => Schemes.get_put _ h1 h4 _⟩
    · simpa [State.retireScheme, hc, State.replySchemes] using
        OnlyAnswered.of_reply (.schemes s.service.schemes) h
    · rintro (he | he) <;>
        simpa [State.retireScheme, he] using OnlyAnswered.of_reply (.refused .schemeState) h
  · exact ⟨_, scheme_range _ h hn hin, fun _ => OnlyAnswered.of_reply _ h, fun h1 h4 => absurd ⟨h1, h4⟩ hin⟩

/-- Settles O19: the body spells the slot, and each request acts on the state of that slot. -/
theorem schemeRequestsFollowTheSlot : Obligations.SchemeRequestsFollowTheSlot :=
  fun _ _ _ hn => ⟨fun h => select_follows h hn, fun h => retire_follows h hn⟩

end Sys2Proof.Machine
end

section
/-! The aisle claim as the ports see it: when a request is granted, which one, and what the grant does (R117 to R119). -/

namespace Sys2Proof.Machine

variable {s : State} {side : Side} {k : SlotId}

/-! ## Sides -/

@[simp] theorem sideOf_dirOf (side : Side) : sideOf (dirOf side) = side := by cases side <;> rfl

@[simp] theorem otherSide_otherSide (side : Side) : otherSide (otherSide side) = side := by cases side <;> rfl

theorem otherSide_ne (side : Side) : otherSide side ≠ side := by cases side <;> exact fun h => nomatch h

theorem Side.eq_or_other (a b : Side) : b = a ∨ b = otherSide a := by
  cases a <;> cases b <;> simp [otherSide]

theorem dirOf_other_ne (side : Side) : dirOf (otherSide side) ≠ dirOf side := by
  cases side <;> exact fun h => nomatch h

@[simp] theorem State.onPassage_port (s : State) (f : Passage → Passage) (side : Side) :
    (s.onPassage f).port side = s.port side := rfl

@[simp] theorem State.onClaim_port (s : State) (f : Claim → Claim) (side : Side) :
    (s.onClaim f).port side = s.port side := rfl

/-- A state in which at most the ports differ, given by its two ports. -/
theorem State.onPort_rest (s : State) (side : Side) (f : Port → Port) :
    s.onPort side f = { s with portU := (s.onPort side f).portU, portP := (s.onPort side f).portP } := by
  cases side <;> rfl

/-- States agree that agree in every block. -/
theorem State.ext_of {s t : State} (pins : s.pins = t.pins) (clock : s.clock = t.clock)
    (freeReads : s.freeReads = t.freeReads) (portU : s.portU = t.portU) (portP : s.portP = t.portP)
    (screening : s.screening = t.screening) (link : s.link = t.link) (passage : s.passage = t.passage)
    (emergency : s.emergency = t.emergency) (journal : s.journal = t.journal) (time : s.time = t.time)
    (service : s.service = t.service) (host : s.host = t.host) (pending : s.pending = t.pending) : s = t := by
  cases s
  cases t
  simp_all

/-! ## Which request is granted -/

/-- The conditions of R118. -/
theorem State.grantable_iff (d : Direction) :
    s.grantable d = true ↔
      (s.passage.claim.direction = none ∨ s.passage.claim.direction = some d) ∧
      (s.passage.claim.slot1 = none ∨ s.passage.claim.slot2 = none) ∧ s.passage.leaf ≠ .fault ∧
      ∀ o ∈ s.passage.occupants, o.direction = d := by
  have free : s.passage.claim.lowestFree.isSome = true ↔
      s.passage.claim.slot1 = none ∨ s.passage.claim.slot2 = none := by
    unfold Claim.lowestFree
    cases s.passage.claim.slot1 <;> cases s.passage.claim.slot2 <;> simp
  simp only [State.grantable, Bool.and_eq_true, Bool.or_eq_true, beq_iff_eq, free, bne_iff_ne, List.all_eq_true,
    and_assoc]

/-- The slot that a grant gives: the lower-numbered free one (R118). -/
theorem State.grantable_lowestFree {d : Direction} (h : s.grantable d = true)
    (hk : if s.passage.claim.slot1 = none then k = .one else k = .two) : s.passage.claim.lowestFree = some k := by
  obtain ⟨-, free, -, -⟩ := (State.grantable_iff d).1 h
  unfold Claim.lowestFree
  split at hk
  · rename_i h1
    simp [h1, hk]
  · rename_i h1
    have h2 := free.resolve_left h1
    cases h1' : s.passage.claim.slot1 with
    | none => exact absurd h1' h1
    | some x => simp [h2, hk]

/-- In leaf FAULT nothing is granted (R118). -/
theorem State.grantable_fault (h : s.passage.leaf = .fault) (d : Direction) : s.grantable d = false := by
  simp [State.grantable, h]

/-- R119: a waiting request that can be granted is, unless the other can be too and its direction was not the last. -/
theorem State.grantChoice_eq (hw : s.passage.claim.waits side = true) (hg : s.grantable (dirOf side) = true)
    (turn : s.passage.claim.waits (otherSide side) = true → s.grantable (dirOf (otherSide side)) = true →
      s.passage.claim.lastGranted = dirOf (otherSide side)) : s.grantChoice = some side := by
  cases side with
  | U =>
    simp only [Claim.waits, dirOf, otherSide] at hw hg turn
    cases hp : s.passage.claim.waitP && s.grantable .outbound with
    | false => simp [State.grantChoice, hw, hg, hp]
    | true =>
      obtain ⟨h1, h2⟩ := Bool.and_eq_true_iff.1 hp
      simp [State.grantChoice, hw, hg, h1, h2, turn h1 h2]
  | P =>
    simp only [Claim.waits, dirOf, otherSide] at hw hg turn
    cases hu : s.passage.claim.waitU && s.grantable .inbound with
    | false => simp [State.grantChoice, hw, hg, hu]
    | true =>
      obtain ⟨h1, h2⟩ := Bool.and_eq_true_iff.1 hu
      simp [State.grantChoice, hw, hg, h1, h2, turn h1 h2]

/-- R119 grants only a request that waits and meets the conditions. -/
theorem State.grantChoice_some (h : s.grantChoice = some side) :
    s.passage.claim.waits side = true ∧ s.grantable (dirOf side) = true := by
  have both : ∀ u p last : Bool,
      (if u && p then some (if last then Side.P else .U) else if u then some .U else if p then some .P else none) =
        some side → (side = .U ∧ u = true) ∨ (side = .P ∧ p = true) := by
    cases side <;> decide
  rcases both _ _ _ h with ⟨rfl, hu⟩ | ⟨rfl, hp⟩
  · exact Bool.and_eq_true_iff.1 hu
  · exact Bool.and_eq_true_iff.1 hp

/-- With no request waiting nothing is granted. -/
theorem State.judgeWaiting_none (h : ∀ side, ¬(s.passage.claim.waits side = true ∧ s.grantable (dirOf side) = true)) :
    s.judgeWaiting = s := by
  unfold State.judgeWaiting
  split
  · rename_i side hs
    exact absurd (State.grantChoice_some hs) (h side)
  · rfl

/-! ## What a grant does -/

/-- A grant in a direction that the claim has, or takes (R118). -/
theorem Claim.grant_eq {c : Claim} {d : Direction} (hd : c.direction = none ∨ c.direction = some d) (h : Holder) :
    c.grant k d h = { c.setSlot k (some h) with direction := some d, lastGranted := d } := by
  rcases hd with hd | hd <;> simp [Claim.grant, hd]

/-- The port of a granted request: READING, its deadline going on, the header asked for at once (R11 to R13). -/
theorem Port.beginReading_eq (p : Port) (clock : Nat) (path : Path) (slot : Option SlotId) :
    p.beginReading clock path slot =
      { p.asking .reading (.fetch .header) with
        deadline := p.deadline.resume clock, aisleWait := none,
        ctx := p.ctx.map fun c => { c with path := some path, slot := slot } } := rfl

/-- A grant changes claim and port alone. -/
theorem grantPort_spec (hg : s.grantable (dirOf side) = true)
    (hk : if s.passage.claim.slot1 = none then k = .one else k = .two) :
    s.grantPort side =
      { s with
        portU := (s.grantPort side).portU, portP := (s.grantPort side).portP,
        passage := (s.grantPort side).passage } ∧
      (s.grantPort side).passage = { s.passage with claim := (s.grantPort side).passage.claim } ∧
      (s.grantPort side).passage.claim =
        { (s.passage.claim.setWait side false).setSlot k (some (.context side)) with
          direction := some (dirOf side), lastGranted := dirOf side } ∧
      (s.grantPort side).port (otherSide side) = s.port (otherSide side) ∧
      (s.grantPort side).port side = (s.port side).beginReading s.clock .normal (some k) := by
  have hd : (s.passage.claim.setWait side false).direction = s.passage.claim.direction := by cases side <;> rfl
  have dir := ((State.grantable_iff _).1 hg).1
  rw [← hd] at dir
  have e : s.grantPort side =
      (s.onClaim fun c => (c.setWait side false).grant k (dirOf side) (.context side)).onPort side
        (Port.beginReading s.clock .normal (some k)) := by
    simp only [State.grantPort, State.grantable_lowestFree hg hk]
  rw [e]
  refine ⟨by rw [State.onPort_rest]; rfl, by simp [State.onClaim], ?_, by simp, by simp⟩
  simp only [State.onPort_passage, State.onClaim, State.onPassage_passage]
  exact Claim.grant_eq dir _

/-- Settles O37: the row SLOT_GRANT judges the waiting requests, and R119 says which of two. -/
theorem waitingRequestsAreGrantedByTurns : Obligations.WaitingRequestsAreGrantedByTurns := by
  refine fun s => ⟨fun side k hw hg turn hk => ?_, fun hnone => ?_, fun d => State.grantable_iff d⟩
  · obtain ⟨rest, passage, claim, other, port⟩ := grantPort_spec hg hk
    have granted : s.judgeWaiting = s.grantPort side := by
      unfold State.judgeWaiting
      rw [State.grantChoice_eq hw hg turn]
    have effect : exec .slotGrant s = .next (s.grantPort side).pump := by rw [← granted]; rfl
    have ports : ∀ x, (s.grantPort side).pump.port x = (s.grantPort side).port x := by
      rintro (_ | _) <;> simp [State.port]
    refine ⟨_, effect, Told.of_host (by rw [rest]), ?_, ?_, ?_, ?_, ?_⟩
    · rw [State.pump_rest]
      generalize (s.grantPort side).pump.host = host
      rw [rest]
    · rw [State.pump_passage]; exact passage
    · rw [State.pump_passage]; exact claim
    · rw [ports]; exact other
    · rw [ports, port, Port.beginReading_eq]
      cases (s.port side).deadline <;> rfl
  · have same : exec .slotGrant s = .next s.pump := by
      show done s.judgeWaiting = _
      rw [State.judgeWaiting_none hnone]
      rfl
    exact ⟨_, same, Told.of_host rfl, State.pump_rest s⟩

end Sys2Proof.Machine
end

section
/-! Power-on (R25, R96, R116, R140, R148, R163, R176, R177, R189). -/

namespace Sys2Proof.Machine

variable {s : State}

/-! ## The leaves at a reset (R134, R140) -/

/-- The leaves' settling changes the leaf state and the travel timer alone (R134). -/
theorem settleLeaves_rest (s : State) :
    s.settleLeaves =
      { s with
        passage := { s.passage with leaf := s.settleLeaves.passage.leaf, travel := s.settleLeaves.passage.travel } } := by
  unfold State.settleLeaves State.closeIfClear
  split
  · split <;> rfl
  · split <;> rfl
  · split
    · rfl
    · split <;> rfl
  · split
    · rfl
    · split <;> rfl
  · rfl
  · rfl

/-- From the aisle at a reset, where the switches put the leaves, they go where the line emergency asks (R134, R140). -/
theorem settleLeaves_atReset {d : Direction} (h : s.passage = Passage.atReset s.pins s.clock d) :
    AisleAtRest s.settleLeaves.passage s.pins s.emergency.line s.clock d := by
  have leaves : s.settleLeaves.passage.leaf =
        (if s.pins.closedSwitch = true then if s.emergency.line = true then .opening else .closed
        else if s.pins.openSwitch = true then
          if s.emergency.line = true then .heldOpen else if s.pins.leaf = true then .opened else .closing
        else if s.emergency.line = true then .opening else .closing) ∧
      s.settleLeaves.passage.travel =
        (if s.settleLeaves.passage.leaf = .opening ∨ s.settleLeaves.passage.leaf = .closing then some (s.clock + 1500)
        else none) := by
    have hold : s.passage.holdOpen = false ∧ s.passage.credits = [] := by rw [h]; exact ⟨rfl, rfl⟩
    have travel : s.passage.travel = if s.passage.leaf = .closing then some (s.clock + 1500) else none := by
      rw [h]; rfl
    have leaf : s.passage.leaf = leafAtReset s.pins := by rw [h]; rfl
    obtain ⟨hold, credits⟩ := hold
    unfold leafAtReset at leaf
    cases hc : s.pins.closedSwitch with
    | true =>
      simp only [hc, if_true] at leaf
      cases hl : s.emergency.line <;>
        simp [State.settleLeaves, leaf, travel, State.commandOpen, hl, hold, credits, Passage.travelTo, Config.travelMs]
    | false =>
      cases ho : s.pins.openSwitch with
      | true =>
        simp only [hc, ho, Bool.false_eq_true, if_true, if_false] at leaf
        cases hl : s.emergency.line <;> cases hz : s.pins.leaf <;>
          simp [State.settleLeaves, State.closeIfClear, leaf, travel, State.alarmsSuppressed, State.commandOpen, hl, hz,
            hold, credits, Passage.travelTo, Passage.rest, Config.travelMs]
      | false =>
        simp only [hc, ho, Bool.false_eq_true, if_false] at leaf
        cases hl : s.emergency.line <;>
          simp [State.settleLeaves, leaf, travel, State.commandOpen, hl, hold, credits, Passage.travelTo, Config.travelMs]
  have kept : s.settleLeaves.passage =
      { Passage.atReset s.pins s.clock d with
        leaf := s.settleLeaves.passage.leaf, travel := s.settleLeaves.passage.travel } := by
    conv_lhs => rw [settleLeaves_rest, h]
  constructor
  case leaf => exact leaves.1
  case travel => exact leaves.2
  case latches => rw [kept]; exact ⟨rfl, rfl⟩
  case latest => rw [kept]; exact ⟨rfl, rfl⟩
  all_goals rw [kept]; rfl

/-! ## The first record (R148) -/

/-- With every journal level far away, a first record brings no notice of the journal (R154, R155). -/
theorem announceFire_poweredUp (s : State) (p : Pins) :
    (s.poweredUp p).announceFire =
      if p.fire = true then
        ((s.poweredUp p).onJournal (Journal.push fireStartRecord 0)).raise .emergencyChange
      else s.poweredUp p := by
  unfold State.announceFire
  have line : (s.poweredUp p).emergency.line = p.fire := rfl
  rw [line]
  split <;> rfl

/-- What stands after a power-on but for the aisle, before the transmitter's choice. -/
theorem announceFire_spec (s : State) (p : Pins) :
    let v := (s.poweredUp p).announceFire
    v = { s.poweredUp p with journal := v.journal, host := v.host } ∧
      v.journal.records =
        numbered 1 0 (if p.fire = true then [{ kind := .emergencyStart, reason := some .fire }] else []) ∧
      v.journal.nextSerial = (if p.fire = true then 2 else 1) ∧ v.journal.halted = false ∧
      v.host = { HostLink.initial (lineSpeed p) with notices := v.host.notices } ∧
      ∀ k, v.tells k = (p.fire && k == .emergencyChange) := by
  intro v
  have e : v = _ := announceFire_poweredUp s p
  clear_value v
  subst e
  cases hf : p.fire with
  | true => exact ⟨rfl, rfl, rfl, rfl, rfl, fun k => State.raise_tells_eq _ _ k⟩
  | false => exact ⟨rfl, rfl, rfl, rfl, rfl, fun k => by simp [State.tells, State.poweredUp, HostLink.initial]⟩

theorem lineSpeed_eq (p : Pins) : lineSpeed p = speedOf p := by
  unfold lineSpeed speedOf
  cases p.strap1 <;> cases p.strap2 <;> rfl

/-- The Aisle Link Controller at power-on (R116). -/
theorem linkInitial_atRest : LinkAtRest Link.initial 0 where
  address := rfl
  state := rfl
  token := ⟨rfl, rfl⟩
  pointer := rfl
  rows := fun _ h => List.eq_of_mem_replicate h
  tx := ⟨rfl, rfl, fun _ h => absurd h List.not_mem_nil⟩
  deassert := rfl
  syncs := rfl

/-- Settles O55: the blocks at their power-on values, then the fire input, the leaves and the transmitter. -/
theorem powerOnStartsEveryBlock : Obligations.PowerOnStartsEveryBlock := by
  refine ⟨rfl, fun s p => ⟨(s.poweredUp p).announceFire.settleLeaves.pump, rfl, ?_⟩⟩
  obtain ⟨rest, records, next, halted, host, told⟩ := announceFire_spec s p
  have aisle : AisleAtRest (s.poweredUp p).announceFire.settleLeaves.passage p p.fire s.clock .outbound := by
    have := settleLeaves_atReset (s := (s.poweredUp p).announceFire) (d := .outbound) (by rw [rest]; rfl)
    rw [rest] at this ⊢
    exact this
  generalize (s.poweredUp p).announceFire = v at *
  have settled := settleLeaves_rest v
  generalize v.settleLeaves = w at *
  have ports : ∀ side, w.pump.port side = .initial := fun side => by
    cases side <;> simp only [State.port, State.pump_portU, State.pump_portP] <;> rw [settled, rest] <;> rfl
  have whost : w.host = v.host := by rw [settled]
  refine ⟨?_, ?_, ?_, ?_, fun side => ?_, ?_, ?_, ?_, ?_, ?_, ?_, ?_, ?_, ?_, ?_, ?_, ?_, fun n _ _ => ?_, ?_, ?_, ?_,
    ?_, fun k => ?_, ?_, ?_, ?_, ?_, ?_⟩
  · rw [State.pump_pins, settled, rest]; rfl
  · rw [State.pump_clock, settled, rest]; rfl
  · rw [State.pump_freeReads, settled, rest]; rfl
  · rw [State.pump_pending, settled, rest]; rfl
  · rw [ports]; exact ⟨rfl, rfl, rfl, rfl, rfl, rfl, rfl⟩
  · rw [State.pump_screening, settled, rest]; rfl
  · rw [State.pump_screening, settled, rest]; rfl
  · rw [State.pump_link, settled, rest]; exact linkInitial_atRest
  · rw [State.pump_link, settled, rest]; rfl
  · rw [State.pump_link, settled, rest]; rfl
  · rw [State.pump_passage]; exact aisle
  · rw [State.pump_emergency, settled, rest]; rfl
  · rw [State.pump_journal, settled]; exact records
  · rw [State.pump_journal, settled]; exact next
  · rw [State.pump_journal, settled]; exact halted
  · rw [State.pump_time, settled, rest]; rfl
  · rw [State.pump_service, settled, rest]; rfl
  · rw [State.pump_service, settled, rest]; exact Schemes.get_deselect _ n
  · rw [State.pump_host_speed, whost, host]; exact lineSpeed_eq p
  · rw [State.pump_host_rxInFrame, whost, host]; rfl
  · rw [State.pump_host_window, whost, host]; rfl
  · rw [State.pump_formed, State.formed, whost, host]; rfl
  · rw [State.pump_tells_eq, ← told k, State.tells, State.tells, whost]
  · rw [State.pump_host_tapU, whost, host]; rfl
  · rw [State.pump_host_tapP, whost, host]; rfl
  · rw [State.pump_host_finding, whost, host]; rfl
  · have none_ : w.host.findings = 0 := by rw [whost, host]; rfl
    unfold State.pump
    split
    · exact none_
    · exact none_
    · split
      · exact none_
      · simp only [State.sendNotice, State.onHost_host, none_, ite_self]
  · rw [State.pump_host_resetTaken, whost, host]; rfl

end Sys2Proof.Machine
end

section
/-! Card memory: a header or an image is the one its bytes spell, and of two images one is current (R1 to R3, R5,
R193). -/

namespace Sys2Proof.Machine

/-! ## Bytes as numbers and back (R190) -/

theorem ofBe_lt (bs : List Byte) : ofBe bs < 256 ^ bs.length := by
  induction bs using List.reverseRecOn with
  | nil => simp [ofBe]
  | append_singleton bs b ih =>
    rw [ofBe_snoc, List.length_append, List.length_singleton, pow_succ]
    have := b.isLt
    omega

theorem be_ofBe (bs : List Byte) : be bs.length (ofBe bs) = bs := by
  induction bs using List.reverseRecOn with
  | nil => rfl
  | append_singleton bs b ih =>
    have hb := b.isLt
    rw [ofBe_snoc, List.length_append, List.length_singleton, be]
    have quotient : (ofBe bs * 256 + b.toNat) / 256 = ofBe bs := by omega
    have last : BitVec.ofNat 8 (ofBe bs * 256 + b.toNat) = b := by
      apply BitVec.eq_of_toNat_eq
      rw [BitVec.toNat_ofNat]
      omega
    rw [quotient, last, ih]

/-- A field that lies within the bytes is written as it stands there. -/
theorem be_fieldAt {bs : List Byte} {off len : Nat} (h : off + len ≤ bs.length) :
    be len (fieldAt bs off len) = (bs.drop off).take len := by
  have hl : ((bs.drop off).take len).length = len := by simp; omega
  have := be_ofBe ((bs.drop off).take len)
  rwa [hl] at this

theorem fieldAt_lt {bs : List Byte} {off len : Nat} (h : off + len ≤ bs.length) :
    fieldAt bs off len < 256 ^ len := by
  have hl : ((bs.drop off).take len).length = len := by simp; omega
  have := ofBe_lt ((bs.drop off).take len)
  rwa [hl] at this

/-- Bytes up to a field, and the field, are the bytes up to its end. -/
theorem take_append_field {bs : List Byte} {off len : Nat} (h : off + len ≤ bs.length) :
    bs.take off ++ be len (fieldAt bs off len) = bs.take (off + len) := by
  rw [be_fieldAt h, List.take_add]

theorem be_first_field {bs : List Byte} {len : Nat} (h : len ≤ bs.length) :
    be len (fieldAt bs 0 len) = bs.take len := by
  rw [be_fieldAt (by omega), List.drop_zero]

theorem fieldAt_here (k n : Nat) (bs : List Byte) : fieldAt (be k n ++ bs) 0 k = ofBe (be k n) := by
  rw [fieldAt, List.drop_zero, List.take_append_of_le_length (by simp), List.take_of_length_le (by simp)]

theorem fieldAt_end (k n : Nat) : fieldAt (be k n) 0 k = ofBe (be k n) := by
  simpa using fieldAt_here k n []

theorem fieldAt_later {k off : Nat} (n : Nat) (bs : List Byte) (len : Nat) (h : k ≤ off) :
    fieldAt (be k n ++ bs) off len = fieldAt bs (off - k) len := by
  obtain ⟨d, rfl⟩ := Nat.exists_eq_add_of_le h
  rw [fieldAt_past, Nat.add_sub_cancel_left]

/-- Two's complement is written as it was read (R190). -/
theorem signedBe_ofSigned {k n : Nat} (h : n < 256 ^ k) : signedBe k (ofSigned k n) = be k n := by
  unfold signedBe ofSigned
  congr 1
  have hm : ((n : Int) % (256 ^ k : Nat)) = n := by
    rw [Int.emod_eq_of_lt (by omega) (by exact_mod_cast h)]
  split
  · rw [hm]; rfl
  · rw [Int.sub_emod_right, hm]; rfl

/-! ## The header area (R1, R193) -/

theorem Header.bytes_length (h : Header) : h.bytes.length = 8 := by simp [Header.bytes]

theorem Header.fields (h : Header) :
    fieldAt h.bytes 0 4 = h.card.toNat ∧ fieldAt h.bytes 4 1 = ofBe (be 1 h.cls) ∧
      fieldAt h.bytes 5 1 = h.status.code ∧ fieldAt h.bytes 6 2 = ofBe (be 2 h.expiry) := by
  have card : ofBe (be 4 h.card.toNat) = h.card.toNat := ofBe_be (by simpa using h.card.isLt)
  have status : ofBe (be 1 h.status.code) = h.status.code := ofBe_be (by cases h.status <;> decide)
  simp [Header.bytes, List.append_assoc, fieldAt_here, fieldAt_end, fieldAt_later, card, status]

/-- A header with its fields in range is accepted as what it is (R1). -/
theorem Header.accept_bytes {h : Header} (h0 : h.card ≠ 0) (h1 : h.card ≠ BitVec.allOnes 32) (hc : h.cls ≤ 7)
    (he : h.expiry ≤ 65535) : Header.accept h.card h.bytes = some h := by
  obtain ⟨f1, f2, f3, f4⟩ := h.fields
  have cls : ofBe (be 1 h.cls) = h.cls := ofBe_be (by omega)
  have expiry : ofBe (be 2 h.expiry) = h.expiry := ofBe_be (by omega)
  have number : BitVec.ofNat 32 h.card.toNat = h.card := by simp
  unfold Header.accept
  simp only [f1, f2, f3, f4, cls, expiry, number, Header.bytes_length]
  rw [if_pos ⟨trivial, trivial, h0, h1, hc⟩]
  cases hs : h.status <;> simp [CardStatus.code, ← hs]

/-- Bytes that are accepted are those of the header they are accepted as (R1). -/
theorem Header.bytes_of_accept {card : CardNo} {content : List Byte} {h : Header}
    (ha : Header.accept card content = some h) :
    content = h.bytes ∧ h.card = card ∧ card ≠ 0 ∧ card ≠ BitVec.allOnes 32 ∧ h.cls ≤ 7 ∧ h.expiry ≤ 65535 := by
  unfold Header.accept at ha
  simp only at ha
  split at ha
  · rename_i hc
    obtain ⟨len, number, h0, h1, cls⟩ := hc
    obtain ⟨st, hst, rfl⟩ := Option.map_eq_some_iff.1 ha
    have code : st.code = fieldAt content 5 1 := by
      split at hst
      · rename_i hn; rw [hn]; cases hst; rfl
      · rename_i hn; rw [hn]; cases hst; rfl
      · cases hst
    have hnum : (BitVec.ofNat 32 (fieldAt content 0 4)).toNat = fieldAt content 0 4 := by
      have := fieldAt_lt (bs := content) (off := 0) (len := 4) (by omega)
      rw [BitVec.toNat_ofNat]
      exact Nat.mod_eq_of_lt (by simpa using this)
    have expiry := fieldAt_lt (bs := content) (off := 6) (len := 2) (by omega)
    refine ⟨?_, number, h0, h1, cls, by simpa using Nat.le_of_lt_succ expiry⟩
    simp only [Header.bytes, hnum, code]
    rw [be_first_field (by omega), take_append_field (by omega), take_append_field (by omega),
      take_append_field (by omega), List.take_of_length_le (by omega)]
  · cases ha

/-! ## The image areas (R2, R3, R193) -/

theorem Image.covered_length (i : Image) : i.covered.length = 36 := by
  simp [Image.covered, signedBe, Zones.bytes]

theorem Image.bytes_length (i : Image) : i.bytes.length = 40 := by
  simp [Image.bytes, Image.covered_length]

theorem Image.bytes_take (i : Image) : i.bytes.take 36 = i.covered := by
  rw [Image.bytes, ← i.covered_length, List.take_left']
  rfl

/-- Every field stands at its offset (R193). -/
theorem Image.fields (i : Image) :
    fieldAt i.bytes 0 2 = ofBe (be 2 i.txc) ∧ fieldAt i.bytes 2 4 = ofBe (signedBe 4 i.balance) ∧
      fieldAt i.bytes 6 1 = ofBe (be 1 i.journey.code) ∧ fieldAt i.bytes 7 2 = ofBe (be 2 i.entryStation) ∧
      fieldAt i.bytes 9 1 = ofBe (be 1 i.entryZones.first) ∧
      fieldAt i.bytes 10 1 = ofBe (be 1 (i.entryZones.second.getD 0)) ∧
      fieldAt i.bytes 11 4 = ofBe (be 4 i.entryTime) ∧ fieldAt i.bytes 15 1 = ofBe (be 1 i.originZones.first) ∧
      fieldAt i.bytes 16 1 = ofBe (be 1 (i.originZones.second.getD 0)) ∧
      fieldAt i.bytes 17 4 = ofBe (be 4 i.chainStart) ∧ fieldAt i.bytes 21 2 = ofBe (be 2 i.chainPaid) ∧
      fieldAt i.bytes 23 1 = ofBe (be 1 i.chainLegs) ∧
      fieldAt i.bytes 24 2 = ofBe (be 2 (i.lastExit.elim 0 LastExit.station)) ∧
      fieldAt i.bytes 26 4 = ofBe (be 4 (i.lastExit.elim 0 LastExit.time)) ∧
      fieldAt i.bytes 30 1 = ofBe (be 1 i.flags) ∧ fieldAt i.bytes 31 2 = ofBe (be 2 i.capDay) ∧
      fieldAt i.bytes 33 2 = ofBe (be 2 i.spent) ∧ fieldAt i.bytes 35 1 = ofBe (be 1 i.scheme) ∧
      fieldAt i.bytes 36 4 = ofBe (be 4 i.stamp.toNat) := by
  simp [Image.bytes, Image.covered, signedBe, Zones.bytes, List.append_assoc, fieldAt_here, fieldAt_end, fieldAt_later]

theorem Zones.read_bytes {z : Zones} (h : z.inRange) :
    Zones.read (ofBe (be 1 z.first)) (ofBe (be 1 (z.second.getD 0))) = some z := by
  obtain ⟨h1, h2, h3⟩ := h
  have first : ofBe (be 1 z.first) = z.first := ofBe_be (by omega)
  rw [first]
  obtain ⟨a, second⟩ := z
  cases second with
  | none =>
    have zero : ofBe (be 1 0) = 0 := ofBe_be (by decide)
    simp_all [Zones.read]
  | some n =>
    have hn := h3 n rfl
    have second : ofBe (be 1 n) = n := ofBe_be (by omega)
    have pos : n ≠ 0 := by omega
    simp_all [Zones.read]

theorem Zones.of_read {a b : Nat} {z : Zones} (h : Zones.read a b = some z) :
    z.inRange ∧ z.first = a ∧ z.second.getD 0 = b := by
  unfold Zones.read at h
  split at h
  · rename_i hr
    obtain ⟨h1, h2, h3⟩ := hr
    obtain rfl := Option.some.inj h
    refine ⟨⟨h1, h2, fun n hn => ?_⟩, rfl, ?_⟩
    · simp only at hn
      split at hn
      · cases hn
      · obtain rfl := Option.some.inj hn
        omega
    · simp only
      split <;> simp_all
  · cases h

theorem Image.flags_lt (i : Image) : i.flags < 4 := by
  unfold Image.flags
  split <;> split <;> decide

theorem Image.flags_grace (i : Image) : (i.flags % 2 == 1) = i.graceUsed := by
  unfold Image.flags
  cases i.graceUsed <;> cases i.lastExit <;> simp

theorem Image.flags_exit (i : Image) : (i.flags / 2 % 2 == 1) = i.lastExit.isSome := by
  unfold Image.flags
  cases i.graceUsed <;> cases i.lastExit <;> simp

theorem LastExit.read_codes {e : Option LastExit}
    (h : ∀ x, e = some x → 1 ≤ x.station ∧ x.station ≤ 4095 ∧ x.time ≤ Config.maxTime) :
    LastExit.read e.isSome (ofBe (be 2 (e.elim 0 LastExit.station))) (ofBe (be 4 (e.elim 0 LastExit.time))) = some e := by
  cases e with
  | none =>
    have zero2 : ofBe (be 2 0) = 0 := ofBe_be (by decide)
    have zero4 : ofBe (be 4 0) = 0 := ofBe_be (by decide)
    simp [LastExit.read, zero2, zero4]
  | some x =>
    obtain ⟨h1, h2, h3⟩ := h x rfl
    simp only [Config.maxTime] at h3
    have station : ofBe (be 2 x.station) = x.station := ofBe_be (by omega)
    have time : ofBe (be 4 x.time) = x.time := ofBe_be (by omega)
    simp [LastExit.read, station, time, h1, h2]

theorem LastExit.of_read {present : Bool} {a b : Nat} {e : Option LastExit} (h : LastExit.read present a b = some e)
    (hb : b ≤ Config.maxTime) :
    e.isSome = present ∧ e.elim 0 LastExit.station = a ∧ e.elim 0 LastExit.time = b ∧
      ∀ x, e = some x → 1 ≤ x.station ∧ x.station ≤ 4095 ∧ x.time ≤ Config.maxTime := by
  unfold LastExit.read at h
  split at h
  · rename_i hp
    split at h
    · rename_i hr
      obtain rfl := Option.some.inj h
      refine ⟨hp.symm, rfl, rfl, fun x hx => ?_⟩
      obtain rfl := Option.some.inj hx
      exact ⟨hr.1, hr.2, hb⟩
    · cases h
  · rename_i hp
    split at h
    · rename_i hr
      obtain rfl := Option.some.inj h
      exact ⟨by simpa using hp, hr.1.symm, hr.2.symm, fun x hx => by cases hx⟩
    · cases h

/-- An image with its fields in range is read as what it is (R2). -/
theorem Image.read_bytes {i : Image} (h : i.inRange) : Image.read i.bytes = some i := by
  obtain ⟨txc, bal1, bal2, st1, st2, ez, et, oz, cs, cp, cl, le, cd, sp, sc1, sc2⟩ := h
  simp only [Config.maxTime] at et cs
  obtain ⟨f1, f2, f3, f4, f5, f6, f7, f8, f9, f10, f11, f12, f13, f14, f15, f16, f17, f18, f19⟩ := i.fields
  have flags : ofBe (be 1 i.flags) = i.flags := ofBe_be (by have := i.flags_lt; omega)
  have balance : ofSigned 4 (ofBe (signedBe 4 i.balance)) = i.balance :=
    ofSigned_signedBe 4 _ (by norm_num; omega) (by norm_num; omega)
  have e1 : ofBe (be 2 i.txc) = i.txc := ofBe_be (by omega)
  have e2 : ofBe (be 2 i.entryStation) = i.entryStation := ofBe_be (by omega)
  have e3 : ofBe (be 4 i.entryTime) = i.entryTime := ofBe_be (by omega)
  have e4 : ofBe (be 4 i.chainStart) = i.chainStart := ofBe_be (by omega)
  have e5 : ofBe (be 2 i.chainPaid) = i.chainPaid := ofBe_be (by omega)
  have e6 : ofBe (be 1 i.chainLegs) = i.chainLegs := ofBe_be (by omega)
  have e7 : ofBe (be 2 i.capDay) = i.capDay := ofBe_be (by omega)
  have e8 : ofBe (be 2 i.spent) = i.spent := ofBe_be (by omega)
  have e9 : ofBe (be 1 i.scheme) = i.scheme := ofBe_be (by omega)
  have e10 : ofBe (be 4 i.stamp.toNat) = i.stamp.toNat := ofBe_be (by simpa using i.stamp.isLt)
  have stamp : BitVec.ofNat 32 i.stamp.toNat = i.stamp := by simp
  have exit_ := LastExit.read_codes le
  rw [← i.flags_exit] at exit_
  unfold Image.read
  simp only [f1, f2, f3, f4, f5, f6, f7, f8, f9, f10, f11, f12, f13, f14, f15, f16, f17, f18, f19, flags, balance, e1, e2,
    e3, e4, e5, e6, e7, e8, e9, e10, stamp, Zones.read_bytes ez, Zones.read_bytes oz, exit_, i.flags_grace]
  have guard : i.bytes.length = 40 ∧ -50000 ≤ i.balance ∧ i.balance ≤ 500000 ∧ 1 ≤ i.entryStation ∧
      i.entryStation ≤ 4095 ∧ i.chainLegs ≤ 4 ∧ i.flags < 4 ∧ 1 ≤ i.scheme ∧ i.scheme ≤ 4 :=
    ⟨i.bytes_length, bal1, bal2, st1, st2, cl, i.flags_lt, sc1, sc2⟩
  cases hj : i.journey with
  | outside =>
    have code : ofBe (be 1 Journey.outside.code) = 1 := ofBe_be (by decide)
    simp only [code]
    rw [if_pos guard, ← hj]
  | inSystem =>
    have code : ofBe (be 1 Journey.inSystem.code) = 2 := ofBe_be (by decide)
    simp only [code]
    rw [if_pos guard, ← hj]

/-- Bytes that are read as an image are those of that image, its fields in range (R2). -/
theorem Image.bytes_of_read {content : List Byte} {i : Image} (h : Image.read content = some i) :
    content = i.bytes ∧ i.inRange := by
  unfold Image.read at h
  simp only at h
  split at h
  · rename_i j ez oz le hj hez hoz hle
    split at h
    · rename_i hg
      obtain ⟨len, bal1, bal2, st1, st2, cl, fl, sc1, sc2⟩ := hg
      have lt : ∀ off n, off + n ≤ 40 → fieldAt content off n < 256 ^ n := fun off n hn => fieldAt_lt (by omega)
      obtain ⟨zr1, z1, z2⟩ := Zones.of_read hez
      obtain ⟨zr2, z3, z4⟩ := Zones.of_read hoz
      have word : ∀ off, off + 2 ≤ 40 → fieldAt content off 2 ≤ 65535 := fun off hn => Nat.le_of_lt_succ (lt off 2 hn)
      have time : ∀ off, off + 4 ≤ 40 → fieldAt content off 4 ≤ Config.maxTime :=
        fun off hn => Nat.le_of_lt_succ (lt off 4 hn)
      obtain ⟨x1, x2, x3, x4⟩ := LastExit.of_read hle (time 26 (by omega))
      have code : j.code = fieldAt content 6 1 := by
        split at hj
        · rename_i hn; rw [hn]; cases hj; rfl
        · rename_i hn; rw [hn]; cases hj; rfl
        · cases hj
      have balance : signedBe 4 (ofSigned 4 (fieldAt content 2 4)) = be 4 (fieldAt content 2 4) :=
        signedBe_ofSigned (lt 2 4 (by omega))
      have stamp : (BitVec.ofNat 32 (fieldAt content 36 4)).toNat = fieldAt content 36 4 := by
        rw [BitVec.toNat_ofNat]
        exact Nat.mod_eq_of_lt (lt 36 4 (by omega))
      obtain rfl := Option.some.inj h
      refine ⟨?_, word 0 (by omega), bal1, bal2, st1, st2, zr1, time 11 (by omega), zr2, time 17 (by omega),
        word 21 (by omega), cl, x4, word 31 (by omega), word 33 (by omega), sc1, sc2⟩
      have flags : (if (fieldAt content 30 1 % 2 == 1) = true then 1 else 0) + (if le.isSome = true then 2 else 0) =
          fieldAt content 30 1 := by
        rw [x1]
        simp only [beq_iff_eq]
        split <;> split <;> omega
      simp only [Image.bytes, Image.covered, Image.flags, Zones.bytes, flags, code, balance, stamp, x2, x3, z1, z2, z3, z4,
        ← List.append_assoc]
      rw [be_first_field (by omega)]
      repeat rw [take_append_field (by omega)]
      rw [List.take_of_length_le (by omega)]
    · cases h
  · cases h

/-- When an image area is valid (R2, R3, R193). -/
theorem readArea_valid (v : Service) (card : CardNo) (content : List Byte) (i : Image) :
    (v.readArea card content).valid = some i ↔
      content = i.bytes ∧ i.inRange ∧
        (v.schemes.get i.scheme = .accepted ∨ v.schemes.get i.scheme = .current) ∧
        i.stamp = Config.stampOf i.scheme (stampInput card i.covered) := by
  have judged : (v.readArea card content).valid = some i ↔
      Image.read content = some i ∧
        (v.schemes.get i.scheme = .accepted ∨ v.schemes.get i.scheme = .current) ∧
        i.stamp = Config.stampOf i.scheme (stampInput card (content.take 36)) := by
    simp [Service.readArea, Option.filter_eq_some_iff]
  rw [judged]
  constructor
  · rintro ⟨read, slot, stamp⟩
    obtain ⟨rfl, range⟩ := Image.bytes_of_read read
    exact ⟨rfl, range, slot, by rwa [i.bytes_take] at stamp⟩
  · rintro ⟨bytes, range, slot, stamp⟩
    rw [bytes, i.bytes_take]
    exact ⟨Image.read_bytes range, slot, stamp⟩

/-! ## The current image (R5) -/

theorem unexhausted_current (slot : ImageSlot) (i : Image) :
    (i.txc < 65535 → Choice.unexhausted slot i = .image { slot := slot, image := i }) ∧
      (65535 ≤ i.txc → Choice.unexhausted slot i = .refuse .cardExhausted) := by
  unfold Choice.unexhausted
  exact ⟨fun h => if_neg (by omega), fun h => if_pos h⟩

/-- Settles O4: the areas are what their bytes spell, and the higher txc is current. -/
theorem cardAreasAreJudgedByTheirRules : Obligations.CardAreasAreJudgedByTheirRules := by
  refine ⟨fun card content h => ⟨Header.bytes_of_accept, ?_⟩, fun v card content => ⟨rfl, readArea_valid v card content⟩,
    fun a b => ⟨?_, ?_, ?_, ?_⟩⟩
  · rintro ⟨rfl, rfl, h0, h1, cls, expiry⟩
    exact Header.accept_bytes h0 h1 cls expiry
  · rintro rfl rfl
    rfl
  · rintro x y rfl rfl same
    exact if_pos same
  · rintro x rfl higher
    have chosen : chooseImage (some x) b = .unexhausted .A x := by
      cases b with
      | none => rfl
      | some y =>
        have := higher y rfl
        simp [chooseImage, this, Nat.ne_of_gt this]
    rw [chosen]
    exact unexhausted_current .A x
  · rintro y rfl higher
    have chosen : chooseImage a (some y) = .unexhausted .B y := by
      cases a with
      | none => rfl
      | some x =>
        have := higher x rfl
        simp [chooseImage, Nat.ne_of_lt this, Nat.not_lt.2 (Nat.le_of_lt this)]
    rw [chosen]
    exact unexhausted_current .B y

end Sys2Proof.Machine
end

section
/-! The tables and the idle ports under every operation: what neither loads a table nor starts a tap (R4, R164, R167,
R169). -/

namespace Sys2Proof.Machine

/-- What an operation keeps that loads no table and starts no tap: the tables, the schemes, the ports without a tap, and
the service state but for the end of a drain, where both ports are idle. -/
structure Rests (s t : State) : Prop where
  tables : t.service.tables = s.service.tables
  schemes : t.service.schemes = s.service.schemes
  ctx : ∀ side, (s.port side).ctx = none → (t.port side).ctx = none
  state : t.service.state = s.service.state ∨ (t.service.state = .suspended ∧ ∀ side, (t.port side).ctx = none)

variable {s t : State}

@[simp] theorem Rests.refl (s : State) : Rests s s := ⟨rfl, rfl, fun _ => id, .inl rfl⟩

/-! ## The state's blocks -/

/-- Only the ports and the service block matter. -/
theorem Rests.congr {u : State} (h : Rests s t) (hp : ∀ side, u.port side = t.port side) (hv : u.service = t.service) :
    Rests s u := by
  obtain ⟨tables, schemes, ctx, state⟩ := h
  refine ⟨hv ▸ tables, hv ▸ schemes, fun side => hp side ▸ ctx side, ?_⟩
  simpa only [hv, hp] using state

@[simp] theorem onPins_rests (f : Pins → Pins) (h : Rests s t) : Rests s (t.onPins f) := h.congr (fun _ => rfl) rfl

@[simp] theorem onScreening_rests (f : Screening → Screening) (h : Rests s t) : Rests s (t.onScreening f) :=
  h.congr (fun _ => rfl) rfl

@[simp] theorem onLink_rests (f : Link → Link) (h : Rests s t) : Rests s (t.onLink f) := h.congr (fun _ => rfl) rfl

@[simp] theorem onPassage_rests (f : Passage → Passage) (h : Rests s t) : Rests s (t.onPassage f) :=
  h.congr (fun _ => rfl) rfl

@[simp] theorem onClaim_rests (f : Claim → Claim) (h : Rests s t) : Rests s (t.onClaim f) := h.congr (fun _ => rfl) rfl

@[simp] theorem onEmergency_rests (f : Emergency → Emergency) (h : Rests s t) : Rests s (t.onEmergency f) :=
  h.congr (fun _ => rfl) rfl

@[simp] theorem onJournal_rests (f : Journal → Journal) (h : Rests s t) : Rests s (t.onJournal f) :=
  h.congr (fun _ => rfl) rfl

@[simp] theorem onTime_rests (f : TimeBase → TimeBase) (h : Rests s t) :
    Rests s (t.onTime f) := h.congr (fun _ => rfl) rfl

@[simp] theorem onHost_rests (f : HostLink → HostLink) (h : Rests s t) :
    Rests s (t.onHost f) := h.congr (fun _ => rfl) rfl

@[simp] theorem freeReads_rests (n : Nat) (h : Rests s t) : Rests s { t with freeReads := n } :=
  h.congr (fun _ => rfl) rfl

/-- An update of a port that does not start a tap. -/
@[simp] theorem onPort_rests (side : Side) (f : Port → Port) (hf : ∀ p, p.ctx = none → (f p).ctx = none)
    (h : Rests s t) : Rests s (t.onPort side f) := by
  have idle : ∀ d, (t.port d).ctx = none → ((t.onPort side f).port d).ctx = none := by
    intro d hd
    obtain rfl | rfl := Side.eq_or_other side d
    · simpa using hf _ hd
    · simpa using hd
  obtain ⟨tables, schemes, ctx, state⟩ := h
  refine ⟨by simpa using tables, by simpa using schemes, fun d hd => idle d (ctx d hd), ?_⟩
  simpa using state.imp_right (And.imp_right fun all d => idle d (all d))

@[simp] theorem onCtx_rests (side : Side) (f : TapContext → TapContext) (h : Rests s t) : Rests s (t.onCtx side f) :=
  onPort_rests side _ (fun p hp => by simp [hp]) h

/-- A change of the service block that leaves the tables, the schemes and the state. -/
theorem onService_rests (f : Service → Service) (ht : (f t.service).tables = t.service.tables)
    (hs : (f t.service).schemes = t.service.schemes) (hst : (f t.service).state = t.service.state) (h : Rests s t) :
    Rests s (t.onService f) := by
  obtain ⟨tables, schemes, ctx, state⟩ := h
  exact ⟨ht.trans tables, hs.trans schemes, ctx, by rw [State.onService_service, hst]; exact state⟩

/-! ## Repetition -/

theorem foldl_rests {α : Type} (f : State → α → State) (hf : ∀ u a, Rests s u → Rests s (f u a)) (xs : List α)
    (h : Rests s t) : Rests s (xs.foldl f t) :=
  List.foldlRecOn xs f h fun u hu a _ => hf u a hu

theorem iterate_rests (f : State → State) (hf : ∀ u, Rests s u → Rests s (f u)) (n : Nat) (h : Rests s t) :
    Rests s (Nat.iterate f n t) :=
  Function.Iterate.rec (Rests s) h hf n

/-! ## The ports (R7 to R24) -/

@[simp] theorem Port.close_ctx (st : PortState) (p : Port) : (p.close st).ctx = none := rfl
@[simp] theorem Port.ask_ctx (r : CardRequest) (p : Port) : (p.ask r).ctx = p.ctx := rfl
@[simp] theorem Port.beginReading_ctx_none (clock : Nat) (path : Path) (slot : Option SlotId) (p : Port) :
    (p.beginReading clock path slot).ctx = none ↔ p.ctx = none := by simp [Port.beginReading, Port.ask]
@[simp] theorem Port.failAttempt_ctx (p : Port) : p.failAttempt.ctx = p.ctx := rfl
@[simp] theorem Port.failExchange_ctx (p : Port) : p.failExchange.ctx = p.ctx := rfl
@[simp] theorem Port.abandon_ctx (p : Port) : p.abandon.ctx = p.ctx := by
  unfold Port.abandon
  split <;> rfl
@[simp] theorem Port.retire_ctx (p : Port) : p.retire.ctx = p.ctx := by
  unfold Port.retire
  split <;> rfl
@[simp] theorem Port.revive_ctx (p : Port) : p.revive.ctx = p.ctx := by
  unfold Port.revive
  split <;> rfl

@[simp] theorem failAttempt_rests (side : Side) (h : Rests s t) : Rests s (t.onPort side Port.failAttempt) :=
  onPort_rests side _ (by simp) h

@[simp] theorem failExchange_rests (side : Side) (h : Rests s t) : Rests s (t.onPort side Port.failExchange) :=
  onPort_rests side _ (by simp) h

@[simp] theorem abandon_port_rests (side : Side) (h : Rests s t) : Rests s (t.onPort side Port.abandon) :=
  onPort_rests side _ (by simp) h

@[simp] theorem ask_rests (side : Side) (r : CardRequest) (h : Rests s t) : Rests s (t.onPort side (Port.ask r)) :=
  onPort_rests side _ (by simp) h

/-! ## Notices, replies and the transmitter (R180, R185, R186) -/

@[simp] theorem raise_rests (kind : NoticeKind) (h : Rests s t) : Rests s (t.raise kind) := by simp [State.raise, h]

@[simp] theorem noteFinding_rests (card : CardNo) (kind : FindingKind) (h : Rests s t) :
    Rests s (t.noteFinding card kind) := by
  simp [State.noteFinding, h]

@[simp] theorem giveResult_rests (side : Side) (r : TapResult) (h : Rests s t) : Rests s (t.giveResult side r) := by
  unfold State.giveResult
  split <;> simp [h]

@[simp] theorem reply_rests (tag : Byte) (kind : ReqKind) (body : ReplyBody) (h : Rests s t) :
    Rests s (t.reply tag kind body) := by
  unfold State.reply
  split <;> simp [h]

@[simp] theorem linkRefuse_rests (tag : Byte) (kind : ReqKind) (code : RefusalCode) (h : Rests s t) :
    Rests s (t.linkRefuse tag kind code) := by
  unfold State.linkRefuse
  split <;> simp [h]

@[simp] theorem endHostFrame_rests (h : Rests s t) : Rests s t.endHostFrame := by simp [State.endHostFrame, h]

@[simp] theorem enter_rests (tag : Byte) (h : Rests s t) : Rests s (t.enter tag) := by simp [State.enter, h]

@[simp] theorem sendNotice_rests (kind : NoticeKind) (h : Rests s t) : Rests s (t.sendNotice kind) := by
  simp [State.sendNotice, h]

@[simp] theorem pump_rests (h : Rests s t) : Rests s t.pump := by
  unfold State.pump
  (repeat' split) <;> simp [h]

/-! ## The journal (R152 to R158) -/

@[simp] theorem judgeLevel_rests (h : Rests s t) : Rests s t.judgeLevel := by
  unfold State.judgeLevel
  split <;> simp [h]

@[simp] theorem judgeHalt_rests (h : Rests s t) : Rests s t.judgeHalt := by
  unfold State.judgeHalt
  split <;> simp [h]

@[simp] theorem judgeResume_rests (h : Rests s t) : Rests s t.judgeResume := by
  unfold State.judgeResume
  split <;> simp [h]

@[simp] theorem judgeLoadedLevels_rests (h : Rests s t) : Rests s t.judgeLoadedLevels := by
  unfold State.judgeLoadedLevels
  split <;> simp [h]

@[simp] theorem append_rests (body : RecBody) (h : Rests s t) : Rests s (t.append body) := by
  unfold State.append
  split <;> simp (maxDischargeDepth := 4) [h]

/-! ## The outbound queue and the drain (R112 to R114, R167) -/

@[simp] theorem judgeSync_rests (y : Sync) (h : Rests s t) : Rests s (t.judgeSync y) := by
  unfold State.judgeSync
  split <;> simp [h]

@[simp] theorem judgeSyncs_rests (h : Rests s t) : Rests s t.judgeSyncs :=
  foldl_rests _ (fun _ _ => judgeSync_rests _) _ h

@[simp] theorem makeRoom_rests (h : Rests s t) : Rests s t.makeRoom := by
  unfold State.makeRoom
  (repeat' split) <;> simp (maxDischargeDepth := 4) [h]

@[simp] theorem join_rests (m : LinkMsg) (h : Rests s t) : Rests s (t.join m) := by simp [State.join, h]

@[simp] theorem enqueue_rests (m : LinkMsg) (h : Rests s t) : Rests s (t.enqueue m) := by
  unfold State.enqueue
  (repeat' split) <;> simp [h]

@[simp] theorem answerSuspends_rests (body : ReplyBody) (h : Rests s t) : Rests s (t.answerSuspends body) :=
  onService_rests _ rfl rfl rfl (foldl_rests _ (fun _ _ => reply_rests _ _ _) _ h)

theorem State.portsIdle_iff (s : State) : s.portsIdle = true ↔ ∀ side, (s.port side).ctx = none := by
  simp only [State.portsIdle, Bool.and_eq_true, Option.isNone_iff_eq_none]
  exact ⟨fun h side => by cases side <;> simp [State.port, h], fun h => ⟨h .U, h .P⟩⟩

/-- The drain ends with both ports idle (R167). -/
@[simp] theorem judgeDrain_rests (h : Rests s t) : Rests s t.judgeDrain := by
  unfold State.judgeDrain
  split
  · rename_i hd
    have idle := (State.portsIdle_iff t).1 (by simp_all)
    have suspended : Rests s (t.onService fun v => { v with state := .suspended }) :=
      ⟨h.tables, h.schemes, h.ctx, .inr ⟨rfl, idle⟩⟩
    simp [suspended]
  · exact h

/-! ## The Screening Unit (R72 to R93) -/

@[simp] theorem denyFinding_rests (card : CardNo) (origin : DenyOrigin) (h : Rests s t) :
    Rests s (t.denyFinding card origin) := by
  simp [State.denyFinding, h]

@[simp] theorem cloneOutcome_rests (card : CardNo) (h : Rests s t) : Rests s (t.cloneOutcome card) := by
  simp (maxDischargeDepth := 4) [State.cloneOutcome, h]

@[simp] theorem putSighting_rests (e : Sighting) (h : Rests s t) : Rests s (t.putSighting e) := by
  simp [State.putSighting, h]

@[simp] theorem touchSighting_rests (e : Sighting) (h : Rests s t) : Rests s (t.touchSighting e) := by
  simp [State.touchSighting, h]

@[simp] theorem dropSighting_rests (card : CardNo) (h : Rests s t) : Rests s (t.dropSighting card) := by
  simp [State.dropSighting, h]

@[simp] theorem insertSighting_rests (card : CardNo) (baseline : SImage) (st : SightState) (h : Rests s t) :
    Rests s (t.insertSighting card baseline st) := by
  simp [State.insertSighting, h]

@[simp] theorem abandon_rests (e : Sighting) (h : Rests s t) : Rests s (t.abandon e) := by
  unfold State.abandon
  split <;> simp [h]

@[simp] theorem examineLapse_rests (card : CardNo) (h : Rests s t) : Rests s (t.examineLapse card) := by
  unfold State.examineLapse
  split <;> simp [h]

@[simp] theorem examineLifetime_rests (card : CardNo) (h : Rests s t) : Rests s (t.examineLifetime card) := by
  unfold State.examineLifetime
  (repeat' split) <;> simp [h]

@[simp] theorem examineInDoubt_rests (card : CardNo) (h : Rests s t) : Rests s (t.examineInDoubt card) := by
  unfold State.examineInDoubt
  (repeat' split) <;> simp [h]

@[simp] theorem examineOne_rests (card : CardNo) (h : Rests s t) : Rests s (t.examineOne card) := by
  simp (maxDischargeDepth := 4) [State.examineOne, h]

@[simp] theorem examine_rests (h : Rests s t) : Rests s t.examine := foldl_rests _ (fun _ _ => examineOne_rests _) _ h

@[simp] theorem cloneLate_rests (card : CardNo) (src : Nat) (h : Rests s t) : Rests s (t.cloneLate card src) := by
  simp (maxDischargeDepth := 4) [State.cloneLate, h]

@[simp] theorem sightCommitted_rests (src : Nat) (read written : SImage) (e : Sighting) (h : Rests s t) :
    Rests s (t.sightCommitted src read written e) := by
  unfold State.sightCommitted
  (repeat' split) <;> simp [h]

@[simp] theorem sightPending_rests (src : Nat) (read written : SImage) (e : Sighting) (p : PendingTap)
    (h : Rests s t) : Rests s (t.sightPending src read written e p) := by
  simp [State.sightPending, h]

@[simp] theorem sightInDoubt_rests (src : Nat) (read written : SImage) (e : Sighting) (stored : SImage)
    (serial : Nat) (h : Rests s t) : Rests s (t.sightInDoubt src read written e stored serial) := by
  unfold State.sightInDoubt
  (repeat' split) <;> simp [h]

@[simp] theorem inboundSighting_rests (src : Nat) (card : CardNo) (read written : SImage) (h : Rests s t) :
    Rests s (t.inboundSighting src card read written) := by
  unfold State.inboundSighting
  (repeat' split) <;> simp [h]

@[simp] theorem applyHeld_rests (card : CardNo) (held : Option HeldUpdate) (h : Rests s t) :
    Rests s (t.applyHeld card held) := by
  unfold State.applyHeld
  split <;> simp [h]

@[simp] theorem screenNew_rests (side : Side) (card : CardNo) (img : SImage) (h : Rests s t) :
    Rests s (t.screenNew side card img).1 := by
  simp [State.screenNew, h]

@[simp] theorem regrant_rests (side : Side) (e : Sighting) (st : Standing) (h : Rests s t) :
    Rests s (t.regrant side e st) := by
  simp (maxDischargeDepth := 4) [State.regrant, h]

@[simp] theorem screenCommitted_rests (side : Side) (img : SImage) (e : Sighting) (st : Standing) (h : Rests s t) :
    Rests s (t.screenCommitted side img e st).1 := by
  unfold State.screenCommitted
  (repeat' split) <;> simp [h]

@[simp] theorem screenPending_rests (e : Sighting) (p : PendingTap) (h : Rests s t) :
    Rests s (t.screenPending e p).1 := by
  simp [State.screenPending, h]

@[simp] theorem screenInDoubt_rests (side : Side) (balance : Int) (img : SImage) (e : Sighting) (stored : SImage)
    (serial : Nat) (h : Rests s t) : Rests s (t.screenInDoubt side balance img e stored serial).1 := by
  unfold State.screenInDoubt
  (repeat' split) <;> simp (maxDischargeDepth := 4) [h]

@[simp] theorem screen_rests (side : Side) (card : CardNo) (balance : Int) (img : SImage) (h : Rests s t) :
    Rests s (t.screen side card balance img).1 := by
  unfold State.screen
  (repeat' split) <;> simp [h]

@[simp] theorem storeSent_rests (side : Side) (card : CardNo) (img : SImage) (h : Rests s t) :
    Rests s (t.storeSent side card img) := by
  unfold State.storeSent
  split <;> simp [h]

@[simp] theorem endUnwritten_rests (side : Side) (card : CardNo) (h : Rests s t) :
    Rests s (t.endUnwritten side card) := by
  unfold State.endUnwritten
  (repeat' split) <;> simp [h]

@[simp] theorem cloneIf_rests (mark : Bool) (card : CardNo) (h : Rests s t) : Rests s (t.cloneIf mark card) := by
  unfold State.cloneIf
  split <;> simp [h]

@[simp] theorem commitSighting_rests (side : Side) (card : CardNo) (h : Rests s t) :
    Rests s (t.commitSighting side card) := by
  unfold State.commitSighting
  split <;> simp (maxDischargeDepth := 4) [h]

@[simp] theorem limitInDoubt_rests (h : Rests s t) : Rests s t.limitInDoubt := by
  unfold State.limitInDoubt
  (repeat' split) <;> simp [h]

@[simp] theorem convert_rests (side : Side) (card : CardNo) (h : Rests s t) : Rests s (t.convert side card) := by
  unfold State.convert
  split <;> simp (maxDischargeDepth := 8) [h]

@[simp] theorem lapseRequest_rests (card : CardNo) (side : Side) (h : Rests s t) :
    Rests s (t.lapseRequest card side) := by
  unfold State.lapseRequest
  (repeat' split) <;> simp [h]

@[simp] theorem settleOne_rests (card : CardNo) (h : Rests s t) : Rests s (t.settleOne card) := by
  unfold State.settleOne
  (repeat' split) <;> simp [h]

@[simp] theorem settlePending_rests (h : Rests s t) : Rests s t.settlePending :=
  foldl_rests _ (fun _ _ => settleOne_rests _) _ h

@[simp] theorem tick_rests (h : Rests s t) : Rests s t.tick := by
  unfold State.tick
  split <;> simp [h]

/-! ## The Passage Controller (R117 to R139) -/

@[simp] theorem grantPort_rests (side : Side) (h : Rests s t) : Rests s (t.grantPort side) := by
  unfold State.grantPort
  split <;> simp [h]

@[simp] theorem judgeWaiting_rests (h : Rests s t) : Rests s t.judgeWaiting := by
  unfold State.judgeWaiting
  split <;> simp [h]

@[simp] theorem settleClaim_rests (h : Rests s t) : Rests s t.settleClaim := by simp [State.settleClaim, h]

@[simp] theorem freeSlot_rests (k : SlotId) (h : Rests s t) : Rests s (t.freeSlot k) := by simp [State.freeSlot, h]

@[simp] theorem closeIfClear_rests (h : Rests s t) : Rests s t.closeIfClear := by
  unfold State.closeIfClear
  split <;> simp [h]

@[simp] theorem settleLeaves_rests (h : Rests s t) : Rests s t.settleLeaves := by
  unfold State.settleLeaves
  (repeat' split) <;> simp [h]

@[simp] theorem judgeGateReset_rests (h : Rests s t) : Rests s t.judgeGateReset := by
  unfold State.judgeGateReset
  split <;> simp [h]

@[simp] theorem lapseCredit_rests (c : Credit) (h : Rests s t) : Rests s (t.lapseCredit c) := by
  unfold State.lapseCredit
  split <;> simp [h]

@[simp] theorem removeCredit_rests (k : SlotId) (h : Rests s t) : Rests s (t.removeCredit k) := by
  simp [State.removeCredit, h]

@[simp] theorem recordUnused_rests (c : Credit) (reason : Option Reason) (h : Rests s t) :
    Rests s (t.recordUnused c reason) := by
  unfold State.recordUnused
  split <;> simp [h]

@[simp] theorem clearCredit_rests (cause : ClearCause) (c : Credit) (h : Rests s t) :
    Rests s (t.clearCredit cause c) := by
  unfold State.clearCredit
  split <;> simp (maxDischargeDepth := 4) [h]

@[simp] theorem clearCredits_rests (cause : ClearCause) (h : Rests s t) : Rests s (t.clearCredits cause) :=
  foldl_rests _ (fun _ _ => clearCredit_rests _ _) _ h

@[simp] theorem formCredit_rests (k : SlotId) (d : Direction) (origin : CreditOrigin) (h : Rests s t) :
    Rests s (t.formCredit k d origin) := by
  simp only [State.formCredit]
  split <;> simp [h]

@[simp] theorem alarm_rests (kind : AlarmKind) (side : Option Side) (h : Rests s t) : Rests s (t.alarm kind side) := by
  unfold State.alarm
  split <;> simp (maxDischargeDepth := 4) [h]

@[simp] theorem advance_rests (d : Direction) (place : Option SlotId → List Occupant → List Occupant) (h : Rests s t) :
    Rests s (t.advance d place) := by
  unfold State.advance
  split
  · simp [h]
  · simp only
    split <;> simp [h]

@[simp] theorem enterFrom_rests (mouth : Side) (h : Rests s t) : Rests s (t.enterFrom mouth) := by
  unfold State.enterFrom
  split <;> simp [h]

@[simp] theorem enterLeaf_rests (h : Rests s t) : Rests s t.enterLeaf := by
  unfold State.enterLeaf
  (repeat' split) <;> simp [h]

@[simp] theorem complete_rests (p : Occupant → Bool) (h : Rests s t) : Rests s (t.complete p) := by
  unfold State.complete
  (repeat' split) <;> simp (maxDischargeDepth := 4) [h]

@[simp] theorem settleLeafOne_rests (h : Rests s t) : Rests s t.settleLeafOne := by
  unfold State.settleLeafOne
  (repeat' split) <;> simp [h]

@[simp] theorem leaveMouthOne_rests (mouth : Side) (h : Rests s t) : Rests s (t.leaveMouthOne mouth) := by
  unfold State.leaveMouthOne
  (repeat' split) <;> simp [h]

@[simp] theorem enterMouth_rests (mouth : Side) (h : Rests s t) : Rests s (t.enterMouth mouth) := by
  unfold State.enterMouth
  (repeat' split) <;> simp [h]

theorem forEachOccupant_rests (f : State → State) (hf : ∀ u, Rests s u → Rests s (f u)) (h : Rests s t) :
    Rests s (t.forEachOccupant f) := iterate_rests _ hf _ h

@[simp] theorem leafFault_rests (travel : Travel) (h : Rests s t) : Rests s (t.leafFault travel) := by
  unfold State.leafFault
  split <;> simp (maxDischargeDepth := 8) [h]

@[simp] theorem aisleEmergency_rests (h : Rests s t) : Rests s t.aisleEmergency := by
  simp only [State.aisleEmergency]
  split <;> simp (maxDischargeDepth := 4) [h]

/-! ## The taps (R7 to R45) -/

@[simp] theorem closeTap_rests (side : Side) (named : PortState) (h : Rests s t) : Rests s (t.closeTap side named) :=
  judgeDrain_rests (onPort_rests side _ (by simp) h)

@[simp] theorem endExchange_rests (side : Side) (h : Rests s t) : Rests s (t.endExchange side) := by
  simp [State.endExchange, h]

@[simp] theorem askIn_rests (side : Side) (st : PortState) (r : CardRequest) (h : Rests s t) :
    Rests s (t.askIn side st r) := onPort_rests side _ (by simp) h

@[simp] theorem releaseTap_rests (side : Side) (h : Rests s t) : Rests s (t.releaseTap side) := by
  unfold State.releaseTap
  split <;> simp [h]

@[simp] theorem holdStop_rests (side : Side) (h : Rests s t) : Rests s (t.holdStop side) := by
  simp [State.holdStop, h]

@[simp] theorem endUnwrittenTap_rests (side : Side) (c : TapContext) (h : Rests s t) :
    Rests s (t.endUnwrittenTap side c) := by
  unfold State.endUnwrittenTap
  split <;> simp [h]

@[simp] theorem recordRefusal_rests (c : TapContext) (reason : RefusalReason) (h : Rests s t) :
    Rests s (t.recordRefusal c reason) := by
  unfold State.recordRefusal
  split <;> simp [h]

@[simp] theorem refuse_rests (side : Side) (reason : RefusalReason) (h : Rests s t) :
    Rests s (t.refuse side reason) := by
  unfold State.refuse
  split <;> simp (maxDischargeDepth := 8) [h]

@[simp] theorem startBlock_rests (side : Side) (v : Verdict) (h : Rests s t) : Rests s (t.startBlock side v) := by
  unfold State.startBlock
  split <;> simp [h]

@[simp] theorem endBlock_rests (side : Side) (confirmed : Bool) (h : Rests s t) :
    Rests s (t.endBlock side confirmed) := by
  simp only [State.endBlock]
  (repeat' split) <;> simp (maxDischargeDepth := 4) [h]

@[simp] theorem handOver_rests (side : Side) (origin : CreditOrigin) (h : Rests s t) :
    Rests s (t.handOver side origin) := by
  unfold State.handOver
  (repeat' split) <;> simp [h]

@[simp] theorem succeed_rests (side : Side) (c : TapContext) (outcome : TapOutcome) (origin : Option CreditOrigin)
    (h : Rests s t) : Rests s (t.succeed side c outcome origin) := by
  unfold State.succeed
  split <;> simp (maxDischargeDepth := 4) [h]

@[simp] theorem creditAndCommit_rests (side : Side) (card : CardNo) (origin : CreditOrigin) (h : Rests s t) :
    Rests s (t.creditAndCommit side card origin) := by
  unfold State.creditAndCommit
  (repeat' split) <;> simp (maxDischargeDepth := 4) [h]

@[simp] theorem commit_rests (side : Side) (c : TapContext) (card : CardNo) (d : Decision) (img : Image)
    (h : Rests s t) : Rests s (t.commit side c card d img) := by
  simp (maxDischargeDepth := 4) [State.commit, h]

@[simp] theorem commitMarked_rests (side : Side) (c : TapContext) (card : CardNo) (d : Decision) (img : Image)
    (h : Rests s t) : Rests s (t.commitMarked side c card d img) := by
  simp (maxDischargeDepth := 8) [State.commitMarked, h]

@[simp] theorem inDoubt_rests (side : Side) (h : Rests s t) : Rests s (t.inDoubt side) := by
  unfold State.inDoubt
  (repeat' split) <;> simp (maxDischargeDepth := 8) [h]

@[simp] theorem storeImage_rests (side : Side) (i : ImageRead) (img : Image) (h : Rests s t) :
    Rests s (t.storeImage side i img) := by
  simp [State.storeImage, h]

@[simp] theorem switchToClone_rests (side : Side) (card : CardNo) (h : Rests s t) :
    Rests s (t.switchToClone side card) := by
  simp (maxDischargeDepth := 4) [State.switchToClone, h]

@[simp] theorem beginWrite_rests (side : Side) (card : CardNo) (i : ImageRead) (d : Decision) (body : Image)
    (h : Rests s t) : Rests s (t.beginWrite side card i d body) := by
  simp only [State.beginWrite]
  split <;> simp (maxDischargeDepth := 4) [h]

@[simp] theorem voidWrite_rests (side : Side) (card : CardNo) (h : Rests s t) : Rests s (t.voidWrite side card) := by
  unfold State.voidWrite
  split <;> simp [h]

@[simp] theorem checkJourney_rests (side : Side) (c : TapContext) (card : CardNo) (i : ImageRead) (tapTime : Nat)
    (h : Rests s t) : Rests s (t.checkJourney side c card i tapTime) := by
  unfold State.checkJourney
  split <;> simp (maxDischargeDepth := 4) [h]

@[simp] theorem checkSighting_rests (side : Side) (c : TapContext) (card : CardNo) (i : ImageRead) (tapTime : Nat)
    (h : Rests s t) : Rests s (t.checkSighting side c card i tapTime) := by
  simp only [State.checkSighting]
  split <;> simp (maxDischargeDepth := 4) [h]

@[simp] theorem checkImage_rests (side : Side) (c : TapContext) (card : CardNo) (tapTime : Nat) (h : Rests s t) :
    Rests s (t.checkImage side c card tapTime) := by
  unfold State.checkImage
  split <;> simp [h]

@[simp] theorem checkDeny_rests (side : Side) (c : TapContext) (card : CardNo) (tapTime : Nat) (h : Rests s t) :
    Rests s (t.checkDeny side c card tapTime) := by
  unfold State.checkDeny
  (repeat' split) <;> simp [h]

@[simp] theorem screenTap_rests (side : Side) (c : TapContext) (hd : Header) (card : CardNo) (h : Rests s t) :
    Rests s (t.screenTap side c hd card) := by
  simp only [State.screenTap]
  split <;> simp (maxDischargeDepth := 4) [h]

@[simp] theorem freeExit_rests (side : Side) (h : Rests s t) : Rests s (t.freeExit side) := by
  simp [State.freeExit, h]

@[simp] theorem requestSlot_rests (side : Side) (h : Rests s t) : Rests s (t.requestSlot side) := by
  unfold State.requestSlot
  split <;> simp [h]

@[simp] theorem emergencyPath_rests (side : Side) (h : Rests s t) : Rests s (t.emergencyPath side) := by
  unfold State.emergencyPath
  split <;> simp [h]

@[simp] theorem checkAisle_rests (side : Side) (h : Rests s t) : Rests s (t.checkAisle side) := by
  unfold State.checkAisle
  split <;> simp [h]

@[simp] theorem vanish_rests (side : Side) (named : PortState) (h : Rests s t) : Rests s (t.vanish side named) := by
  simp [State.vanish, h]

@[simp] theorem readingAnswer_rests (side : Side) (c : TapContext) (area : Area) (content : List Byte)
    (h : Rests s t) : Rests s (t.readingAnswer side c area content) := by
  unfold State.readingAnswer
  (repeat' split) <;> simp [h]

@[simp] theorem imageReadback_rests (side : Side) (c : TapContext) (card : CardNo) (i : ImageRead) (d : Decision)
    (img : Image) (area : Area) (content : List Byte) (h : Rests s t) :
    Rests s (t.imageReadback side c card i d img area content) := by
  simp only [State.imageReadback]
  (repeat' split) <;> simp [h]

@[simp] theorem confirmingAnswer_rests (side : Side) (c : TapContext) (area : Area) (content : List Byte)
    (h : Rests s t) : Rests s (t.confirmingAnswer side c area content) := by
  unfold State.confirmingAnswer
  split <;> simp [h]

@[simp] theorem fetched_rests (side : Side) (area : Area) (content : List Byte) (h : Rests s t) :
    Rests s (t.fetched side area content) := by
  unfold State.fetched
  (repeat' split) <;> simp [h]

@[simp] theorem stored_rests (side : Side) (area : Area) (h : Rests s t) : Rests s (t.stored side area) := by
  simp [State.stored, h]

@[simp] theorem wrongAnswer_rests (side : Side) (h : Rests s t) : Rests s (t.wrongAnswer side) := by
  simp [State.wrongAnswer, h]

@[simp] theorem retry_rests (side : Side) (error : Bool) (h : Rests s t) : Rests s (t.retry side error) := by
  simp [State.retry, h]

@[simp] theorem retrySummon_rests (side : Side) (error : Bool) (h : Rests s t) :
    Rests s (t.retrySummon side error) := by
  unfold State.retrySummon
  split <;> simp [h]

@[simp] theorem summonWindow_rests (side : Side) (x : Exchange) (error : Bool) (h : Rests s t) :
    Rests s (t.summonWindow side x error) := by
  unfold State.summonWindow
  (repeat' split) <;> simp [h]

@[simp] theorem fetchFailed_rests (side : Side) (area : Area) (h : Rests s t) : Rests s (t.fetchFailed side area) := by
  unfold State.fetchFailed
  (repeat' split) <;> simp [h]

theorem areaWindow_rests (side : Side) (error : Bool) (failed : State → State)
    (hf : ∀ u, Rests s u → Rests s (failed u)) (h : Rests s t) : Rests s (t.areaWindow side error failed) := by
  unfold State.areaWindow
  split
  · exact retry_rests _ _ h
  · exact hf _ (by simp [h])

@[simp] theorem windowClosed_rests (side : Side) (seen : Bool) (h : Rests s t) :
    Rests s (t.windowClosed side seen) := by
  unfold State.windowClosed
  split
  · exact h
  · split
    · exact summonWindow_rests _ _ _ h
    · exact areaWindow_rests _ _ _ (fun _ => fetchFailed_rests _ _) h
    · exact areaWindow_rests _ _ _ (fun _ => stored_rests _ _) h

@[simp] theorem deadlineExpired_rests (side : Side) (h : Rests s t) : Rests s (t.deadlineExpired side) := by
  unfold State.deadlineExpired
  (repeat' split) <;> simp [h]

/-! ## The Emergency Unit (R141 to R147) -/

@[simp] theorem withdrawBoth_rests (h : Rests s t) : Rests s t.withdrawBoth := by simp [State.withdrawBoth, h]

@[simp] theorem emergencyPortU_rests (h : Rests s t) : Rests s t.emergencyPortU := by
  unfold State.emergencyPortU
  split <;> simp [h]

@[simp] theorem emergencyPortP_rests (h : Rests s t) : Rests s t.emergencyPortP := by
  unfold State.emergencyPortP
  split <;> simp [h]

@[simp] theorem emergencyStarts_rests (cause : EmergencyCause) (h : Rests s t) : Rests s (t.emergencyStarts cause) := by
  simp (maxDischargeDepth := 8) [State.emergencyStarts, h]

@[simp] theorem emergencyEnds_rests (cause : EmergencyCause) (h : Rests s t) : Rests s (t.emergencyEnds cause) := by
  simp (maxDischargeDepth := 4) [State.emergencyEnds, h]

@[simp] theorem judgeEmergency_rests (cause : EmergencyCause) (h : Rests s t) : Rests s (t.judgeEmergency cause) := by
  unfold State.judgeEmergency
  split <;> simp [h]

@[simp] theorem changeOwn_rests (f : Emergency → Emergency) (cause : EmergencyCause) (h : Rests s t) :
    Rests s (t.changeOwn f cause) := by
  simp only [State.changeOwn]
  split <;> simp (maxDischargeDepth := 4) [h]

@[simp] theorem takeFire_rests (level : Bool) (h : Rests s t) : Rests s (t.takeFire level) := by
  simp [State.takeFire, h]

@[simp] theorem setHostFlag_rests (tag : Byte) (kind : ReqKind) (flag : Bool) (h : Rests s t) :
    Rests s (t.setHostFlag tag kind flag) := by
  simp [State.setHostFlag, h]

/-! ## The aisle link (R98 to R111, R144) -/

@[simp] theorem takeToken_rests (h : Rests s t) : Rests s t.takeToken := by
  unfold State.takeToken
  split <;> simp (maxDischargeDepth := 4) [h]

@[simp] theorem continueTurn_rests (h : Rests s t) : Rests s t.continueTurn := by simp [State.continueTurn, h]

@[simp] theorem passToken_rests (h : Rests s t) : Rests s t.passToken := by simp [State.passToken, h]

@[simp] theorem dropToken_rests (h : Rests s t) : Rests s t.dropToken := by simp [State.dropToken, h]

@[simp] theorem heard_rests (a : Nat) (reason : Reason) (h : Rests s t) : Rests s (t.heard a reason) := by
  simp only [State.heard]
  split <;> simp (maxDischargeDepth := 4) [h]

@[simp] theorem loseRow_rests (a : Nat) (h : Rests s t) : Rests s (t.loseRow a) := by
  simp only [State.loseRow]
  split <;> simp [h]

@[simp] theorem loseAll_rests (h : Rests s t) : Rests s t.loseAll := foldl_rests _ (fun _ _ => loseRow_rests _) _ h

@[simp] theorem loseSuccessor_rests (a : Nat) (h : Rests s t) : Rests s (t.loseSuccessor a) := by
  simp (maxDischargeDepth := 8) [State.loseSuccessor, h]

@[simp] theorem conflict_rests (h : Rests s t) : Rests s t.conflict := by
  simp (maxDischargeDepth := 8) [State.conflict, h]

@[simp] theorem blankOwnRow_rests (h : Rests s t) : Rests s t.blankOwnRow := by simp [State.blankOwnRow, h]

@[simp] theorem restartLink_rests (addr : Nat) (h : Rests s t) : Rests s (t.restartLink addr) := by
  simp (maxDischargeDepth := 8) [State.restartLink, h]

@[simp] theorem noReception_rests (h : Rests s t) : Rests s t.noReception := by simp [State.noReception, h]

@[simp] theorem endReception_rests (h : Rests s t) : Rests s t.endReception := by simp [State.endReception, h]

@[simp] theorem failInvitation_rests (h : Rests s t) : Rests s t.failInvitation := by
  unfold State.failInvitation
  split <;> simp [h]

@[simp] theorem discardFrame_rests (h : Rests s t) : Rests s t.discardFrame := by
  unfold State.discardFrame
  split <;> simp [h]

@[simp] theorem idleFrame_rests (h : Rests s t) : Rests s t.idleFrame := by
  unfold State.idleFrame
  split <;> simp [h]

@[simp] theorem meetFrame_rests (h : Rests s t) : Rests s t.meetFrame := by
  unfold State.meetFrame
  (repeat' split) <;> simp [h]

theorem takeFrame_rests (src : Byte) (act : Nat → State → State) (ha : ∀ a u, Rests s u → Rests s (act a u))
    (h : Rests s t) : Rests s (t.takeFrame src act) := by
  unfold State.takeFrame
  (repeat' split) <;> simp [h, ha]

theorem takeOther_rests (src : Byte) (act : Nat → State → State) (ha : ∀ a u, Rests s u → Rests s (act a u))
    (h : Rests s t) : Rests s (t.takeOther src act) :=
  takeFrame_rests _ _ (fun _ _ hu => ha _ _ (heard_rests _ _ (meetFrame_rests hu))) h

@[simp] theorem joinReply_rests (a : Nat) (h : Rests s t) : Rests s (t.joinReply a) := by
  unfold State.joinReply
  (repeat' split) <;> simp [h]

@[simp] theorem answerInvite_rests (a : Nat) (h : Rests s t) : Rests s (t.answerInvite a) := by
  unfold State.answerInvite
  split <;> simp [h]

@[simp] theorem lineStarts_rests (dest : Option Byte) (h : Rests s t) : Rests s (t.lineStarts dest) := by
  simp only [State.lineStarts]
  (repeat' split) <;> simp [h]

@[simp] theorem choose_rests (h : Rests s t) : Rests s t.choose := by simp [State.choose, h]

@[simp] theorem txEnds_rests (h : Rests s t) : Rests s t.txEnds := by
  unfold State.txEnds
  split <;> simp (maxDischargeDepth := 4) [h]

@[simp] theorem frameSent_rests (h : Rests s t) : Rests s t.frameSent := by simp [State.frameSent, h]

@[simp] theorem passUnanswered_rests (h : Rests s t) : Rests s t.passUnanswered := by
  unfold State.passUnanswered
  (repeat' split) <;> simp [h]

@[simp] theorem inviteUnanswered_rests (h : Rests s t) : Rests s t.inviteUnanswered := by
  unfold State.inviteUnanswered
  (repeat' split) <;> simp [h]

@[simp] theorem loneWaitEnds_rests (h : Rests s t) : Rests s t.loneWaitEnds := by
  unfold State.loneWaitEnds
  split <;> simp [h]

@[simp] theorem silenceEnds_rests (h : Rests s t) : Rests s t.silenceEnds := by
  unfold State.silenceEnds
  split <;> simp [h]

@[simp] theorem setContribution_rests (a : Nat) (c : Contribution) (cause : EmergencyCause) (h : Rests s t) :
    Rests s (t.setContribution a c cause) := by
  simp [State.setContribution, h]

@[simp] theorem emergencyFrame_rests (assert : Bool) (a : Nat) (h : Rests s t) :
    Rests s (t.emergencyFrame assert a) := by
  unfold State.emergencyFrame
  split <;> simp [h]

@[simp] theorem refreshReached_rests (a : Nat) (h : Rests s t) : Rests s (t.refreshReached a) := by
  unfold State.refreshReached
  (repeat' split) <;> simp [h]

@[simp] theorem holdReached_rests (a : Nat) (h : Rests s t) : Rests s (t.holdReached a) := by
  unfold State.holdReached
  split <;> simp [h]

@[simp] theorem inboundLapse_rests (card : CardNo) (img : SImage) (side : Side) (h : Rests s t) :
    Rests s (t.inboundLapse card img side) := by
  unfold State.inboundLapse
  (repeat' split) <;> simp [h]

@[simp] theorem doubleRegrant_rests (card : CardNo) (src : Nat) (regranted : Bool) (h : Rests s t) :
    Rests s (t.doubleRegrant card src regranted) := by
  unfold State.doubleRegrant
  split <;> simp [h]

@[simp] theorem inboundRegrant_rests (src : Nat) (card : CardNo) (img : SImage) (h : Rests s t) :
    Rests s (t.inboundRegrant src card img) := by
  unfold State.inboundRegrant
  (repeat' split) <;> simp [h]

@[simp] theorem inboundDeny_rests (src : Nat) (card : CardNo) (h : Rests s t) : Rests s (t.inboundDeny src card) := by
  unfold State.inboundDeny
  split <;> simp [h]

/-! ## The requests (R65, R66, R73, R95, R138, R160 to R184) -/

@[simp] theorem setTime_rests (tag : Byte) (now : Nat) (h : Rests s t) : Rests s (t.setTime tag now) := by
  simp (maxDischargeDepth := 4) [State.setTime, h]

@[simp] theorem getTime_rests (tag : Byte) (h : Rests s t) : Rests s (t.getTime tag) := by simp [State.getTime, h]

@[simp] theorem reviveSide_rests (side : Side) (h : Rests s t) : Rests s (t.reviveSide side) := by
  unfold State.reviveSide
  split <;> simp [h]

@[simp] theorem retirePorts_rests (h : Rests s t) : Rests s t.retirePorts := by simp [State.retirePorts, h]

@[simp] theorem awaitDrain_rests (tag : Byte) (h : Rests s t) : Rests s (t.awaitDrain tag) :=
  onService_rests _ rfl rfl rfl h

@[simp] theorem replyState_rests (tag : Byte) (kind : ReqKind) (h : Rests s t) : Rests s (t.replyState tag kind) := by
  simp [State.replyState, h]

@[simp] theorem replySchemes_rests (tag : Byte) (kind : ReqKind) (h : Rests s t) :
    Rests s (t.replySchemes tag kind) := by
  simp [State.replySchemes, h]

@[simp] theorem setMouth_rests (mouth : Side) (level : Bool) (h : Rests s t) : Rests s (t.setMouth mouth level) := by
  unfold State.setMouth
  split <;> simp [h]

@[simp] theorem setLeafZone_rests (level : Bool) (h : Rests s t) : Rests s (t.setLeafZone level) := by
  simp [State.setLeafZone, h]

@[simp] theorem reopen_rests (h : Rests s t) : Rests s t.reopen := by
  unfold State.reopen
  split <;> simp [h]

@[simp] theorem opened_rests (h : Rests s t) : Rests s t.opened := by
  unfold State.opened
  split <;> simp (maxDischargeDepth := 4) [h]

@[simp] theorem closed_rests (h : Rests s t) : Rests s t.closed := by
  unfold State.closed
  split <;> simp [h]

@[simp] theorem expireCredit_rests (k : SlotId) (h : Rests s t) : Rests s (t.expireCredit k) := by
  unfold State.expireCredit
  split <;> simp (maxDischargeDepth := 4) [h]

@[simp] theorem staffPass_rests (tag : Byte) (d : Direction) (h : Rests s t) : Rests s (t.staffPass tag d) := by
  unfold State.staffPass
  (repeat' split) <;> simp (maxDischargeDepth := 4) [h]

@[simp] theorem setHold_rests (hold : Bool) (h : Rests s t) : Rests s (t.setHold hold) := by
  unfold State.setHold
  split <;> simp [h]

@[simp] theorem holdOpen_rests (tag : Byte) (h : Rests s t) : Rests s (t.holdOpen tag) := by
  unfold State.holdOpen
  split <;> simp [h]

@[simp] theorem holdRelease_rests (tag : Byte) (h : Rests s t) : Rests s (t.holdRelease tag) := by
  simp [State.holdRelease, h]

@[simp] theorem gateReset_rests (tag : Byte) (h : Rests s t) : Rests s (t.gateReset tag) := by
  unfold State.gateReset
  split <;> simp [h]

@[simp] theorem alarmClear_rests (tag : Byte) (named : Latches) (h : Rests s t) : Rests s (t.alarmClear tag named) := by
  simp [State.alarmClear, h]

@[simp] theorem announceFire_rests (h : Rests s t) : Rests s t.announceFire := by
  unfold State.announceFire
  split <;> simp [h]

@[simp] theorem clearAisle_rests (h : Rests s t) : Rests s t.clearAisle := by simp [State.clearAisle, h]

@[simp] theorem recordResetChange_rests (before after : Bool) (h : Rests s t) :
    Rests s (t.recordResetChange before after) := by
  unfold State.recordResetChange
  split <;> simp [h]

@[simp] theorem refuseUnknown_rests (tag kind : Byte) (h : Rests s t) : Rests s (t.refuseUnknown tag kind) := by
  simp [State.refuseUnknown, h]

@[simp] theorem identify_rests (tag : Byte) (h : Rests s t) : Rests s (t.identify tag) := by simp [State.identify, h]

@[simp] theorem answerStatus_rests (tag : Byte) (h : Rests s t) : Rests s (t.answerStatus tag) := by
  simp [State.answerStatus, h]

@[simp] theorem takeReset_rests (tag : Byte) (h : Rests s t) : Rests s (t.takeReset tag) := by
  simp [State.takeReset, h]

@[simp] theorem syncLine_rests (tag : Byte) (h : Rests s t) : Rests s (t.syncLine tag) := by
  unfold State.syncLine
  (repeat' split) <;> simp [h]

@[simp] theorem poll_rests (side : Side) (h : Rests s t) : Rests s (t.poll side) := by
  unfold State.poll
  split <;> simp [h]

@[simp] theorem takeFetch_rests (side : Side) (area : Area) (content : List Byte) (h : Rests s t) :
    Rests s (t.takeFetch side area content) := by
  unfold State.takeFetch
  (repeat' split) <;> simp [h]

@[simp] theorem takeStore_rests (side : Side) (area : Area) (h : Rests s t) : Rests s (t.takeStore side area) := by
  unfold State.takeStore
  (repeat' split) <;> simp [h]

@[simp] theorem replyDenyCounts_rests (tag : Byte) (kind : ReqKind) (h : Rests s t) :
    Rests s (t.replyDenyCounts tag kind) := by
  simp [State.replyDenyCounts, h]

@[simp] theorem hostDeny_rests (tag : Byte) (a : CardNo × DenyAction) (h : Rests s t) : Rests s (t.hostDeny tag a) := by
  unfold State.hostDeny
  (repeat' split) <;> simp [h]

@[simp] theorem denyRemove_rests (tag : Byte) (card : CardNo) (h : Rests s t) : Rests s (t.denyRemove tag card) := by
  unfold State.denyRemove
  split <;> simp [h]

@[simp] theorem denyClear_rests (tag : Byte) (h : Rests s t) : Rests s (t.denyClear tag) := by
  simp [State.denyClear, h]

@[simp] theorem denyQuery_rests (tag : Byte) (card : CardNo) (h : Rests s t) : Rests s (t.denyQuery tag card) := by
  unfold State.denyQuery
  split <;> simp [h]

@[simp] theorem sightingQuery_rests (tag : Byte) (card : CardNo) (h : Rests s t) :
    Rests s (t.sightingQuery tag card) := by
  unfold State.sightingQuery
  split <;> simp [h]

@[simp] theorem journalPeek_rests (tag : Byte) (k : Nat) (h : Rests s t) : Rests s (t.journalPeek tag k) := by
  simp [State.journalPeek, h]

@[simp] theorem journalDrop_rests (tag : Byte) (a : Nat × Nat) (h : Rests s t) : Rests s (t.journalDrop tag a) := by
  unfold State.journalDrop
  split <;> simp (maxDischargeDepth := 4) [h]

end Sys2Proof.Machine
end

section
/-! The tables and the tap contexts under every command: loads come only while no tap is taken, and a RETIRED scheme
stays RETIRED (R4, R164, R167, R169, R176). -/

namespace Sys2Proof.Machine

/-- The service states in which loads are accepted and no tap is past detection (R164, R169). -/
def Service.pauses (v : Service) : Prop := v.state = .outOfService ∨ v.state = .suspended

/-- What every command but a power-on keeps of the tables, the tap contexts and the schemes. -/
structure Guarded (s t : State) : Prop where
  tables : t.service.tables ≠ s.service.tables → s.service.pauses
  idle : (s.service.pauses → ∀ side, (s.port side).ctx = none) → t.service.pauses → ∀ side, (t.port side).ctx = none
  schemes : ∀ n, s.service.schemes.get n = .retired → t.service.schemes.get n = .retired

/-- Every next state of a result is guarded. -/
def Settles (s : State) (r : Result) : Prop := ∀ t, r = .next t → Guarded s t

variable {s t u : State}

/-! ## From an operation to a command -/

theorem Rests.guarded (h : Rests s t) : Guarded s t := by
  obtain ⟨tables, schemes, ctx, state⟩ := h
  refine ⟨fun hne => absurd tables hne, fun idle paused side => ?_, fun n hn => by rw [schemes, hn]⟩
  obtain same | ⟨-, all⟩ := state
  · exact ctx side (idle (by simpa only [Service.pauses, same] using paused) side)
  · exact all side

/-- Only the ports and the service block matter, before the command as after it. -/
theorem Guarded.congr {s' t' : State} (h : Guarded s t) (hs : ∀ side, s'.port side = s.port side)
    (hsv : s'.service = s.service) (ht : ∀ side, t'.port side = t.port side) (htv : t'.service = t.service) :
    Guarded s' t' := by
  obtain ⟨tables, idle, schemes⟩ := h
  constructor <;> simp only [hs, hsv, ht, htv]
  · exact tables
  · exact idle
  · exact schemes

theorem Guarded.pump (h : Guarded s t) : Guarded s t.pump :=
  h.congr (fun _ => rfl) rfl (fun side => by cases side <;> simp [State.port]) (State.pump_service t)

theorem settles_done (h : Guarded s t) : Settles s (done t) := by
  rintro _ ⟨⟩
  exact h.pump

theorem Rests.settles (h : Rests s t) : Settles s (done t) := settles_done h.guarded

/-- A request is guarded when its owner's effect is (R179). -/
theorem take_guarded (tag : Byte) (kind : ReqKind) {act : State → State} (ha : ∀ u, Guarded u (act u)) :
    Guarded s (s.take tag kind act) := by
  unfold State.take
  split
  · exact (endHostFrame_rests (Rests.refl s)).guarded
  · exact (linkRefuse_rests _ _ _ (endHostFrame_rests (Rests.refl s))).guarded
  · exact (linkRefuse_rests _ _ _ (endHostFrame_rests (Rests.refl s))).guarded
  · exact (ha (s.endHostFrame.enter tag)).congr (fun _ => rfl) rfl (fun _ => rfl) rfl

theorem parsed_guarded {α : Type} (tag : Byte) (kind : ReqKind) (p : Parsed α) {act : α → State → State}
    (ha : ∀ a, Guarded s (act a s)) : Guarded s (State.parsed tag kind p act s) := by
  cases p with
  | badLength => exact (reply_rests _ _ _ (Rests.refl s)).guarded
  | range n => exact (reply_rests _ _ _ (Rests.refl s)).guarded
  | value a => exact ha a

theorem settles_request {α : Type} {tag : Byte} {kind : ReqKind} {p : Parsed α} {act : α → State → State}
    (ha : ∀ a u, Guarded u (act a u)) : Settles s (request tag kind p act s) :=
  settles_done (take_guarded tag kind fun u => parsed_guarded tag kind p fun a => ha a u)

theorem Rests.settles_request {α : Type} {tag : Byte} {kind : ReqKind} {p : Parsed α} {act : α → State → State}
    (ha : ∀ a u, Rests u (act a u)) : Settles s (request tag kind p act s) :=
  Machine.settles_request fun a u => (ha a u).guarded

/-! ## Loads (R169) -/

/-- What a load keeps: the schemes, and the ports without a tap. -/
structure Calm (s t : State) : Prop where
  schemes : t.service.schemes = s.service.schemes
  ctx : ∀ side, (s.port side).ctx = none → (t.port side).ctx = none

theorem Calm.trans (h : Calm s t) (k : Calm t u) : Calm s u :=
  ⟨k.schemes.trans h.schemes, fun side hs => k.ctx side (h.ctx side hs)⟩

theorem Rests.calm (h : Rests s t) : Calm s t := ⟨h.schemes, h.ctx⟩

/-- A load comes while no tap is taken. -/
theorem Calm.guarded (h : Calm s t) (hs : s.service.pauses) : Guarded s t :=
  ⟨fun _ => hs, fun idle _ side => h.ctx side (idle hs side), fun n hn => by rw [h.schemes, hn]⟩

theorem ServiceState.loads_iff (v : Service) : v.state.loads = true ↔ v.pauses := by
  unfold Service.pauses
  cases v.state <;> simp [ServiceState.loads]

theorem calm_onService (f : Service → Service) (hf : (f s.service).schemes = s.service.schemes) :
    Calm s (s.onService f) := ⟨hf, fun _ => id⟩

theorem calm_loaded (tag : Byte) (kind : ReqKind) : Calm s (s.loaded tag kind) := by
  have entered : Calm s (s.enterService .outOfService) :=
    (calm_onService _ rfl).trans (raise_rests _ (Rests.refl _)).calm
  unfold State.loaded
  split
  · exact entered.trans (reply_rests _ _ _ (Rests.refl _)).calm
  · exact (reply_rests _ _ _ (Rests.refl _)).calm

theorem calm_applyStation (a : StationLoad) : Calm s (s.applyStation a) := by
  have settings := calm_onService (s := s) (fun v => { v with station := some a.station }) rfl
  simp only [State.applyStation]
  split
  · exact settings.trans (restartLink_rests _ (onTime_rests _ (Rests.refl _))).calm
  · exact settings.trans (onTime_rests _ (Rests.refl _)).calm

theorem calm_applyParams (p : Params) : Calm s (s.applyParams p) :=
  ((onPassage_rests _ (Rests.refl s)).calm.trans (calm_onService _ rfl)).trans
    (judgeLoadedLevels_rests (Rests.refl _)).calm

theorem calm_applyBandSet (b : BandSet × List Band) : Calm s (s.applyBandSet b) := by
  obtain ⟨set, bands⟩ := b
  cases set <;> exact calm_onService _ rfl

theorem loadOf_guarded {α : Type} (tag : Byte) (kind : ReqKind) (p : Parsed α) {apply : α → State → State}
    (ha : ∀ a, Calm s (apply a s)) : Guarded s (State.loadOf tag kind p apply s) := by
  cases p with
  | badLength => exact (reply_rests _ _ _ (Rests.refl s)).guarded
  | range n =>
    simp only [State.loadOf]
    split <;> exact (reply_rests _ _ _ (Rests.refl s)).guarded
  | value a =>
    simp only [State.loadOf]
    split
    · rename_i loads
      exact ((ha a).trans (calm_loaded tag kind)).guarded ((ServiceState.loads_iff _).1 loads)
    · exact (reply_rests _ _ _ (Rests.refl s)).guarded

theorem settles_load {α : Type} {tag : Byte} {kind : ReqKind} {p : Parsed α} {apply : α → State → State}
    (ha : ∀ a u, Calm u (apply a u)) : Settles s (loadRequest tag kind p apply s) :=
  settles_done (take_guarded tag kind fun u => loadOf_guarded tag kind p fun a => ha a u)

/-! ## Schemes (R4, R175) -/

/-- A change of the schemes alone. -/
theorem guarded_schemes {f : Schemes → Schemes} (tag : Byte) (kind : ReqKind)
    (hf : ∀ n, s.service.schemes.get n = .retired → (f s.service.schemes).get n = .retired) :
    Guarded s ((s.onService fun v => { v with schemes := f v.schemes }).replySchemes tag kind) := by
  have change : Guarded s (s.onService fun v => { v with schemes := f v.schemes }) :=
    ⟨fun hne => absurd rfl hne, fun idle paused => idle paused, hf⟩
  exact change.congr (fun _ => rfl) rfl (fun side => by cases side <;> simp [State.replySchemes, State.port])
    (by simp [State.replySchemes])

theorem Schemes.range_of_accepted {v : Schemes} {n : Nat} (h : v.get n = .accepted) : 1 ≤ n ∧ n ≤ 4 := by
  unfold Schemes.get at h
  split at h
  case h_5 => cases h
  all_goals omega

theorem guarded_selectScheme (tag : Byte) (n : Nat) : Guarded s (s.selectScheme tag n) := by
  unfold State.selectScheme
  split
  · rename_i accepted
    obtain ⟨low, high⟩ := Schemes.range_of_accepted accepted
    refine guarded_schemes (f := fun v => v.deselect.put n .current) tag _ fun m hm => ?_
    have hne : m ≠ n := fun e => by simp [← e, hm] at accepted
    simp [Schemes.get_put _ low high, Schemes.get_deselect, hne, hm]
  all_goals exact Rests.guarded (by simp [State.replySchemes])

theorem guarded_retireScheme (tag : Byte) (n : Nat) : Guarded s (s.retireScheme tag n) := by
  unfold State.retireScheme
  split
  · rename_i accepted
    obtain ⟨low, high⟩ := Schemes.range_of_accepted accepted
    refine guarded_schemes (f := fun v => v.put n .retired) tag _ fun m hm => ?_
    simp [Schemes.get_put _ low high, hm]
  all_goals exact Rests.guarded (by simp [State.replySchemes])

/-! ## SUSPEND and RESUME (R166 to R168) -/

/-- A change of the service state that ends where no tap is taken, or with the ports idle. -/
theorem guarded_of_state (ht : t.service.tables = s.service.tables) (hs : t.service.schemes = s.service.schemes)
    (hi : t.service.pauses → ∀ side, (t.port side).ctx = none) : Guarded s t :=
  ⟨fun hne => absurd ht hne, fun _ => hi, fun n hn => by rw [hs, hn]⟩

theorem enterService_service (st : ServiceState) : (s.enterService st).service = { s.service with state := st } := by
  simp [State.enterService]

theorem enterService_port (st : ServiceState) (side : Side) : (s.enterService st).port side = s.port side := by
  cases side <;> simp [State.enterService, State.port]

theorem retirePorts_service : s.retirePorts.service = s.service := by simp [State.retirePorts]

theorem guarded_suspend (tag : Byte) : Guarded s (s.suspend tag) := by
  unfold State.suspend
  split
  · split
    · rename_i idle
      have idle := (State.portsIdle_iff s).1 idle
      have entered : Rests (s.enterService .suspended)
          ((s.enterService .suspended).retirePorts.replyState tag .suspend) :=
        replyState_rests _ _ (retirePorts_rests (Rests.refl _))
      refine guarded_of_state (by rw [entered.tables, enterService_service]; rfl)
        (by rw [entered.schemes, enterService_service]) fun _ side => entered.ctx side ?_
      rw [enterService_port, idle side]
    · refine guarded_of_state ?_ ?_ ?_
      all_goals simp [State.awaitDrain, retirePorts_service, enterService_service, Service.tables, Service.pauses]
  all_goals exact Rests.guarded (by simp)

theorem guarded_of_inService (ht : t.service.tables = s.service.tables) (hs : t.service.schemes = s.service.schemes)
    (hi : t.service.state = .inService) : Guarded s t :=
  guarded_of_state ht hs fun paused => by simp [Service.pauses, hi] at paused

theorem reviveSide_service (side : Side) : (s.reviveSide side).service = s.service := by
  unfold State.reviveSide
  split <;> simp

theorem enterInService_service : s.enterInService.service = { s.service with state := .inService } := by
  simp [State.enterInService, reviveSide_service, enterService_service]

theorem answerSuspends_service (body : ReplyBody) :
    (s.answerSuspends body).service = { s.service with suspends := [] } := by
  have replies : ∀ (tags : List Byte) (u : State),
      (tags.foldl (fun t tag => t.reply tag .suspend body) u).service = u.service := by
    intro tags
    induction tags with
    | nil => exact fun _ => rfl
    | cons x xs ih => exact fun u => (ih _).trans (State.reply_service ..)
  simp [State.answerSuspends, replies]

theorem guarded_tryResume (tag : Byte) : Guarded s (s.tryResume tag) := by
  unfold State.tryResume
  split
  · exact Rests.guarded (by simp)
  · apply guarded_of_inService <;> simp [State.replyState, enterInService_service, Service.tables]

theorem guarded_resume (tag : Byte) : Guarded s (s.resume tag) := by
  unfold State.resume
  split
  · exact guarded_tryResume tag
  · exact guarded_tryResume tag
  · exact Rests.guarded (by simp)
  · apply guarded_of_inService <;>
      simp [State.replyState, answerSuspends_service, enterInService_service, Service.tables]

/-! ## Resets (R176, R184) -/

/-- Both ports at a warm reset (R25). -/
def State.clearPorts (s : State) : State := (s.onPort .U Port.warmReset).onPort .P Port.warmReset

theorem clearPorts_ctx (side : Side) : (s.clearPorts.port side).ctx = none := by cases side <;> rfl

theorem guarded_warmReset : Guarded s s.warmReset := by
  have before : ∃ w, s.warmReset = w.serviceReset ∧ Rests s.clearPorts w := by
    refine ⟨_, rfl, ?_⟩
    rw [← State.clearPorts]
    simp (maxDischargeDepth := 14)
  obtain ⟨w, hw, rests⟩ := before
  have tables : w.service.tables = s.service.tables := rests.tables
  have schemes : w.service.schemes = s.service.schemes := rests.schemes
  rw [hw]
  refine guarded_of_state (by simpa [State.serviceReset, Service.tables] using tables)
    (by simpa [State.serviceReset] using schemes) fun _ side => ?_
  cases side
  · simpa [State.serviceReset, State.port] using rests.ctx .U (clearPorts_ctx .U)
  · simpa [State.serviceReset, State.port] using rests.ctx .P (clearPorts_ctx .P)

theorem guarded_hostFrameSent : Guarded s s.hostFrameSent := by
  unfold State.hostFrameSent
  split
  · exact (Rests.refl s).guarded
  · exact (onHost_rests _ (Rests.refl s)).guarded
  · split
    · exact (guarded_warmReset (s := s.onHost _)).congr (fun _ => rfl) rfl (fun _ => rfl) rfl
    · exact (onHost_rests _ (Rests.refl s)).guarded

/-- A power-on clears every context, and deselects the CURRENT scheme (R25, R176). -/
theorem powerOn_keeps (pins : Pins) (h : exec (.powerOn pins) s = .next t) :
    (∀ side, (t.port side).ctx = none) ∧
      ∀ n, s.service.schemes.get n = .retired → t.service.schemes.get n = .retired := by
  have rests : Rests (s.poweredUp pins) (s.poweredUp pins).announceFire.settleLeaves.pump := by
    simp (maxDischargeDepth := 4)
  obtain rfl : (s.poweredUp pins).announceFire.settleLeaves.pump = t := Host.Outcome.next.inj h
  refine ⟨fun side => rests.ctx side (by cases side <;> rfl), fun n hn => ?_⟩
  rw [rests.schemes]
  exact (Schemes.get_deselect _ n).trans (by simp [hn])

/-! ## Detection (R10, R11) -/

theorem closeTap_ctx (side : Side) (named : PortState) : ((s.closeTap side named).port side).ctx = none :=
  (judgeDrain_rests (Rests.refl _)).ctx side (by simp)

/-- A refused tap has no context left. -/
theorem refuse_ctx (side : Side) (reason : RefusalReason) : ((s.refuse side reason).port side).ctx = none := by
  unfold State.refuse
  split
  · assumption
  · exact closeTap_ctx side _

/-- A tap that starts and ends within a command leaves the port idle. -/
theorem guarded_of_opened {side : Side} {f : Port → Port} (h : Rests (s.onPort side f) t)
    (hc : (t.port side).ctx = none) : Guarded s t := by
  have tables := h.tables
  have schemes := h.schemes
  have state := h.state
  simp only [State.onPort_service] at tables schemes state
  refine ⟨fun hne => absurd tables hne, fun idle paused d => ?_, fun n hn => by rw [schemes, hn]⟩
  obtain same | ⟨-, all⟩ := state
  · obtain rfl | rfl := Side.eq_or_other side d
    · exact hc
    · refine h.ctx _ ?_
      rw [State.onPort_other]
      exact idle (by simpa only [Service.pauses, same] using paused) _
  · exact all d

/-- A tap that starts in service is past detection only there. -/
theorem guarded_of_detected {side : Side} {f : Port → Port} (h : Rests (s.onPort side f) t)
    (hs : s.service.state = .inService) : Guarded s t := by
  have tables := h.tables
  have schemes := h.schemes
  have state := h.state
  simp only [State.onPort_service] at tables schemes state
  refine guarded_of_state tables schemes fun paused d => ?_
  obtain same | ⟨-, all⟩ := state
  · simp [Service.pauses, same, hs] at paused
  · exact all d

theorem guarded_detect (side : Side) (card : CardNo) : Guarded s (s.detect side card) := by
  simp only [State.detect]
  split
  · exact guarded_of_opened (closeTap_rests _ _ (Rests.refl _)) (closeTap_ctx side _)
  · rename_i inService
    split
    · exact guarded_of_opened (refuse_rests _ _ (Rests.refl _)) (refuse_ctx side _)
    · exact guarded_of_detected (checkAisle_rests _ (Rests.refl _)) (by simpa using inService)

theorem guarded_collide (side : Side) : Guarded s (s.collide side) :=
  guarded_of_opened (refuse_rests _ _ (Rests.refl _)) (refuse_ctx side _)

theorem guarded_summoned (side : Side) (card : CardNo) (collided : Bool) :
    Guarded s (s.summoned side card collided) := by
  unfold State.summoned
  split
  · split
    · exact guarded_collide side
    · exact guarded_detect side card
  all_goals (repeat' split) <;> exact Rests.guarded (by simp)

theorem guarded_takeSummon (side : Side) (card : CardNo) (collided : Bool) :
    Guarded s (s.takeSummon side card collided) := by
  unfold State.takeSummon
  split
  · exact (Rests.refl s).guarded
  · split
    · exact guarded_summoned side card collided
    all_goals exact (wrongAnswer_rests side (Rests.refl s)).guarded

/-! ## Every command -/

theorem exec_settles (s : State) : ∀ c : Instr, (∀ p, c ≠ .powerOn p) → Settles s (exec c s)
  | .powerOn p, h => absurd rfl (h p)
  | .warmReset _, _ => settles_done ((guarded_warmReset (s := s.onPins _)).congr (fun _ => rfl) rfl (fun _ => rfl) rfl)
  | .fireInputChange _, _ => Rests.settles (by simp)
  | .mouthOccupied _, _ => by
    show Settles s (execMouthOccupied _ s)
    unfold execMouthOccupied
    split <;> exact Rests.settles (by simp [State.setMouth])
  | .leafOccupied, _ => by
    show Settles s (execLeafOccupied s)
    unfold execLeafOccupied
    split <;> exact Rests.settles (by simp (maxDischargeDepth := 4))
  | .leafClear, _ => by
    show Settles s (execLeafClear s)
    unfold execLeafClear
    split
    · exact Rests.settles (settleLeaves_rests (forEachOccupant_rests _ (fun _ => settleLeafOne_rests) (by simp)))
    · exact Rests.settles (Rests.refl s)
  | .mouthClear _, _ => by
    show Settles s (execMouthClear _ s)
    unfold execMouthClear
    split
    · exact Rests.settles (forEachOccupant_rests _ (fun _ => leaveMouthOne_rests _)
        (forEachOccupant_rests _ (fun _ => complete_rests _) (by simp)))
    · exact Rests.settles (Rests.refl s)
  | .openSwitchReached, _ => Rests.settles (by simp)
  | .closedSwitchReached, _ => Rests.settles (by simp)
  | .pollTimer _, _ => Rests.settles (by simp)
  | .summonAnswer side card collided, _ => settles_done (guarded_takeSummon side card collided)
  | .fetchAnswer _ _ _, _ => Rests.settles (by simp)
  | .storeAnswer _ _, _ => Rests.settles (by simp)
  | .answerWindowClose _ _, _ => Rests.settles (by simp)
  | .dialogueDeadlineExpiry _, _ => by
    show Settles s (execDialogueDeadlineExpiry _ s)
    unfold execDialogueDeadlineExpiry
    split <;> exact Rests.settles (by simp)
  | .aisleWaitExpiry _, _ => by
    show Settles s (execAisleWaitExpiry _ s)
    unfold execAisleWaitExpiry
    split <;> exact Rests.settles (by simp)
  | .slotGrant, _ => Rests.settles (by simp)
  | .stopHoldExpiry _, _ => Rests.settles (by simp)
  | .creditExpiry _, _ => Rests.settles (by simp)
  | .travelTimeout, _ => by
    show Settles s (execTravelTimeout s)
    unfold execTravelTimeout
    split <;> exact Rests.settles (by simp)
  | .sounderExpiry, _ => Rests.settles (by simp)
  | .secondTick, _ => Rests.settles (by simp)
  | .lapseMarkExpiry _, _ => Rests.settles (by simp)
  | .sightingLifetimeExpiry _, _ => Rests.settles (by simp)
  | .inDoubtLifetimeExpiry _, _ => Rests.settles (by simp)
  | .lineTransmissionStart _, _ => Rests.settles (by simp)
  | .linkRxIdleTimeout, _ => Rests.settles (by simp)
  | .linkToken _, _ => Rests.settles (takeOther_rests _ _ (fun _ _ => takeToken_rests) (Rests.refl s))
  | .linkJoinInvite _, _ => Rests.settles (takeOther_rests _ _ (fun _ _ => answerInvite_rests _) (Rests.refl s))
  | .linkJoinReply _, _ => Rests.settles (takeFrame_rests _ _ (fun _ _ => joinReply_rests _) (Rests.refl s))
  | .linkSighting .., _ =>
    Rests.settles (takeOther_rests _ _ (fun _ _ => inboundSighting_rests _ _ _ _) (Rests.refl s))
  | .linkLapse _ _ _ _ side, _ => by
    show Settles s (execLinkLapse _ _ _ _ side s)
    unfold execLinkLapse
    split
    · exact Rests.settles (takeOther_rests _ _ (fun _ _ => inboundLapse_rests _ _ _) (Rests.refl s))
    · exact Rests.settles (by simp)
  | .linkRegrant .., _ => Rests.settles (takeOther_rests _ _ (fun _ _ => inboundRegrant_rests _ _ _) (Rests.refl s))
  | .linkDenyAdd .., _ => Rests.settles (takeOther_rests _ _ (fun _ _ => inboundDeny_rests _ _) (Rests.refl s))
  | .linkEmergency _ code, _ => by
    show Settles s (execLinkEmergency _ code s)
    unfold execLinkEmergency
    split
    · exact Rests.settles (takeOther_rests _ _ (fun _ _ => emergencyFrame_rests _ _) (Rests.refl s))
    · exact Rests.settles (by simp)
  | .linkFrameDiscarded, _ => Rests.settles (by simp)
  | .linkFrameSent, _ => Rests.settles (by simp)
  | .silenceTimeout, _ => Rests.settles (by simp)
  | .passWindowExpiry, _ => Rests.settles (by simp)
  | .inviteWindowExpiry, _ => Rests.settles (by simp)
  | .loneHolderWaitEnd, _ => Rests.settles (by simp)
  | .refreshDeadline _, _ => Rests.settles (by simp)
  | .holdDeadline _, _ => Rests.settles (by simp)
  | .hostRxIdleTimeout, _ => Rests.settles (by simp)
  | .hostFrameBadCrc, _ => Rests.settles (by simp)
  | .unknownKind _ _, _ => by
    show Settles s (execUnknownKind _ _ s)
    unfold execUnknownKind
    split
    · exact settles_done (take_guarded _ _ fun u => (refuseUnknown_rests _ _ (Rests.refl u)).guarded)
    · exact Rests.settles (Rests.refl s)
  | .hostFrameSent, _ => settles_done guarded_hostFrameSent
  | .drainComplete, _ => Rests.settles (by simp)
  | .syncLineComplete, _ => Rests.settles (by simp)
  | .gateResetComplete, _ => Rests.settles (by simp)
  | .identify .., _ => Rests.settles_request fun _ u => identify_rests _ (Rests.refl u)
  | .status .., _ => Rests.settles_request fun _ u => answerStatus_rests _ (Rests.refl u)
  | .setTime .., _ => Rests.settles_request fun _ u => setTime_rests _ _ (Rests.refl u)
  | .getTime .., _ => Rests.settles_request fun _ u => getTime_rests _ (Rests.refl u)
  | .suspend tag _, _ => settles_request fun _ _ => guarded_suspend tag
  | .resume tag _, _ => settles_request fun _ _ => guarded_resume tag
  | .reset .., _ => Rests.settles_request fun _ u => takeReset_rests _ (Rests.refl u)
  | .setStation .., _ => settles_load fun a _ => calm_applyStation a
  | .setZoneCount .., _ => settles_load fun _ _ => calm_onService _ rfl
  | .loadZoneRow .., _ => settles_load fun _ _ => calm_onService _ rfl
  | .loadBandSet .., _ => settles_load fun b _ => calm_applyBandSet b
  | .setClass .., _ => settles_load fun _ _ => calm_onService _ rfl
  | .setParameters .., _ => settles_load fun p _ => calm_applyParams p
  | .selectScheme tag _, _ => settles_request fun n _ => guarded_selectScheme tag n
  | .retireScheme tag _, _ => settles_request fun n _ => guarded_retireScheme tag n
  | .denyAdd .., _ => Rests.settles_request fun _ u => hostDeny_rests _ _ (Rests.refl u)
  | .denyRemove .., _ => Rests.settles_request fun _ u => denyRemove_rests _ _ (Rests.refl u)
  | .denyClear .., _ => Rests.settles_request fun _ u => denyClear_rests _ (Rests.refl u)
  | .denyQuery .., _ => Rests.settles_request fun _ u => denyQuery_rests _ _ (Rests.refl u)
  | .sightingQuery .., _ => Rests.settles_request fun _ u => sightingQuery_rests _ _ (Rests.refl u)
  | .syncLine .., _ => Rests.settles_request fun _ u => syncLine_rests _ (Rests.refl u)
  | .journalPeek .., _ => Rests.settles_request fun _ u => journalPeek_rests _ _ (Rests.refl u)
  | .journalDrop .., _ => Rests.settles_request fun _ u => journalDrop_rests _ _ (Rests.refl u)
  | .staffPass .., _ => Rests.settles_request fun _ u => staffPass_rests _ _ (Rests.refl u)
  | .holdOpen .., _ => Rests.settles_request fun _ u => holdOpen_rests _ (Rests.refl u)
  | .holdRelease .., _ => Rests.settles_request fun _ u => holdRelease_rests _ (Rests.refl u)
  | .gateReset .., _ => Rests.settles_request fun _ u => gateReset_rests _ (Rests.refl u)
  | .alarmClear .., _ => Rests.settles_request fun _ u => alarmClear_rests _ _ (Rests.refl u)
  | .setEmergency .., _ => Rests.settles_request fun _ u => setHostFlag_rests _ _ _ (Rests.refl u)
  | .clearEmergency .., _ => Rests.settles_request fun _ u => setHostFlag_rests _ _ _ (Rests.refl u)
  | .hostFramingError, _ => Rests.settles (by simp)
  | .linkFramingError, _ => by
    show Settles s (execLinkFramingError s)
    refine Rests.settles ?_
    split <;> simp
  | .switchLost _, _ => Rests.settles (by simp)
  | .speedStrapChange _ _, _ => Rests.settles (by simp)

/-- Settles O57: no operation loads a table, but the loads themselves, and contexts are opened only in service. -/
theorem tablesChangeOnlyOutOfService : Obligations.TablesChangeOnlyOutOfService := by
  intro c s t next
  have both : ∀ u : State, (u.portU.ctx = none ∧ u.portP.ctx = none) ↔ ∀ side, (u.port side).ctx = none := fun u =>
    ⟨fun h side => by cases side <;> simp [State.port, h], fun h => ⟨h .U, h .P⟩⟩
  simp only [both]
  by_cases hc : ∃ p, c = .powerOn p
  · obtain ⟨p, rfl⟩ := hc
    obtain ⟨idle, schemes⟩ := powerOn_keeps p next
    exact ⟨fun h => absurd rfl (h p), fun _ _ => idle, schemes⟩
  · have guarded := exec_settles s c (fun p e => hc ⟨p, e⟩) t next
    exact ⟨fun _ => guarded.tables, guarded.idle, guarded.schemes⟩

end Sys2Proof.Machine
end

section
/-! How a tap ends: the slot or request it gives up, its result, the port at rest and the drain of a SUSPEND, each said
once (R21, R42, R45, R120, R167, R187). -/

namespace Sys2Proof.Machine

variable {s t u : State} {side : Side}

/-! ## The aisle claim gives a slot back (R117 to R120) -/

/-- Waiting requests may have been granted: the claim and the granted ports are others. -/
structure Regranted (s t : State) : Prop where
  rest : t = { s with portU := t.portU, portP := t.portP, passage := t.passage }
  passage : t.passage = { s.passage with claim := t.passage.claim }
  idle : ∀ d, (t.port d).ctx = none ↔ (s.port d).ctx = none
  hold : ∀ d, (t.port d).stopHold = (s.port d).stopHold
  kept : ∀ d, s.passage.claim.waits d = false → t.port d = s.port d

theorem Regranted.refl (s : State) : Regranted s s := ⟨rfl, rfl, fun _ => Iff.rfl, fun _ => rfl, fun _ _ => rfl⟩

theorem Regranted.of_claim {f : Claim → Claim} (h : Regranted (s.onClaim f) t)
    (hw : ∀ d, (f s.passage.claim).waits d = s.passage.claim.waits d) : Regranted s t := by
  obtain ⟨rest, passage, idle, hold, kept⟩ := h
  exact ⟨rest, passage, idle, hold, fun d hd => kept d ((hw d).trans hd)⟩

theorem regranted_grantPort (hw : s.passage.claim.waits side = true) : Regranted s (s.grantPort side) := by
  unfold State.grantPort
  split
  · rename_i k _
    refine ⟨by cases side <;> rfl, by cases side <;> rfl, fun d => ?_, fun d => ?_, fun d hd => ?_⟩
    · obtain rfl | rfl := Side.eq_or_other side d <;> simp
    · obtain rfl | rfl := Side.eq_or_other side d <;> simp [Port.beginReading, Port.ask]
    · obtain rfl | rfl := Side.eq_or_other side d
      · simp [hw] at hd
      · simp
  · exact Regranted.refl s

theorem regranted_judgeWaiting : Regranted s s.judgeWaiting := by
  unfold State.judgeWaiting
  split
  · rename_i hs
    exact regranted_grantPort (State.grantChoice_some hs).1
  · exact Regranted.refl s

theorem Claim.release_waits (c : Claim) (b : Bool) (d : Side) : (c.release b).waits d = c.waits d := by
  unfold Claim.release
  split <;> cases d <;> rfl

theorem Claim.setSlot_waits (c : Claim) (k : SlotId) (h : Option Holder) (d : Side) :
    (c.setSlot k h).waits d = c.waits d := by
  cases k <;> cases d <;> rfl

theorem Claim.release_slot (c : Claim) (b : Bool) (k : SlotId) : (c.release b).slot k = c.slot k := by
  unfold Claim.release
  split <;> cases k <;> rfl

theorem Claim.slot_setSlot (c : Claim) (k : SlotId) (h : Option Holder) : (c.setSlot k h).slot k = h := by
  cases k <;> rfl

theorem regranted_freeSlot (k : SlotId) : Regranted s (s.freeSlot k) :=
  (regranted_judgeWaiting.of_claim fun d => Claim.release_waits _ _ d).of_claim fun d => Claim.setSlot_waits _ k none d

/-- With no request waiting a freed slot stands free (R120). -/
theorem freeSlot_slot (k : SlotId) (hw : ∀ d, s.passage.claim.waits d = false) :
    (s.freeSlot k).passage.claim.slot k = none := by
  have none_waits : ∀ d, (Claim.release s.passage.occupants.isEmpty (s.passage.claim.setSlot k none)).waits d = false :=
    fun d => by rw [Claim.release_waits, Claim.setSlot_waits, hw]
  unfold State.freeSlot State.settleClaim
  rw [State.judgeWaiting_none fun d hd => absurd hd.1 (by
    rw [Bool.not_eq_true]
    exact none_waits d)]
  exact (Claim.release_slot _ _ k).trans (Claim.slot_setSlot _ k none)

/-- What a tap gives up at its end: its slot or its request. -/
structure Released (s t : State) (side : Side) : Prop where
  rest : t = { s with portU := t.portU, portP := t.portP, passage := t.passage }
  passage : t.passage = { s.passage with claim := t.passage.claim }
  idle : ∀ d, (t.port d).ctx = none ↔ (s.port d).ctx = none
  hold : ∀ d, (t.port d).stopHold = (s.port d).stopHold
  attempts : s.passage.claim.waits side = false → (t.port side).attempts = (s.port side).attempts
  freed : ∀ c k, (s.port side).ctx = some c → c.slot = some k → (∀ d, s.passage.claim.waits d = false) →
    t.passage.claim.slot k = none

theorem released_releaseTap (s : State) (side : Side) : Released s (s.releaseTap side) side := by
  unfold State.releaseTap
  split
  · rename_i k hk
    obtain ⟨c, hc, hck⟩ := Option.bind_eq_some_iff.1 hk
    obtain ⟨rest, passage, idle, hold, kept⟩ := regranted_freeSlot (s := s.onCtx side fun c => { c with slot := none }) k
    have claim : (s.onCtx side fun c => { c with slot := none }).passage = s.passage := by simp [State.onCtx]
    refine ⟨?_, ?_, fun d => ?_, fun d => ?_, fun hw => ?_, fun c' k' hc' hk' hw => ?_⟩
    · rw [rest]
      cases side <;> rfl
    · rw [passage, claim]
    · rw [idle]
      obtain rfl | rfl := Side.eq_or_other side d <;> simp [State.onCtx]
    · rw [hold]
      obtain rfl | rfl := Side.eq_or_other side d <;> simp [State.onCtx]
    · rw [kept side (by rw [claim]; exact hw)]
      simp [State.onCtx]
    · have same : c' = c := Option.some.inj (hc'.symm.trans hc)
      rw [same, hck] at hk'
      obtain rfl := Option.some.inj hk'
      exact freeSlot_slot k fun d => by rw [claim]; exact hw d
  · rename_i hk
    refine ⟨rfl, rfl, fun _ => Iff.rfl, fun _ => rfl, fun _ => rfl, fun c k hc hck _ => ?_⟩
    simp [State.ctx, hc, hck] at hk

/-- A tap without a slot gives up its request (R21). -/
theorem releaseTap_without (h : ∀ c, (s.port side).ctx = some c → c.slot = none) :
    s.releaseTap side = s.onClaim fun c => c.setWait side false := by
  unfold State.releaseTap
  split
  · rename_i k hk
    obtain ⟨c, hc, hck⟩ := Option.bind_eq_some_iff.1 hk
    rw [h c hc] at hck
    cases hck
  · rfl

/-! ## What happens before a tap's result -/

/-- What the course of a side's tap changes before its result: ports, Screening Unit, link, passage and journal; these
frames were queued and these records offered; the other side's tap goes on. -/
structure Tapped (side : Side) (s t : State) (ms : List LinkMsg) (xs : List RecBody) : Prop where
  rest : t =
    { s with
      freeReads := t.freeReads, portU := t.portU, portP := t.portP, screening := t.screening, link := t.link,
      passage := t.passage, journal := t.journal, host := t.host }
  idle : (t.port (otherSide side)).ctx = none ↔ (s.port (otherSide side)).ctx = none
  link : t.link = s.link.withFrames ms
  formed : t.formed = s.formed ++ s.syncAnswers ms
  records : Journals s t xs
  host : t.host =
    { s.host with
      replies := t.host.replies, notices := t.host.notices, finding := t.host.finding, findings := t.host.findings }
  told : ∀ k, s.tells k = true → t.tells k = true

theorem Tapped.of_screened {ms : List LinkMsg} {xs : List RecBody} (h : Screened s t ms xs) : Tapped side s t ms xs :=
  ⟨by rw [h.rest], by rw [h.rest]; exact Iff.rfl, h.link, h.formed, h.records, h.host, h.told⟩

theorem Tapped.trans {a b : List LinkMsg} {xs ys : List RecBody} (h1 : Tapped side s t a xs)
    (h2 : Tapped side t u b ys) : Tapped side s u (a ++ b) (xs ++ ys) where
  rest := by rw [h2.rest, h1.rest]
  idle := h2.idle.trans h1.idle
  link := by rw [h2.link, h1.link, Link.withFrames_append]
  formed := by
    have hr : t.host.resetTaken = s.host.resetTaken := by rw [h1.host]
    rw [h2.formed, h1.formed, List.append_assoc]
    congr 1
    simp only [State.syncAnswers, hr, h1.link, Link.dropReplies_append]
    split <;> simp
  records := h1.records.append h2.records (by rw [h1.rest]) (by rw [h1.rest])
  host := by rw [h2.host, h1.host]
  told := fun k h => h2.told k (h1.told k h)

/-- Ports and passage alone have changed. -/
theorem Tapped.of_rest
    (rest : t = { s with freeReads := t.freeReads, portU := t.portU, portP := t.portP, passage := t.passage })
    (idle : (t.port (otherSide side)).ctx = none ↔ (s.port (otherSide side)).ctx = none) : Tapped side s t [] [] := by
  have link : t.link = s.link := by rw [rest]
  have host : t.host = s.host := by rw [rest]
  have journal : t.journal = s.journal := by rw [rest]
  exact ⟨by rw [rest], idle, link, by simp [State.formed, host, State.syncAnswers, Link.dropReplies],
    Journals.of_same journal, by rw [host], fun k h => by rwa [State.tells, host]⟩

theorem Tapped.refl (s : State) : Tapped side s s [] [] := .of_rest rfl Iff.rfl

/-- A further step that queues and records nothing. -/
theorem Tapped.and {ms : List LinkMsg} {xs : List RecBody} (h1 : Tapped side s t ms xs) (h2 : Tapped side t u [] []) :
    Tapped side s u ms xs := by
  simpa only [List.append_nil] using h1.trans h2

theorem Tapped.of_released {d : Side} (h : Released s t d) : Tapped side s t [] [] := .of_rest (by rw [h.rest]) (h.idle _)

theorem Tapped.of_onPort (s : State) (side : Side) (f : Port → Port) : Tapped side s (s.onPort side f) [] [] :=
  .of_rest (by cases side <;> rfl) (by rw [State.onPort_other])

theorem Tapped.drains {ms : List LinkMsg} {xs : List RecBody} (h : Tapped side s t ms xs) :
    t.drains side = s.drains side := by
  have idle := h.idle
  have service : t.service = s.service := by rw [h.rest]
  unfold State.drains
  rw [service]
  cases ht : (t.port (otherSide side)).ctx <;> cases hs : (s.port (otherSide side)).ctx <;> simp_all

theorem Tapped.drained {ms : List LinkMsg} {xs : List RecBody} (h : Tapped side s t ms xs) :
    t.drained side = s.drained side := by
  have service : t.service = s.service := by rw [h.rest]
  rw [State.drained, h.drains, service, State.drained]

theorem Tapped.drainAnswers {ms : List LinkMsg} {xs : List RecBody} (h : Tapped side s t ms xs) :
    t.drainAnswers side = s.drainAnswers side := by
  have service : t.service = s.service := by rw [h.rest]
  have reset : t.host.resetTaken = s.host.resetTaken := by rw [h.host]
  rw [State.drainAnswers, h.drains, service, reset, State.drainAnswers]

/-! ## The port at rest (R21 to R23, R167) -/

theorem State.pump_port (s : State) (side : Side) : s.pump.port side = s.port side := by cases side <;> simp [State.port]

theorem State.restState_eq (s : State) (side : Side) (named : PortState) :
    s.restState side named = if s.disabled side = true then .disabled else named := rfl

/-- All that the end of a tap's context does (R21, R167). -/
theorem closeTap_spec (s : State) (side : Side) (named : PortState) :
    let t := (s.closeTap side named).pump
    TapGone s t side ∧ t = { s with portU := t.portU, portP := t.portP, service := t.service, host := t.host } ∧
      t.port side = (s.port side).close (s.restState side named) ∧ t.port (otherSide side) = s.port (otherSide side) := by
  let v := s.onPort side (Port.close (s.restState side named))
  obtain ⟨rest, service, formed, told, host⟩ := judgeDrain_spec (t := v) side (by simp [v])
  have drains : v.drains side = s.drains side := by simp [State.drains, v]
  have ports : ∀ d, v.judgeDrain.port d = v.port d := fun d => by rw [rest]; rfl
  have silent : Silent v.judgeDrain v.judgeDrain.pump :=
    Silent.of_pump rfl rfl rfl rfl rfl rfl ⟨rfl, rfl⟩ rfl rfl
  have before : v.host = s.host := State.onPort_host s side _
  rw [before] at host
  have tx : v.judgeDrain.host.tx = s.host.tx := by rw [host]
  show TapGone s v.judgeDrain.pump side ∧ v.judgeDrain.pump = _ ∧ v.judgeDrain.pump.port side = _ ∧
    v.judgeDrain.pump.port (otherSide side) = _
  refine ⟨⟨?_, ?_, fun k => ?_, ?_, fun h => ?_, ?_, ?_, ?_, ?_, ?_, fun h => ?_⟩, ?_, ?_, ?_⟩
  · simp [service, State.drained, drains, v]
  · rw [State.pump_formed, formed]
    simp [State.drainAnswers, drains, v, State.formed]
  · rw [State.pump_tells_eq, told, drains]
    simp [State.tells, v]
  · rw [silent.window, host]
  · rw [silent.sending (by rwa [tx]), tx]
  · rw [silent.speed, host]
  · rw [silent.hunting, host]
  · rw [silent.resetTaken, host]
  · obtain ⟨tapU, tapP⟩ := silent.results
    rw [tapU, tapP, host]
    exact ⟨rfl, rfl⟩
  · rw [silent.finding, host]
  · rw [silent.findings (by rwa [tx]), host]
  · show (s.closeTap side named).pump = _
    have rest : s.closeTap side named =
        { v with service := (s.closeTap side named).service, host := (s.closeTap side named).host } := rest
    rw [State.pump_rest]
    generalize (s.closeTap side named).pump.host = h
    rw [rest]
    cases side <;> rfl
  · rw [State.pump_port, ports]
    exact State.onPort_port ..
  · rw [State.pump_port, ports]
    exact State.onPort_other ..

/-! ## A tap's result (R45, R187) -/

theorem giveResult_tells (s : State) (side : Side) (r : TapResult) (k : NoticeKind) :
    (s.giveResult side r).tells k = (s.tells k || k == resultNotice side) := by
  unfold State.giveResult
  rw [State.raise_tells_eq]
  cases side <;> rfl

theorem giveResult_result (s : State) (side : Side) (r : TapResult) :
    (s.giveResult side r).host.result side = some r := by
  cases side <;> simp [HostLink.result, State.giveResult]

theorem giveResult_host (s : State) (side : Side) (r : TapResult) :
    (s.giveResult side r).host.tx = s.host.tx ∧ (s.giveResult side r).host.resetTaken = s.host.resetTaken ∧
      (s.giveResult side r).host.finding = s.host.finding ∧ (s.giveResult side r).host.findings = s.host.findings ∧
      (s.giveResult side r).formed = s.formed := by
  cases side <;> simp [State.giveResult, State.formed]

/-- A tap has ended with a result: `u` is the part before it. Beyond the end itself only the port has come to rest, and
of the host link replies, notices and results are others. -/
structure EndsTap (s u t : State) (side : Side) (r : TapResult) (ms : List LinkMsg) (xs : List RecBody) : Prop extends
    TapClosed s t side r ms where
  records : Journals s t xs
  rest : t = { u with portU := t.portU, portP := t.portP, service := t.service, host := t.host }
  port : t.port side = (u.port side).close (if s.disabled side = true then .disabled else .done)
  other : t.port (otherSide side) = u.port (otherSide side)
  tells : ∀ k, t.tells k = (u.tells k || k == resultNotice side || (s.drains side && k == .serviceState))
  finding : t.host.finding = u.host.finding
  findings : s.host.tx.isSome = true → t.host.findings = u.host.findings

/-- All that the end of a tap with a result does (R21, R45, R167, R187). -/
theorem Tapped.ends {ms : List LinkMsg} {xs : List RecBody} (h : Tapped side s u ms xs) (r : TapResult) :
    EndsTap s u ((u.giveResult side r).closeTap side .done).pump side r ms xs := by
  have hu := h.rest
  obtain ⟨gone, rest, port, other⟩ := closeTap_spec (u.giveResult side r) side .done
  have ports : ∀ d, (u.giveResult side r).port d = u.port d := fun d => by cases d <;> simp [State.port]
  have disabled : (u.giveResult side r).disabled side = s.disabled side := by
    rw [State.disabled, State.giveResult_service, hu, State.disabled]
  have drains : (u.giveResult side r).drains side = s.drains side := by
    rw [← h.drains, State.drains, State.drains, ports, State.giveResult_service]
  obtain ⟨tx, reset, finding, findings, formed⟩ := giveResult_host u side r
  have tx : (u.giveResult side r).host.tx = s.host.tx := by rw [tx, h.host]
  have told : ∀ k, ((u.giveResult side r).closeTap side .done).pump.tells k =
      (u.tells k || k == resultNotice side || (s.drains side && k == .serviceState)) := fun k => by
    rw [gone.told, giveResult_tells, drains]
  rw [State.restState_eq, disabled, ports] at port
  rw [ports] at other
  refine { state := by rw [port]; rfl, context := by rw [port]; rfl, exchange := by rw [port]; rfl,
           deadline := by rw [port]; rfl, aisleWait := by rw [port]; rfl, result := ?_, told := by simp [told],
           service := ?_, drain := fun hd => by simp [told, hd], link := ?_, formed := ?_, records := ?_, rest := ?_,
           port := port, other := other, tells := told, finding := ?_, findings := fun ht => ?_ }
  · obtain ⟨tapU, tapP⟩ := gone.results
    rw [← giveResult_result u side r]
    cases side
    · exact tapU
    · exact tapP
  · rw [gone.service, State.drained, drains, State.giveResult_service, ← h.drained, State.drained, h.drains]
  · rw [rest]
    exact (State.giveResult_link u side r).trans h.link
  · rw [gone.formed, formed, h.formed, State.drainAnswers, drains, State.giveResult_service, reset,
      ← h.drainAnswers, State.drainAnswers, h.drains]
  · refine h.records.congr ?_
    rw [rest]
    exact State.giveResult_journal u side r
  · generalize ((u.giveResult side r).closeTap side .done).pump = t at rest
    rw [rest]
    cases side <;> rfl
  · rw [gone.finding, finding]
  · rw [gone.findings (by rwa [tx]), findings]

end Sys2Proof.Machine
end

section
/-! The refusal, the end without outcome and the end IN_DOUBT, and what a command of a reader port leaves when no tap
ends (R12, R19, R21, R42). -/

namespace Sys2Proof.Machine

variable {s t u v : State} {side : Side} {c : TapContext} {reason : RefusalReason}

/-! ## Before the result -/

theorem Tapped.of_append (s : State) (b : RecBody) : Tapped side s (s.append b) [] [b] := .of_screened (.of_append s b)

theorem Tapped.of_recordRefusal (s : State) (c : TapContext) (reason : RefusalReason) :
    Tapped side s (s.recordRefusal c reason) [] (if reason = .journalFull then [] else [c.refusalRecord reason]) := by
  unfold State.recordRefusal
  split
  · exact Tapped.refl s
  · rename_i h
    rw [if_neg (by simpa using h)]
    exact Tapped.of_append s _

/-- The record of a refusal touches the journal and its notices alone. -/
theorem recordRefusal_rest (s : State) (c : TapContext) (reason : RefusalReason) :
    s.recordRefusal c reason =
      { s with journal := (s.recordRefusal c reason).journal, host := (s.recordRefusal c reason).host } := by
  unfold State.recordRefusal
  split
  · rfl
  · rw [(Queued.of_append s _).rest]
    simp

/-- The STOP hold and the result stand in different blocks. -/
theorem holdStop_giveResult (s : State) (side : Side) (r : TapResult) :
    (s.giveResult side r).holdStop side = (s.holdStop side).giveResult side r := by cases side <;> rfl

theorem Tapped.holdStop {ms : List LinkMsg} {xs : List RecBody} (h : Tapped side s u ms xs) :
    Tapped side s (u.holdStop side) ms xs := h.and (.of_onPort u side _)

theorem Tapped.releaseTap {ms : List LinkMsg} {xs : List RecBody} (h : Tapped side s u ms xs) :
    Tapped side s (u.releaseTap side) ms xs := h.and (.of_released (released_releaseTap u side))

/-- A context whose side holds no entry of its card sets none back. -/
theorem endUnwrittenTap_without (h : s.holdsNoEntry side c.card) : s.endUnwrittenTap side c = s := by
  unfold State.endUnwrittenTap
  split
  · rename_i card hcard
    unfold State.endUnwritten
    rw [h card hcard]
  · rfl

/-! ## Refusals (R42) -/

/-- The part just before the result of a refusal. -/
def State.beforeRefusal (s : State) (side : Side) (c : TapContext) (reason : RefusalReason) : State :=
  (((s.recordRefusal c reason).endUnwrittenTap side c).releaseTap side).holdStop side

theorem refuse_eq (reason : RefusalReason) (hc : (s.port side).ctx = some c) :
    s.refuse side reason =
      ((s.beforeRefusal side c reason).giveResult side (c.refusalResult reason)).closeTap side .done := by
  unfold State.refuse
  rw [show s.ctx side = some c from hc]
  simp only [holdStop_giveResult, State.beforeRefusal]

/-- What a refusal does whose entry is set back with these frames and records. -/
theorem refuse_ends {ms ns : List LinkMsg} {xs more : List RecBody} (h : Tapped side s v ms xs)
    (hc : (v.port side).ctx = some c)
    (hb : Tapped side (v.recordRefusal c reason) ((v.recordRefusal c reason).endUnwrittenTap side c) ns more) :
    EndsTap s (v.beforeRefusal side c reason) (v.refuse side reason).pump side (c.refusalResult reason) (ms ++ ns)
      (xs ++ ((if reason = .journalFull then [] else [c.refusalRecord reason]) ++ more)) := by
  rw [refuse_eq reason hc]
  exact (h.trans (((Tapped.of_recordRefusal v c reason).trans hb).releaseTap.holdStop)).ends _

/-- An end with the result of a refusal, as the statements put it. -/
theorem EndsTap.refused {ms : List LinkMsg} {more : List RecBody}
    (h : EndsTap s u t side (c.refusalResult reason) ms
      ((if reason = .journalFull then [] else [c.refusalRecord reason]) ++ more))
    (own : c.side = side) (stop : (u.port side).stopHold = some (s.clock + 2000))
    (freed : ∀ c' k, (s.port side).state ≠ .idle → (s.port side).ctx = some c' → c'.slot = some k →
      s.passage.claim.waitU = false → s.passage.claim.waitP = false → u.passage.claim.slot k = none) :
    Refused s t side reason c.card (c.image.map fun i => i.image.balance) ms more where
  toTapClosed := h.toTapClosed
  stop := by rw [h.port]; exact stop
  freed := by rw [h.rest]; exact freed
  record := by
    have := h.records
    rwa [TapContext.refusalRecord, own] at this

theorem holdStop_hold (s : State) (side : Side) : ((s.holdStop side).port side).stopHold = some (s.clock + 2000) := by
  simp [State.holdStop, Config.stopHoldMs]

theorem holdStop_passage (s : State) (side : Side) : (s.holdStop side).passage = s.passage := by simp [State.holdStop]

/-- A refusal that sets no entry back, `v` the part after the ports' own change. -/
structure PlainRefusal (s v t : State) (side : Side) (reason : RefusalReason) (c : TapContext) : Prop where
  refused : Refused s t side reason c.card (c.image.map fun i => i.image.balance)
  screening : t.screening = s.screening
  passage : t.passage = { s.passage with claim := t.passage.claim }
  attempts : s.passage.claim.waits side = false → (t.port side).attempts = (v.port side).attempts
  withdrawn : c.slot = none →
    t.passage.claim = s.passage.claim.setWait side false ∧ t.port (otherSide side) = v.port (otherSide side)

theorem Claim.waits_of {c : Claim} (hu : c.waitU = false) (hp : c.waitP = false) (d : Side) : c.waits d = false := by
  cases d
  · exact hu
  · exact hp

theorem refuse_plain (h : Tapped side s v [] []) (hp : v.passage = s.passage) (hs : v.screening = s.screening)
    (hc : (v.port side).ctx = some c) (own : c.side = side) (free : s.holdsNoEntry side c.card)
    (slot : ∀ c' k, (s.port side).state ≠ .idle → (s.port side).ctx = some c' → c'.slot = some k → c.slot = some k) :
    PlainRefusal s v (v.refuse side reason).pump side reason c := by
  have rec_ := recordRefusal_rest v c reason
  have noEntry : (v.recordRefusal c reason).endUnwrittenTap side c = v.recordRefusal c reason :=
    endUnwrittenTap_without (by rw [rec_]; intro card hcard; rw [hs]; exact free card hcard)
  have ends := refuse_ends (reason := reason) h hc (by rw [noEntry]; exact Tapped.refl _)
  have clock : v.clock = s.clock := by rw [h.rest]
  rw [List.append_nil, List.nil_append] at ends
  generalize ha : v.recordRefusal c reason = a at rec_ noEntry
  have before : v.beforeRefusal side c reason = (a.releaseTap side).holdStop side := by
    rw [State.beforeRefusal, ha, noEntry]
  rw [before] at ends
  have released := released_releaseTap a side
  have aCtx : (a.port side).ctx = some c := by rw [rec_]; exact hc
  have aPassage : a.passage = s.passage := by rw [rec_]; exact hp
  have aPort : ∀ d, a.port d = v.port d := fun d => by rw [rec_]; rfl
  have aClock : (a.releaseTap side).clock = s.clock := by rw [released.rest, rec_]; exact clock
  have aScreening : ((a.releaseTap side).holdStop side).screening = s.screening := by
    rw [State.holdStop, State.onPort_screening, released.rest, rec_]
    exact hs
  refine ⟨ends.refused own (by rw [holdStop_hold, aClock]) fun c' k st hc' hk hu hpw => ?_, ?_, ?_, fun hw => ?_,
    fun hslot => ?_⟩
  · rw [holdStop_passage]
    exact released.freed c k aCtx (slot c' k st hc' hk) (by rw [aPassage]; exact Claim.waits_of hu hpw)
  · rw [ends.rest]
    exact aScreening
  · rw [ends.rest]
    show ((a.releaseTap side).holdStop side).passage = _
    rw [holdStop_passage, released.passage, aPassage]
  · rw [ends.port]
    show (((a.releaseTap side).holdStop side).port side).attempts = _
    rw [State.holdStop, State.onPort_port]
    exact (released.attempts (by rw [aPassage]; exact hw)).trans (by rw [aPort])
  · have without : a.releaseTap side = a.onClaim fun c => c.setWait side false :=
      releaseTap_without fun c' hc' => by
        obtain rfl := Option.some.inj (aCtx.symm.trans hc')
        exact hslot
    rw [without] at ends
    refine ⟨?_, ?_⟩
    · rw [ends.rest]
      show (State.holdStop side _).passage.claim = _
      rw [holdStop_passage]
      show a.passage.claim.setWait side false = _
      rw [aPassage]
    · rw [ends.other, State.holdStop, State.onPort_other, State.onClaim_port, aPort]

/-! ## A tap without outcome (R12, R21) -/

theorem vanish_spec (s : State) (side : Side) (named : PortState) :
    let t := (s.vanish side named).pump
    TapGone s t side ∧
      t = { s with portU := t.portU, portP := t.portP, passage := t.passage, service := t.service, host := t.host } ∧
      t.passage = { s.passage with claim := s.passage.claim.setWait side false } ∧
      t.port side = (s.port side).close (s.restState side named) ∧ t.port (otherSide side) = s.port (otherSide side) := by
  obtain ⟨gone, rest, port, other⟩ := closeTap_spec (s.onClaim fun c => c.setWait side false) side named
  generalize ht : ((s.onClaim fun c => c.setWait side false).closeTap side named).pump = t at gone rest port other
  have : (s.vanish side named).pump = t := ht
  simp only [this]
  exact ⟨{ gone with }, by rw [rest]; rfl, by rw [rest]; rfl, port, other⟩

/-! ## What stays of the part before the result -/

/-- Beyond the ports, the passage and the drain, `t` shows what `u` shows: Screening Unit, link, journal and findings. -/
structure Shows (s u t : State) : Prop where
  screening : t.screening = u.screening
  link : t.link = u.link
  journal : t.journal = u.journal
  told : ∀ k, u.tells k = true → t.tells k = true
  finding : t.host.finding = u.host.finding
  findings : s.host.tx.isSome = true → t.host.findings = u.host.findings

theorem EndsTap.shows {r : TapResult} {ms : List LinkMsg} {xs : List RecBody} (h : EndsTap s u t side r ms xs)
    (hu : u = { v with portU := u.portU, portP := u.portP, passage := u.passage }) : Shows s v t where
  screening := by rw [h.rest]; show u.screening = _; rw [hu]
  link := by rw [h.rest]; show u.link = _; rw [hu]
  journal := by rw [h.rest]; show u.journal = _; rw [hu]
  told k hk := by
    have : u.tells k = v.tells k := by rw [State.tells, hu]; rfl
    rw [h.tells, this, hk]
    rfl
  finding := by rw [h.finding, hu]
  findings ht := by rw [h.findings ht, hu]

theorem releaseTap_holdStop_rest (s : State) (side : Side) :
    (s.releaseTap side).holdStop side =
      { s with
        portU := ((s.releaseTap side).holdStop side).portU, portP := ((s.releaseTap side).holdStop side).portP,
        passage := ((s.releaseTap side).holdStop side).passage } := by
  have released := released_releaseTap s side
  generalize s.releaseTap side = u at released ⊢
  rw [released.rest]
  cases side <;> rfl

theorem CloneFound.shows {card : CardNo} {n : Nat} (h : CloneFound s u card n) (k : Shows s u t) :
    CloneFound s t card n where
  told := k.told _ h.told
  finding := k.finding.trans h.finding
  counted ht := (k.findings ht).trans (h.counted ht)
  frame := by rw [k.link]; exact h.frame
  listed hl := by rw [k.screening]; exact h.listed hl

theorem NoFinding.shows (h : NoFinding s u) (k : Shows s u t) : NoFinding s t where
  deny := by rw [k.screening]; exact h.deny
  finding := k.finding.trans h.finding
  findings ht := (k.findings ht).trans (h.findings ht)

theorem Converted.shows {e : Sighting} {p : PendingTap} {img : SImage} {old : Option Sighting}
    (h : Converted s u e p img old) (k : Shows s u t) : Converted s t e p img old where
  entry := by rw [k.screening]; exact h.entry
  others := by rw [k.screening]; exact h.others
  link := k.link.trans h.link
  records := h.records.congr k.journal
  marked hm := (h.marked hm).shows k
  unmarked hm := (h.unmarked hm).shows k

/-! ## A change of one port before it all -/

section OnPort

variable {f : Port → Port}

theorem Journals.of_onPort {xs : List RecBody} (h : Journals (s.onPort side f) t xs) : Journals s t xs := by
  cases side <;> exact ⟨h.grown, h.halted⟩

theorem CloneFound.of_onPort {card : CardNo} {n : Nat} (h : CloneFound (s.onPort side f) t card n) :
    CloneFound s t card n := by
  cases side <;> exact { h with }

theorem NoFinding.of_onPort (h : NoFinding (s.onPort side f) t) : NoFinding s t := by cases side <;> exact { h with }

theorem Converted.of_onPort {e : Sighting} {p : PendingTap} {img : SImage} {old : Option Sighting}
    (h : Converted (s.onPort side f) t e p img old) : Converted s t e p img old := by
  have records := h.records.of_onPort
  have marked := fun hm => (h.marked hm).of_onPort
  have unmarked := fun hm => (h.unmarked hm).of_onPort
  cases side <;> exact { h with records := records, marked := marked, unmarked := unmarked }

end OnPort

/-! ## No tap ends -/

/-- A command changes one port and nothing else (R185). -/
theorem onPort_done (s : State) (side : Side) (f : Port → Port) :
    let t := (s.onPort side f).pump
    Told s t [] ∧ t = { s with portU := t.portU, portP := t.portP, host := t.host } ∧ t.port side = f (s.port side) ∧
      t.port (otherSide side) = s.port (otherSide side) := by
  refine ⟨Told.of_host (State.onPort_host s side f), ?_, ?_, ?_⟩
  · rw [State.pump_rest]
    cases side <;> rfl
  · rw [State.pump_port, State.onPort_port]
  · rw [State.pump_port, State.onPort_other]

/-- A command that finds nothing to do. -/
theorem done_unchanged (s : State) : Told s s.pump [] ∧ s.pump = { s with host := s.pump.host } :=
  ⟨Told.of_host rfl, State.pump_rest s⟩

end Sys2Proof.Machine
end

section
/-! The OK answer to a SUMMON by port state (R9 to R12, R22, R30). -/

namespace Sys2Proof.Machine

variable {s t u v : State} {side : Side} {card : CardNo}

/-! ## The other port at a refusal -/

theorem heldBy_eq_some {c : Screening} {e : Sighting} {p : PendingTap} (h : c.heldBy side card = some (e, p)) :
    c.sighted card = some e ∧ e.card = card ∧ e.state = .pendingLocal p ∧ p.side = side := by
  unfold Screening.heldBy at h
  split at h
  · cases h
  · rename_i x hx
    split at h
    · rename_i q hq
      split at h
      · rename_i hside
        obtain ⟨rfl, rfl⟩ := Prod.mk.inj (Option.some.inj h)
        exact ⟨hx, (Screening.sighted_some hx).2, hq, hside⟩
      · cases h
    all_goals cases h

/-- Whatever a set-back does stays within Screening Unit, link, journal and host link. -/
theorem endUnwrittenTap_screened (s : State) (side : Side) (c : TapContext) :
    ∃ ms xs, Screened s (s.endUnwrittenTap side c) ms xs := by
  unfold State.endUnwrittenTap
  split
  · rename_i card _
    cases held : s.screening.heldBy side card with
    | none =>
      refine ⟨[], [], ?_⟩
      unfold State.endUnwritten
      rw [held]
      exact Screened.refl s
    | some ep =>
      obtain ⟨sighted, rfl, pending, own⟩ := heldBy_eq_some held
      exact ⟨_, _, (endUnwritten_spec sighted pending own).2.screened⟩
  · exact ⟨[], [], Screened.refl s⟩

/-- The refusal of a tap without a slot does not reach the other port. -/
theorem refuse_other {c : TapContext} {reason : RefusalReason} (hc : (s.port side).ctx = some c)
    (slot : c.slot = none) :
    (s.refuse side reason).pump.port (otherSide side) = s.port (otherSide side) := by
  obtain ⟨ms, xs, screened⟩ := endUnwrittenTap_screened (s.recordRefusal c reason) side c
  have ends := refuse_ends (reason := reason) (Tapped.refl s) hc (Tapped.of_screened screened)
  have same : ∀ d, ((s.recordRefusal c reason).endUnwrittenTap side c).port d = s.port d := fun d => by
    rw [screened.rest, recordRefusal_rest]
    rfl
  have without := releaseTap_without (s := (s.recordRefusal c reason).endUnwrittenTap side c) (side := side)
    fun c' hc' => by
      rw [same, hc] at hc'
      obtain rfl := Option.some.inj hc'
      exact slot
  rw [ends.other, State.beforeRefusal, without, State.holdStop, State.onPort_other, State.onClaim_port, same]

/-! ## Detection (R10, R11, R30) -/

/-- The part as a detection finds it: the port holds a fresh context with its deadline. -/
def State.detected (side : Side) (card : CardNo) (s : State) : State :=
  s.onPort side fun p =>
    { p with
      state := .detected, exchange := none, deadline := .running (s.clock + Config.dialogueMs),
      ctx := some (.fresh side (some card)) }

theorem detected_tapped (s : State) (side : Side) (card : CardNo) : Tapped side s (s.detected side card) [] [] :=
  .of_onPort s side _

theorem detected_ctx (s : State) (side : Side) (card : CardNo) :
    ((s.detected side card).port side).ctx = some (.fresh side (some card)) := by simp [State.detected]

theorem detect_eq (s : State) (side : Side) (card : CardNo) :
    s.detect side card =
      if s.service.state ≠ .inService then (s.detected side card).closeTap side .disabled
      else if s.journal.halted then (s.detected side card).refuse side .journalFull
      else (s.detected side card).checkAisle side := by
  have service : (s.detected side card).service = s.service := by simp [State.detected]
  have journal : (s.detected side card).journal = s.journal := by simp [State.detected]
  rw [← service, ← journal]
  rfl

/-- A fresh context is refused at once (R30, R42). -/
theorem detected_refuse {reason : RefusalReason} (free : s.holdsNoEntry side (some card))
    (idle : (s.port side).state = .idle) :
    Refused s ((s.detected side card).refuse side reason).pump side reason (some card) none :=
  (refuse_plain (detected_tapped s side card) (by simp [State.detected]) (by simp [State.detected])
    (detected_ctx s side card) rfl free (fun _ _ st => absurd idle st)).refused

/-- Outside service a detection ends at once (R11, R21). -/
theorem detect_outside (h : s.service.state ≠ .inService) :
    let t := (s.detect side card).pump
    TapGone s t side ∧
      t = { s with portU := t.portU, portP := t.portP, service := t.service, host := t.host } ∧
      t.port side =
        { s.port side with
          state := .disabled, exchange := none, deadline := .stopped, aisleWait := none, ctx := none } := by
  obtain ⟨gone, rest, port, -⟩ := closeTap_spec (s.detected side card) side .disabled
  rw [detect_eq, if_pos h]
  have disabled : (s.detected side card).restState side .disabled = .disabled := by
    rw [State.restState_eq, ite_self]
  rw [disabled] at port
  generalize ((s.detected side card).closeTap side .disabled).pump = t at gone rest port
  refine ⟨by cases side <;> exact { gone with }, ?_, ?_⟩
  · rw [rest]
    cases side <;> rfl
  · rw [port]
    cases side <;> rfl

/-- Under a line emergency an INBOUND tap is refused (R30). -/
theorem detect_emergency (hs : s.service.state = .inService) (hj : s.journal.halted = false)
    (he : s.emergency.line = true) : s.detect .U card = (s.detected .U card).refuse .U .emergency := by
  rw [detect_eq, if_neg (by simp [hs]), if_neg (by simp [hj]), State.checkAisle, if_pos (by exact he)]
  rfl

/-- Under a line emergency an OUTBOUND tap takes the free-exit path (R30). -/
theorem detect_freeExit (hs : s.service.state = .inService) (hj : s.journal.halted = false)
    (he : s.emergency.line = true) :
    let t := (s.detect .P card).pump
    Told s t [] ∧ t = { s with portP := t.portP, host := t.host } ∧
      t.portP =
        { s.portP.asking .reading (.fetch .header) with
          deadline := .running (s.clock + 300), aisleWait := none,
          ctx := some { TapContext.fresh .P (some card) with path := some .freeExit } } := by
  have path : s.detect .P card = (s.detected .P card).freeExit .P := by
    rw [detect_eq, if_neg (by simp [hs]), if_neg (by simp [hj])]
    unfold State.checkAisle
    rw [if_pos (by simpa [State.detected] using he)]
    rfl
  rw [path]
  exact ⟨Told.of_host rfl, by rw [State.pump_rest]; rfl, State.pump_portP _⟩

/-- A detection that asks for a slot (R11, R12, R118). -/
theorem detect_requests (hs : s.service.state = .inService) (hj : s.journal.halted = false)
    (he : s.emergency.line = false) :
    let t := (s.detect side card).pump
    Told s t [] ∧ t = { s with portU := t.portU, portP := t.portP, passage := t.passage, host := t.host } ∧
      t.passage = { s.passage with claim := t.passage.claim } ∧
      t.port (otherSide side) = s.port (otherSide side) ∧
      (∀ k, s.grantable (dirOf side) = true → (if s.passage.claim.slot1 = none then k = .one else k = .two) →
        t.passage.claim =
          { (s.passage.claim.setWait side false).setSlot k (some (.context side)) with
            direction := some (dirOf side), lastGranted := dirOf side } ∧
        t.port side =
          { (s.port side).asking .reading (.fetch .header) with
            deadline := .running (s.clock + 300), aisleWait := none,
            ctx := some { TapContext.fresh side (some card) with path := some .normal, slot := some k } }) ∧
      (s.grantable (dirOf side) = false →
        t.passage.claim = s.passage.claim.setWait side true ∧
        t.port side =
          { s.port side with
            state := .waitAisle, exchange := none, deadline := .paused 300,
            aisleWait := some (s.clock + 1000 * s.service.params.aisleWait),
            ctx := some (TapContext.fresh side (some card)) }) := by
  have path : s.detect side card = (s.detected side card).requestSlot side := by
    rw [detect_eq, if_neg (by simp [hs]), if_neg (by simp [hj])]
    unfold State.checkAisle
    rw [if_neg (by simpa [State.detected] using he)]
  have passage : (s.detected side card).passage = s.passage := by simp [State.detected]
  have grants : (s.detected side card).grantable (dirOf side) = s.grantable (dirOf side) := by
    simp [State.grantable, passage]
  have port : (s.detected side card).port side = _ := State.onPort_port ..
  have other : (s.detected side card).port (otherSide side) = s.port (otherSide side) := State.onPort_other ..
  rw [path]
  unfold State.requestSlot
  rw [grants]
  by_cases hg : s.grantable (dirOf side) = true
  · rw [if_pos hg]
    have spec := fun k (hk : if s.passage.claim.slot1 = none then k = .one else k = .two) =>
      grantPort_spec (s := s.detected side card) (side := side) (k := k) (by rwa [grants]) (by rw [passage]; exact hk)
    obtain ⟨k₀, hk₀⟩ : ∃ k : SlotId, if s.passage.claim.slot1 = none then k = .one else k = .two := by
      split <;> exact ⟨_, rfl⟩
    obtain ⟨rest, claimed, -, otherPort, -⟩ := spec k₀ hk₀
    generalize (s.detected side card).grantPort side = g at rest claimed spec otherPort
    refine ⟨Told.of_host (by rw [rest]; simp [State.detected]), ?_, ?_, ?_, fun k _ hk => ?_, fun hn => ?_⟩
    · rw [State.pump_rest]
      generalize g.pump.host = host
      rw [rest]
      cases side <;> rfl
    · rw [State.pump_passage, claimed, passage]
    · rw [State.pump_port, otherPort, other]
    · obtain ⟨-, -, claim, -, granted⟩ := spec k hk
      refine ⟨by rw [State.pump_passage, claim, passage], ?_⟩
      rw [State.pump_port, granted, Port.beginReading_eq, port]
      simp [Port.asking, Deadline.resume, Config.dialogueMs]
    · rw [hg] at hn
      cases hn
  · rw [if_neg hg]
    refine ⟨Told.of_host (by cases side <;> rfl), ?_, ?_, ?_, fun k hk => absurd hk hg, fun _ => ⟨?_, ?_⟩⟩
    · rw [State.pump_rest]
      cases side <;> rfl
    · rw [State.pump_passage]
      cases side <;> rfl
    · rw [State.pump_port, State.onPort_other, State.onClaim_port, other]
    · rw [State.pump_passage]
      cases side <;> rfl
    · rw [State.pump_port, State.onPort_port, State.onClaim_port, port]
      cases side <;> simp [State.detected, Deadline.pause, Config.dialogueMs]

/-- A detection never reaches the other port (R10). -/
theorem detect_other (s : State) (side : Side) (card : CardNo) :
    (s.detect side card).pump.port (otherSide side) = s.port (otherSide side) := by
  have other : (s.detected side card).port (otherSide side) = s.port (otherSide side) := State.onPort_other ..
  by_cases hs : s.service.state = .inService
  · by_cases hj : s.journal.halted = true
    · rw [detect_eq, if_neg (by simp [hs]), if_pos hj, refuse_other (detected_ctx s side card) rfl, other]
    · have hj : s.journal.halted = false := by simpa using hj
      by_cases he : s.emergency.line = true
      · cases side with
        | U =>
          rw [detect_emergency hs hj he, refuse_other (detected_ctx s .U card) rfl, other]
        | P =>
          obtain ⟨-, rest, -⟩ := detect_freeExit (card := card) hs hj he
          rw [rest]
          rfl
      · exact (detect_requests hs hj (by simpa using he)).2.2.2.1
  · obtain ⟨-, -, -, closed⟩ := closeTap_spec (s.detected side card) side .disabled
    rw [detect_eq, if_pos hs, closed, other]

/-- The refusal of several cards (R10). -/
theorem collide_refused (s : State) (side : Side) (idle : (s.port side).state = .idle) :
    Refused s (s.collide side).pump side .multipleCards none none :=
  (refuse_plain (c := .fresh side none) (.of_onPort s side _) (State.onPort_passage ..) (State.onPort_screening ..)
    (by rw [State.onPort_port]) rfl (fun _ h => nomatch h) (fun _ _ st => absurd idle st)).refused

theorem collide_other (s : State) (side : Side) :
    (s.collide side).pump.port (otherSide side) = s.port (otherSide side) := by
  unfold State.collide
  rw [refuse_other (c := .fresh side none) (by rw [State.onPort_port]) rfl, State.onPort_other]

/-! ## Every port state -/

theorem summoned_idle (h : (s.port side).state = .idle) (collided : Bool) :
    s.summoned side card collided = if collided = true then s.collide side else s.detect side card := by
  unfold State.summoned
  rw [h]

theorem summoned_resting (h : (s.port side).state ≠ .idle) (hw : (s.port side).state ≠ .waitAisle) (collided : Bool) :
    s.summoned side card collided = s.endExchange side := by
  unfold State.summoned
  split
  · exact absurd ‹_› h
  · exact absurd ‹_› hw
  all_goals rfl

theorem summoned_other (hw : (s.port side).state ≠ .waitAisle) (collided : Bool) :
    (s.summoned side card collided).pump.port (otherSide side) = s.port (otherSide side) := by
  by_cases h : (s.port side).state = .idle
  · rw [summoned_idle h]
    split
    · exact collide_other s side
    · exact detect_other s side card
  · rw [summoned_resting h hw]
    exact (onPort_done s side _).2.2.2

/-- In WAIT_AISLE the card is still there, replaced, or joined by another (R12). -/
theorem summoned_waiting {c : TapContext} (h : (s.port side).state = .waitAisle) (hc : (s.port side).ctx = some c)
    (collided : Bool) :
    s.summoned side card collided =
      if collided = true then s.refuse side .multipleCards
      else if c.card = some card then s.endExchange side
      else s.vanish side .done := by
  unfold State.summoned
  rw [h, show s.ctx side = some c from hc]
  rfl

/-- Settles O38: each port state has its lemma, and none but WAIT_AISLE reaches the other port. -/
theorem summonAnswersActByPortState : Obligations.SummonAnswersActByPortState := by
  intro s side card collided x hx hr
  have effect : exec (.summonAnswer side card collided) s = .next (s.summoned side card collided).pump := by
    show done (s.takeSummon side card collided) = _
    unfold State.takeSummon
    rw [hx]
    simp only [hr]
    rfl
  refine ⟨_, effect, fun hw => summoned_other hw collided, fun resting => ?_, fun idle many => ?_, fun idle one => ?_,
    fun waiting c hc own slot => ?_⟩
  · have hne : (s.port side).state ≠ .idle ∧ (s.port side).state ≠ .waitAisle := by
      obtain h | h := resting <;> simp [h]
    rw [summoned_resting hne.1 hne.2]
    obtain ⟨told, rest, port, -⟩ := onPort_done s side fun p => { p with exchange := none }
    exact ⟨told, rest, port⟩
  · rw [summoned_idle idle, if_pos many]
    exact collide_refused s side idle
  · rw [summoned_idle idle, if_neg (by simp [one])]
    refine ⟨detect_outside, fun hs hj free => ?_, fun hs hj he => ⟨?_, ?_⟩, fun hs hj he => ?_⟩
    · rw [detect_eq, if_neg (by simp [hs]), if_pos hj]
      exact detected_refuse free idle
    · rintro rfl free
      rw [detect_emergency hs hj he]
      exact detected_refuse free idle
    · rintro rfl
      exact detect_freeExit hs hj he
    · obtain ⟨told, rest, passage, -, granted, waits⟩ := detect_requests (side := side) (card := card) hs hj he
      exact ⟨told, rest, passage, granted, waits⟩
  · rw [summoned_waiting waiting hc]
    refine ⟨?_, fun many free => ?_, fun one same => ?_, fun one differs => ?_⟩
    · split
      · exact refuse_other hc slot
      · split
        · exact (onPort_done s side _).2.2.2
        · exact (vanish_spec s side .done).2.2.2.2
    · rw [if_pos many]
      have plain := refuse_plain (reason := .multipleCards) (Tapped.refl s) rfl rfl hc own free fun c' k _ hc' hk => by
        obtain rfl := Option.some.inj (hc.symm.trans hc')
        exact hk
      exact ⟨plain.refused, by rw [(plain.withdrawn slot).1]; cases side <;> rfl⟩
    · rw [if_neg (by simp [one]), if_pos same]
      obtain ⟨told, rest, port, -⟩ := onPort_done s side fun p => { p with exchange := none }
      exact ⟨told, rest, port⟩
    · rw [if_neg (by simp [one]), if_neg differs]
      obtain ⟨gone, rest, passage, port, -⟩ := vanish_spec s side .done
      exact ⟨gone, rest, passage, port⟩

end Sys2Proof.Machine
end

section
/-! The timers of a tap: STOP hold, aisle wait and dialogue deadline, and the end IN_DOUBT (R12, R15, R19, R24, R87). -/

namespace Sys2Proof.Machine

variable {s t u v : State} {side : Side} {c : TapContext}

/-! ## A conversion stays within the line side (R87, R92, R93) -/

theorem applyHeld_screened (s : State) (card : CardNo) (held : Option HeldUpdate) :
    ∃ ms xs, Screened s (s.applyHeld card held) ms xs := by
  have screening : ∀ f : Screening → Screening, ∃ ms xs, Screened s (s.onScreening f) ms xs :=
    fun f => ⟨_, _, Screened.of_screening s f⟩
  have resolved : ∀ (b : RecBody) (f : Screening → Screening), ∃ ms xs, Screened s ((s.append b).onScreening f) ms xs :=
    fun b f => ⟨_, _, (Screened.of_append s b).trans (Screened.of_screening _ f)⟩
  have unchanged : ∃ ms xs, Screened s s ms xs := ⟨_, _, Screened.refl s⟩
  cases held with
  | none => exact unchanged
  | some h =>
    show ∃ ms xs, Screened s (s.inboundSighting h.src card h.read h.written) ms xs
    unfold State.inboundSighting
    split
    · exact unchanged
    · split
      · exact screening _
      · split
        · unfold State.sightCommitted
          split
          · exact unchanged
          · split
            · exact screening _
            · exact ⟨_, _, (cloneLate_spec _ _ s).1⟩
        · simp only [State.sightPending]
          exact screening _
        · unfold State.sightInDoubt
          split
          · exact resolved _ _
          · split
            · exact resolved _ _
            · exact unchanged

theorem limitInDoubt_screened (s : State) : ∃ xs, Screened s s.limitInDoubt [] xs := by
  have unchanged : ∃ xs, Screened s s [] xs := ⟨_, Screened.refl s⟩
  unfold State.limitInDoubt
  split
  · split
    · unfold State.abandon
      split
      · exact ⟨_, (Screened.of_append s _).trans (Screened.of_screening _ _)⟩
      · exact unchanged
      · exact unchanged
    · exact unchanged
  · exact unchanged

theorem convert_screened (s : State) (side : Side) (card : CardNo) :
    ∃ ms xs, Screened s (s.convert side card) ms xs := by
  unfold State.convert
  split
  · rename_i e p _
    obtain ⟨xs, limited⟩ := limitInDoubt_screened s
    obtain ⟨ms, ys, held⟩ := applyHeld_screened
      (((s.limitInDoubt.touchSighting
        { e with state := .inDoubt (p.stored.getD e.baseline) s.limitInDoubt.journal.nextSerial }).append
          (inDoubtRecord side card (p.stored.getD e.baseline))).cloneIf p.cloneMark card) card (unmarked p.held)
    exact ⟨_, _, (((limited.trans (Screened.of_screening _ _)).trans (Screened.of_append _ _)).trans
      (cloneIf_spec _ _ _).1).trans held⟩
  · exact ⟨_, _, Screened.refl s⟩

/-! ## The end IN_DOUBT (R19, R87) -/

/-- The part once the entry of a tap IN_DOUBT has been converted. -/
def State.doubted (s : State) (side : Side) (c : TapContext) : State :=
  match c.card with
  | some card => s.convert side card
  | none => s

/-- The result of a tap IN_DOUBT (R45). -/
def TapContext.doubtResult (c : TapContext) : TapResult :=
  { outcome := .inDoubt, card := c.card, fare := none, balance := none }

theorem inDoubt_eq (hc : (s.port side).ctx = some c) :
    s.inDoubt side =
      ((((s.doubted side c).releaseTap side).holdStop side).giveResult side c.doubtResult).closeTap side .done := by
  unfold State.inDoubt
  rw [show s.ctx side = some c from hc]
  simp only [holdStop_giveResult]
  rfl

theorem doubted_screened (s : State) (side : Side) (c : TapContext) : ∃ ms xs, Screened s (s.doubted side c) ms xs := by
  unfold State.doubted
  split
  · exact convert_screened s side _
  · exact ⟨_, _, Screened.refl s⟩

theorem doubted_without (h : s.holdsNoEntry side c.card) : s.doubted side c = s := by
  unfold State.doubted
  split
  · rename_i card hcard
    unfold State.convert
    rw [h card hcard]
  · rfl

/-- What an end IN_DOUBT does whose conversion queues and records these. -/
theorem inDoubt_ends {ms : List LinkMsg} {xs : List RecBody} (h : Tapped side s v [] [])
    (hc : (v.port side).ctx = some c) (hb : Screened v (v.doubted side c) ms xs) :
    EndsTap s (((v.doubted side c).releaseTap side).holdStop side) (v.inDoubt side).pump side c.doubtResult ms xs := by
  rw [inDoubt_eq hc]
  exact (h.trans (Tapped.of_screened hb)).releaseTap.holdStop.ends _

/-- The deadline of a tap with its STORE sent ends it IN_DOUBT; the port's own change comes first (R15, R19, R87). -/
theorem inDoubt_ended {f : Port → Port} (hf : (f (s.port side)).ctx = some c) :
    EndedInDoubt s ((s.onPort side f).inDoubt side).pump side c ∧
      (s.passage.claim.waits side = false →
        (((s.onPort side f).inDoubt side).pump.port side).attempts = (f (s.port side)).attempts) := by
  have tapped := Tapped.of_onPort s side f
  have hv : ((s.onPort side f).port side).ctx = some c := by rw [State.onPort_port, hf]
  have passage : (s.onPort side f).passage = s.passage := State.onPort_passage ..
  have screening : (s.onPort side f).screening = s.screening := State.onPort_screening ..
  obtain ⟨ms, xs, screened⟩ := doubted_screened (s.onPort side f) side c
  have released := released_releaseTap ((s.onPort side f).doubted side c) side
  have bPassage : ((s.onPort side f).doubted side c).passage = s.passage := by rw [screened.rest]; exact passage
  have bPort : ((s.onPort side f).doubted side c).port side = f (s.port side) := by
    rw [screened.rest]
    exact State.onPort_port ..
  have clock : (((s.onPort side f).doubted side c).releaseTap side).clock = s.clock := by
    rw [released.rest, screened.rest]
    exact State.onPort_clock ..
  have ends := inDoubt_ends tapped hv screened
  have shows := ends.shows (releaseTap_holdStop_rest _ side)
  refine ⟨{ toTapEnded := ends.toTapEnded, stop := ?_, credits := ?_, released := fun k hk hu hp => ?_,
            entry := fun card e p img old hcard he hst hside himg hold => ?_, untouched := fun free => ?_ },
          fun hw => ?_⟩
  · rw [ends.port]
    exact (holdStop_hold _ side).trans (by rw [clock])
  · rw [ends.rest]
    show (State.holdStop side _).passage.credits = _
    rw [holdStop_passage, released.passage, bPassage]
  · rw [ends.rest]
    show (State.holdStop side _).passage.claim.slot k = none
    rw [holdStop_passage]
    exact released.freed c k (by rw [bPort, hf]) hk (by rw [bPassage]; exact Claim.waits_of hu hp)
  · have cards := (Screening.sighted_some he).2
    subst cards
    have doubted : (s.onPort side f).doubted side c = (s.onPort side f).convert side e.card := by
      rw [State.doubted, hcard]
    obtain ⟨converted, ys, framed⟩ := convert_spec (s := s.onPort side f) (by rw [screening]; exact he) hst hside himg
      (by rw [screening]; exact hold)
    rw [← doubted] at converted framed
    exact ⟨(converted.shows { shows with findings := fun ht => shows.findings (by simpa using ht) }).of_onPort,
      (inDoubt_ends tapped hv framed).formed⟩
  · have same := doubted_without (s := s.onPort side f) (side := side) (c := c) (by
      intro card hcard
      rw [screening]
      exact free card hcard)
    rw [same] at shows
    have plain := inDoubt_ends tapped hv (by rw [same]; exact Screened.refl _)
    refine ⟨by rw [shows.screening, screening], by rw [shows.link]; exact State.onPort_link .., ?_, ?_⟩
    · rw [shows.journal]
      exact State.onPort_journal ..
    · rw [plain.formed]
      simp [State.syncAnswers, Link.dropReplies]
  · rw [ends.port]
    show ((State.holdStop side _).port side).attempts = _
    rw [State.holdStop, State.onPort_port]
    exact (released.attempts (by rw [bPassage]; exact hw)).trans (by rw [bPort])

/-! ## Every timer -/

theorem Port.abandon_attempts (p : Port) :
    p.abandon.attempts = p.attempts + if p.exchange.isSome = true then 1 else 0 := by
  unfold Port.abandon
  split <;> rfl

theorem Deadline.runs_iff (d : Deadline) : d.runs = true ↔ ∃ until_, d = .running until_ := by
  cases d <;> simp [Deadline.runs]

theorem deadline_effect {until_ : Nat} (hd : (s.port side).deadline = .running until_)
    (hc : (s.port side).ctx = some c) :
    exec (.dialogueDeadlineExpiry side) s =
      .next (if c.storeSent = true then (s.onPort side Port.abandon).inDoubt side
        else (s.onPort side Port.abandon).refuse side .cardUnreadable).pump := by
  show execDialogueDeadlineExpiry side s = _
  rw [execDialogueDeadlineExpiry, if_pos (by rw [hd]; rfl), State.deadlineExpired, show s.ctx side = some c from hc]
  rfl

/-- Settles O43: each timer's row, by what it finds at its port. -/
theorem tapTimersEndTheTap : Obligations.TapTimersEndTheTap := by
  intro s side
  refine ⟨?_, fun hw => ?_, fun c hw hc own slot free => ?_, fun hd => ?_, fun c until_ hd hc own =>
    ⟨fun unsent free => ?_, fun sent => ?_⟩⟩
  · exact ⟨_, rfl, onPort_done s side fun p => { p with stopHold := none }⟩
  · have effect : exec (.aisleWaitExpiry side) s = .next s.pump := if_neg hw
    exact ⟨_, effect, done_unchanged s⟩
  · have effect : exec (.aisleWaitExpiry side) s = .next (s.refuse side .aisleBusy).pump := if_pos hw
    have plain := refuse_plain (reason := .aisleBusy) (Tapped.refl s) rfl rfl hc own free fun c' k _ hc' hk => by
      obtain rfl := Option.some.inj (hc.symm.trans hc')
      exact hk
    obtain ⟨claim, other⟩ := plain.withdrawn slot
    exact ⟨_, effect, plain.refused, by rw [plain.passage, claim], other, plain.screening, plain.refused.link⟩
  · have idle : ¬(s.port side).deadline.runs = true := fun h => by
      obtain ⟨until_, running⟩ := (Deadline.runs_iff _).1 h
      exact hd until_ running
    have effect : exec (.dialogueDeadlineExpiry side) s = .next s.pump := if_neg idle
    exact ⟨_, effect, done_unchanged s⟩
  · have abandoned : ((s.onPort side Port.abandon).port side).ctx = some c := by simp [hc]
    have plain := refuse_plain (reason := .cardUnreadable) (Tapped.of_onPort s side Port.abandon)
      (State.onPort_passage ..) (State.onPort_screening ..) abandoned own free fun c' k _ hc' hk => by
        obtain rfl := Option.some.inj (hc.symm.trans hc')
        exact hk
    refine ⟨_, by rw [deadline_effect hd hc, if_neg (by simp [unsent])], plain.refused, fun hw => ?_⟩
    rw [plain.attempts hw, State.onPort_port, Port.abandon_attempts]
  · obtain ⟨ended, attempts⟩ := inDoubt_ended (f := Port.abandon) (by simp [hc] : (s.port side).abandon.ctx = some c)
    refine ⟨_, by rw [deadline_effect hd hc, if_pos sent], ended, fun hw => ?_⟩
    rw [attempts hw, Port.abandon_attempts]

end Sys2Proof.Machine
end

section
/-! The exchanges of a reader port: how they start, which answers they take, how they are retried and how they fail
(R7 to R9, R13, R16, R22, R194). -/

namespace Sys2Proof.Machine

variable {s t : State} {side : Side} {x : Exchange} {f : Port → Port} {c : TapContext} {area : Area}

/-! ## A command that changes its port alone -/

/-- A command leaves its port like this, and beyond it no more than a free transmitter begins. -/
def Ports (s : State) (side : Side) (command : Instr) (p : Port) : Prop :=
  ∃ t, exec command s = .next t ∧ Told s t [] ∧ t = { s with portU := t.portU, portP := t.portP, host := t.host } ∧
    t.port (otherSide side) = s.port (otherSide side) ∧ t.port side = p

theorem ports_of {command : Instr} {p : Port} (effect : exec command s = .next (s.onPort side f).pump)
    (hp : f (s.port side) = p) : Ports s side command p := by
  obtain ⟨told, rest, port, other⟩ := onPort_done s side f
  exact ⟨_, effect, told, rest, other, port.trans hp⟩

theorem askIn_port (s : State) (side : Side) (st : PortState) (r : CardRequest) :
    s.askIn side st r = s.onPort side fun p => p.asking st r := rfl

theorem onPort_onPort (s : State) (side : Side) (f g : Port → Port) :
    (s.onPort side f).onPort side g = s.onPort side fun p => g (f p) := by cases side <;> rfl

/-! ## Polls and answers (R7, R8, R194) -/

theorem poll_ports (s : State) (side : Side) :
    Ports s side (.pollTimer side)
      (if ((s.port side).state = .idle ∨ (s.port side).state = .waitAisle ∨ (s.port side).state = .done) ∧
          (s.port side).exchange = none then
        (s.port side).asking (s.port side).state .summon
      else s.port side) := by
  have polls : ((s.port side).state.polls && (s.port side).exchange.isNone) = true ↔
      ((s.port side).state = .idle ∨ (s.port side).state = .waitAisle ∨ (s.port side).state = .done) ∧
        (s.port side).exchange = none := by
    cases (s.port side).state <;> simp [PortState.polls]
  by_cases h : ((s.port side).state.polls && (s.port side).exchange.isNone) = true
  · rw [if_pos (polls.1 h)]
    refine ports_of (f := Port.ask .summon) ?_ rfl
    show done (s.poll side) = _
    rw [State.poll, if_pos h]
    rfl
  · rw [if_neg fun hp => h (polls.2 hp)]
    refine ⟨s.pump, ?_, (done_unchanged s).1, ?_, State.pump_port s _, State.pump_port s _⟩
    · show done (s.poll side) = _
      rw [State.poll, if_neg h]
      rfl
    · rw [State.pump_rest]

/-- Without an exchange an answer or window is discarded (R8). -/
theorem discarded (h : (s.port side).exchange = none) {command : Instr} {card : CardNo} {collided : Bool}
    {content : List Byte} {seen : Option AnswerError}
    (hc : command ∈ [Instr.summonAnswer side card collided, .fetchAnswer side area content, .storeAnswer side area,
      .answerWindowClose side seen]) : exec command s = .next s.pump := by
  simp only [List.mem_cons, List.not_mem_nil, or_false] at hc
  obtain rfl | rfl | rfl | rfl := hc
  · show done (s.takeSummon side card collided) = _
    rw [State.takeSummon, h]
    rfl
  · show done (s.takeFetch side area content) = _
    rw [State.takeFetch, h]
    rfl
  · show done (s.takeStore side area) = _
    rw [State.takeStore, h]
    rfl
  · show done (s.windowClosed side seen.isSome) = _
    rw [State.windowClosed, h]
    rfl

/-- An answer that does not fit the request in flight (R8, R194). -/
def Exchange.Misfit (x : Exchange) (side : Side) (command : Instr) : Prop :=
  (∃ card collided, command = Instr.summonAnswer side card collided ∧ x.request ≠ .summon) ∨
    (∃ area content, command = Instr.fetchAnswer side area content ∧
      (x.request = .fetch area → content.length ≠ if area = .header then 8 else 40)) ∨
    (∃ area, command = Instr.storeAnswer side area ∧ ∀ bytes, x.request ≠ .store area bytes)

theorem areaSize_eq (area : Area) : areaSize area = if area = .header then 8 else 40 := by cases area <;> rfl

theorem misfit_effect {command : Instr} (hx : (s.port side).exchange = some x) (h : x.Misfit side command) :
    exec command s = .next (s.wrongAnswer side).pump := by
  obtain ⟨card, collided, rfl, hr⟩ | ⟨area, content, rfl, hr⟩ | ⟨area, rfl, hr⟩ := h
  · show done (s.takeSummon side card collided) = _
    unfold State.takeSummon
    rw [hx]
    cases hreq : x.request with
    | summon => exact absurd hreq hr
    | fetch a => simp only [hreq]; rfl
    | store a bytes => simp only [hreq]; rfl
  · show done (s.takeFetch side area content) = _
    unfold State.takeFetch
    rw [hx]
    cases hreq : x.request with
    | summon => simp only [hreq]; rfl
    | fetch a =>
      have misfit : ¬(a = area ∧ content.length = areaSize area) := fun ⟨ha, hl⟩ =>
        hr (by rw [hreq, ha]) (by rw [hl, areaSize_eq])
      simp only [hreq, if_neg misfit]
      rfl
    | store a bytes => simp only [hreq]; rfl
  · show done (s.takeStore side area) = _
    unfold State.takeStore
    rw [hx]
    cases hreq : x.request with
    | summon => simp only [hreq]; rfl
    | fetch a => simp only [hreq]; rfl
    | store a bytes =>
      have misfit : a ≠ area := fun ha => hr bytes (by rw [hreq, ha])
      simp only [hreq, if_neg misfit]
      rfl

theorem misfit_ports {command : Instr} (hx : (s.port side).exchange = some x) (h : x.Misfit side command) :
    Ports s side command { s.port side with exchange := some { x with windowError := true } } :=
  ports_of (misfit_effect hx h) (by rw [hx]; rfl)

/-- A fetched area of the right size reaches the port. -/
theorem fetch_effect {content : List Byte} (hx : (s.port side).exchange = some x) (hr : x.request = .fetch area)
    (size : content.length = areaSize area) :
    exec (.fetchAnswer side area content) s = .next (s.fetched side area content).pump := by
  show done (s.takeFetch side area content) = _
  unfold State.takeFetch
  rw [hx]
  simp only [hr, size, and_self, if_true]
  rfl

theorem store_ports {bytes : List Byte} (hx : (s.port side).exchange = some x) (hr : x.request = .store area bytes) :
    Ports s side (.storeAnswer side area) ((s.port side).asking .confirming (.fetch area)) := by
  refine ports_of (f := fun p => p.asking .confirming (.fetch area)) ?_ rfl
  show done (s.takeStore side area) = _
  unfold State.takeStore
  rw [hx]
  simp only [hr, if_true]
  rfl

/-! ## Windows (R8, R9, R12, R22) -/

/-- What a window that closes without an OK answer does, by the request in flight. -/
def State.requestWindow (side : Side) (x : Exchange) (error : Bool) (s : State) : State :=
  match x.request with
  | .summon => s.summonWindow side x error
  | .fetch area => s.areaWindow side error (State.fetchFailed side area)
  | .store area _ => s.areaWindow side error (State.stored side area)

theorem window_effect (hx : (s.port side).exchange = some x) (seen : Option AnswerError) :
    exec (.answerWindowClose side seen) s = .next (s.requestWindow side x (x.windowError || seen.isSome)).pump := by
  show done (s.windowClosed side seen.isSome) = _
  rw [State.windowClosed, hx]
  rfl

/-- A port whose request is sent again (R8). -/
def Port.retried (p : Port) (x : Exchange) (error : Bool) : Port :=
  { p with
    attempts := p.attempts + 1,
    exchange := some { x with windowError := false, earlierError := x.earlierError || error } }

theorem retried_window (p : Port) (x : Exchange) (error : Bool) :
    p.retried x (x.windowError || error) =
      { p with
        attempts := p.attempts + 1,
        exchange :=
          some { x with windowError := false, earlierError := x.earlierError || x.windowError || error } } := by
  rw [Port.retried, Bool.or_assoc]

theorem retry_port (hx : (s.port side).exchange = some x) (error : Bool) :
    ({ (s.port side).failAttempt with
        exchange := (s.port side).exchange.map fun x =>
          { x with windowError := false, earlierError := x.earlierError || error } } : Port) =
      (s.port side).retried x error := by
  rw [hx]
  rfl

theorem retry_ports {seen : Option AnswerError} {error : Bool} (hx : (s.port side).exchange = some x)
    (h : s.requestWindow side x (x.windowError || seen.isSome) = s.retry side error) :
    Ports s side (.answerWindowClose side seen) ((s.port side).retried x error) :=
  ports_of (by rw [window_effect hx, h]; rfl) (retry_port hx error)

/-- Below three attempts the window of a FETCH or STORE sends the request again; the third has failed. -/
theorem areaWindow_eq (error : Bool) (failed : State → State) :
    s.areaWindow side error failed =
      if (s.port side).attempts < 2 then s.retry side error else failed (s.onPort side Port.failAttempt) := by
  have : (s.port side).attempts + 1 < 3 ↔ (s.port side).attempts < 2 := by omega
  simp only [State.areaWindow, Config.attempts, this]

theorem retrySummon_eq (error : Bool) :
    s.retrySummon side error =
      if (s.port side).attempts < 2 then s.retry side error else s.onPort side Port.failExchange := by
  have : (s.port side).attempts + 1 < 3 ↔ (s.port side).attempts < 2 := by omega
  simp only [State.retrySummon, Config.attempts, this]

/-- The part after the last attempt of a FETCH. -/
theorem fetchWindow_failed (hr : x.request = .fetch area) (last : 2 ≤ (s.port side).attempts) (error : Bool) :
    s.requestWindow side x error = (s.onPort side Port.failAttempt).fetchFailed side area := by
  unfold State.requestWindow
  rw [hr]
  exact (areaWindow_eq ..).trans (if_neg (by omega))

theorem storeWindow_ports {bytes : List Byte} {seen : Option AnswerError} (hx : (s.port side).exchange = some x)
    (hr : x.request = .store area bytes) (last : 2 ≤ (s.port side).attempts) :
    Ports s side (.answerWindowClose side seen) ((s.port side).asking .confirming (.fetch area)) := by
  refine ports_of (f := fun p => p.failAttempt.asking .confirming (.fetch area)) ?_ rfl
  rw [window_effect hx]
  unfold State.requestWindow
  rw [hr]
  simp only [areaWindow_eq, if_neg (show ¬(s.port side).attempts < 2 by omega), State.stored, askIn_port, onPort_onPort]

theorem areaWindow_retried {seen : Option AnswerError} (hx : (s.port side).exchange = some x) (hr : x.request ≠ .summon)
    (again : (s.port side).attempts < 2) :
    Ports s side (.answerWindowClose side seen)
      { s.port side with
        attempts := (s.port side).attempts + 1,
        exchange :=
          some { x with windowError := false, earlierError := x.earlierError || x.windowError || seen.isSome } } := by
  rw [← retried_window]
  refine retry_ports hx ?_
  unfold State.requestWindow
  split
  · exact absurd ‹_› hr
  · rw [areaWindow_eq, if_pos again]
  · rw [areaWindow_eq, if_pos again]

theorem summonWindow_eq (hr : x.request = .summon) (error : Bool) :
    s.requestWindow side x error = s.summonWindow side x error := by
  unfold State.requestWindow
  rw [hr]

/-- A SUMMON that finds silence in IDLE and DONE ends at once (R9, R22, log 38). -/
theorem summonWindow_silent (quiet : (s.port side).state = .idle ∨ (s.port side).state = .done ∧ x.earlierError = false)
    (hx : (s.port side).exchange = some x) (hr : x.request = .summon) (hw : x.windowError = false) :
    Ports s side (.answerWindowClose side none) { s.port side with state := .idle, exchange := none } := by
  obtain idle | ⟨done, first⟩ := quiet
  · refine ports_of (f := fun p => { p with exchange := none }) ?_ (by rw [← idle])
    rw [window_effect hx, summonWindow_eq hr, State.summonWindow, idle, hw]
    rfl
  · refine ports_of (f := fun p => { p with exchange := none, state := .idle }) ?_ rfl
    rw [window_effect hx, summonWindow_eq hr, State.summonWindow, done, hw]
    simp [first]

theorem retrySummon_ports {seen : Option AnswerError} {error : Bool} (hx : (s.port side).exchange = some x)
    (h : s.requestWindow side x (x.windowError || seen.isSome) = s.retrySummon side error) :
    Ports s side (.answerWindowClose side seen)
      (if (s.port side).attempts < 2 then (s.port side).retried x error else (s.port side).failExchange) := by
  rw [retrySummon_eq] at h
  split
  · rw [if_pos ‹_›] at h
    exact retry_ports hx h
  · rw [if_neg ‹_›] at h
    exact ports_of (by rw [window_effect hx, h]) rfl

/-- A damaged answer to a SUMMON in IDLE and DONE is a failed attempt (R8, R9). -/
theorem summonWindow_damaged {error : AnswerError} (hx : (s.port side).exchange = some x) (hr : x.request = .summon)
    (resting : (s.port side).state = .idle ∨ (s.port side).state = .done) :
    Ports s side (.answerWindowClose side (some error))
      (if (s.port side).attempts < 2 then (s.port side).retried x true else (s.port side).failExchange) := by
  refine retrySummon_ports hx ?_
  rw [summonWindow_eq hr, State.summonWindow]
  obtain h | h := resting <;> simp [h]

/-- In WAIT_AISLE every attempt counts, and the third without any answer ends the tap (R12). -/
theorem summonWindow_waiting (hr : x.request = .summon) (waiting : (s.port side).state = .waitAisle) (error : Bool) :
    s.requestWindow side x error =
      if (s.port side).attempts < 2 ∨ (x.earlierError || error) = true then s.retrySummon side error
      else (s.onPort side Port.failExchange).vanish side .idle := by
  have : (s.port side).attempts + 1 < 3 ↔ (s.port side).attempts < 2 := by omega
  rw [summonWindow_eq hr, State.summonWindow, waiting]
  simp only [Config.attempts, this]
  congr 1
  cases x.earlierError <;> cases error <;> simp

/-- The third silence of a WAIT_AISLE tap (R12, R21). -/
theorem summonWindow_gone {seen : Option AnswerError} (hx : (s.port side).exchange = some x)
    (hr : x.request = .summon) (waiting : (s.port side).state = .waitAisle) (last : 2 ≤ (s.port side).attempts)
    (silent : (x.earlierError || x.windowError || seen.isSome) = false) :
    ∃ t, exec (.answerWindowClose side seen) s = .next t ∧ t.port (otherSide side) = s.port (otherSide side) ∧
      TapGone s t side ∧
      t =
        { s with portU := t.portU, portP := t.portP, passage := t.passage, service := t.service, host := t.host } ∧
      t.passage = { s.passage with claim := s.passage.claim.setWait side false } ∧
      t.port side =
        { s.port side with
          state := if s.disabled side = true then .disabled else .idle,
          attempts := (s.port side).attempts + 1, exchange := none, deadline := .stopped, aisleWait := none,
          ctx := none } := by
  rw [Bool.or_assoc] at silent
  have effect := window_effect hx seen
  rw [summonWindow_waiting hr waiting, if_neg (by simp [silent]; omega)] at effect
  obtain ⟨gone, rest, passage, port, other⟩ := vanish_spec (s.onPort side Port.failExchange) side .idle
  refine ⟨_, effect, by rw [other, State.onPort_other], ?_, ?_, by rw [passage, State.onPort_passage], ?_⟩
  · cases side <;> exact { gone with }
  · generalize ((s.onPort side Port.failExchange).vanish side .idle).pump = t at rest
    rw [rest]
    cases side <;> rfl
  · rw [port, State.onPort_port, State.restState_eq]
    cases side <;> rfl

/-- A FETCH that fails while the tap is read (R13). -/
theorem fetchWindow_refused {seen : Option AnswerError} (hx : (s.port side).exchange = some x)
    (hr : x.request = .fetch area) (last : 2 ≤ (s.port side).attempts) (reading : (s.port side).state = .reading)
    (hc : (s.port side).ctx = some c) (own : c.side = side) (free : s.holdsNoEntry side c.card) :
    ∃ t, exec (.answerWindowClose side seen) s = .next t ∧
      Refused s t side .cardUnreadable c.card (c.image.map fun i => i.image.balance) := by
  have state : ((s.onPort side Port.failAttempt).port side).state = .reading := by rw [State.onPort_port]; exact reading
  refine ⟨_, window_effect hx seen, ?_⟩
  rw [fetchWindow_failed hr last, State.fetchFailed, state]
  have ctx : ((s.onPort side Port.failAttempt).port side).ctx = some c := by rw [State.onPort_port]; exact hc
  exact (refuse_plain (Tapped.of_onPort s side Port.failAttempt) (State.onPort_passage ..) (State.onPort_screening ..)
    ctx own free fun c' k _ hc' hk => by
      obtain rfl := Option.some.inj (hc.symm.trans hc')
      exact hk).refused

/-- A readback that fails leaves the tap IN_DOUBT (R17, R18). -/
theorem readbackWindow_inDoubt {seen : Option AnswerError} (hx : (s.port side).exchange = some x)
    (hr : x.request = .fetch area) (image : area ≠ .header) (last : 2 ≤ (s.port side).attempts)
    (confirming : (s.port side).state = .confirming) (hc : (s.port side).ctx = some c) :
    ∃ t, exec (.answerWindowClose side seen) s = .next t ∧ EndedInDoubt s t side c := by
  have state : ((s.onPort side Port.failAttempt).port side).state = .confirming := by
    rw [State.onPort_port]
    exact confirming
  refine ⟨_, window_effect hx seen, ?_⟩
  rw [fetchWindow_failed hr last, State.fetchFailed, state]
  simp only [if_neg image]
  exact (inDoubt_ended (f := Port.failAttempt) hc).1

end Sys2Proof.Machine
end

section
/-! The blocking write and the readback that differs: a clone finding that takes the place of a write, a void write, and
how a blocking write ends (R16 to R18, R20, R86). -/

namespace Sys2Proof.Machine

variable {s t u v w : State} {side : Side} {c : TapContext} {f g : Port → Port} {x : Exchange}

/-! ## A tap that goes on -/

/-- A command has ended with the tap going on: `w` is the part before the port was given its next exchange. -/
structure WentOn (s w t : State) (side : Side) (p : Port) (ms : List LinkMsg) (xs : List RecBody) : Prop where
  rest : t =
    { s with
      portU := t.portU, portP := t.portP, screening := t.screening, link := t.link, journal := t.journal,
      host := t.host }
  other : t.port (otherSide side) = s.port (otherSide side)
  port : t.port side = p
  link : t.link = s.link.withFrames ms
  formed : t.formed = s.formed ++ s.syncAnswers ms
  records : Journals s t xs
  shows : Shows s w t

theorem Screened.wentOn {ms : List LinkMsg} {xs : List RecBody} (h : Screened (s.onPort side g) w ms xs)
    (f : Port → Port) : WentOn s w (w.onPort side f).pump side (f (g (s.port side))) ms xs := by
  have ports : ∀ d, w.port d = (s.onPort side g).port d := fun d => by rw [h.rest]; rfl
  have tx : w.host.tx = s.host.tx := by rw [h.host, State.onPort_host]
  have silent : Silent w (w.onPort side f).pump := by
    refine Silent.of_pump ?_ ?_ ?_ ?_ ?_ ?_ ⟨?_, ?_⟩ ?_ ?_ <;> cases side <;> rfl
  refine { rest := ?_, other := ?_, port := ?_, link := ?_, formed := ?_, records := ?_,
           shows := ⟨?_, ?_, ?_, fun k hk => ?_, silent.finding, fun ht => silent.findings (by rwa [tx])⟩ }
  · rw [State.pump_rest]
    generalize (w.onPort side f).pump.host = host
    rw [h.rest]
    cases side <;> rfl
  · rw [State.pump_port, State.onPort_other, ports, State.onPort_other]
  · rw [State.pump_port, State.onPort_port, ports, State.onPort_port]
  · rw [State.pump_link, State.onPort_link, h.link, State.onPort_link]
  · rw [silent.formed, h.formed]
    cases side <;> rfl
  · refine h.records.of_onPort.congr ?_
    rw [State.pump_journal, State.onPort_journal]
  · rw [State.pump_screening, State.onPort_screening]
  · rw [State.pump_link, State.onPort_link]
  · rw [State.pump_journal, State.onPort_journal]
  · rw [State.pump_tells_eq]
    simpa [State.tells] using hk

theorem onPort_id (s : State) (side : Side) : s.onPort side id = s := by cases side <;> rfl

/-- The port with its verdict fixed and the blocked header sent (R20, R24). -/
def Port.blockingWrite (p : Port) (c : TapContext) (v : Verdict) : Port :=
  { p.asking .writing (.store .header c.blockedBytes) with
    deadline := .stopped, ctx := some { c with verdict := some v } }

theorem onPort_congr (h : f (s.port side) = g (s.port side)) : s.onPort side f = s.onPort side g := by
  cases side
  · exact congrArg (fun p => { s with portU := p }) h
  · exact congrArg (fun p => { s with portP := p }) h

theorem startBlock_eq (hc : (s.port side).ctx = some c) (v : Verdict) :
    s.startBlock side v = s.onPort side fun p => p.blockingWrite c v := by
  unfold State.startBlock
  rw [show s.ctx side = some c from hc]
  show (s.onPort side _).onPort side (fun p => p.asking .writing _) = _
  rw [onPort_onPort]
  refine onPort_congr ?_
  rw [hc]
  rfl

theorem blockedBytes_eq {h : Header} (hh : c.header = some h) :
    c.blockedBytes = ({ h with status := .blocked } : Header).bytes := by rw [TapContext.blockedBytes, hh]; rfl

theorem blocking_lit {p : Port} {v : Verdict} (h : t.port side = p.blockingWrite c v) : (t.lamps side).stop = true := by
  simp [State.lamps, h, Port.blockingWrite, Port.blocking]

/-! ## The part before a set-back may have been given records -/

/-- Between these the journal and its notices alone are others. -/
theorem CloneFound.congr {card : CardNo} {n : Nat} (h : CloneFound s t card n) (tx : s.host.tx = u.host.tx)
    (findings : s.host.findings = u.host.findings) (deny : s.screening.deny = u.screening.deny) :
    CloneFound u t card n where
  told := h.told
  finding := h.finding
  counted ht := by rw [← findings]; exact h.counted (by rwa [tx])
  frame := h.frame
  listed hl := h.listed (by simpa only [Screening.denied, Screening.localCount, deny] using hl)

theorem LateFound.congr {card : CardNo} {n : Nat} (h : LateFound s t card n) (tx : s.host.tx = u.host.tx)
    (findings : s.host.findings = u.host.findings) (screening : s.screening = u.screening) :
    LateFound u t card n where
  told := h.told
  finding := h.finding
  counted ht := by rw [← findings]; exact h.counted (by rwa [tx])
  frame := h.frame
  listed hl := h.listed (by rwa [screening])

theorem LateFound.shows {card : CardNo} {n : Nat} (h : LateFound s u card n) (k : Shows s u t) :
    LateFound s t card n where
  told := k.told _ h.told
  finding := k.finding.trans h.finding
  counted ht := (k.findings ht).trans (h.counted ht)
  frame := by rw [k.link]; exact h.frame
  listed hl := by rw [k.screening]; exact h.listed hl

theorem NoFinding.congr (h : NoFinding s t) (tx : s.host.tx = u.host.tx) (finding : s.host.finding = u.host.finding)
    (findings : s.host.findings = u.host.findings) (screening : s.screening = u.screening) : NoFinding u t where
  deny := h.deny.trans (by rw [screening])
  finding := h.finding.trans finding
  findings ht := (h.findings (by rwa [tx])).trans findings

theorem markSeen_of {e : Sighting} {p : PendingTap} (he : s.screening.sighted e.card = some e)
    (hp : e.state = .pendingLocal p) (hside : p.side = side) : s.markSeen side e.card = p.cloneMark := by
  rw [State.markSeen, heldBy_some he hp hside]
  rfl

/-! ## A void write (R18, R86) -/

section Void

variable {e : Sighting} {p : PendingTap}

/-- A clone mark found where a write is void: the entry is set back, the CLONE outcome and its blocking write follow
(R18, R83). -/
theorem switchToClone_spec (he : s.screening.sighted e.card = some e) (hp : e.state = .pendingLocal p)
    (hside : p.side = side) (hc : (s.port side).ctx = some c) :
    let t := (s.switchToClone side e.card).pump
    let fate := e.heldBack p
    WentOn s ((s.endUnwritten side e.card).cloneOutcome e.card) t side
        ((s.port side).blockingWrite { c with cloneSeen := true } (.refused .clone))
        (fate.frames e.card ++ [.denyAdd e.card])
        (s.link.dropRecords (fate.frames e.card) ++ fate.records e.card
          ++ (s.link.withFrames (fate.frames e.card)).dropRecords [.denyAdd e.card]) ∧
      CloneFound s t e.card (if fate.isLate = true then 2 else 1) ∧
      t.screening.sightings = (s.endUnwritten side e.card).screening.sightings := by
  obtain ⟨-, held⟩ := endUnwritten_spec he hp hside
  obtain ⟨outcome, sightings, -, findings, found⟩ := cloneOutcome_spec e.card (s.endUnwritten side e.card)
  have screened := held.screened.trans outcome
  rw [held.screened.link] at screened
  have cContext : (((s.endUnwritten side e.card).cloneOutcome e.card).port side).ctx = some c := by
    rw [screened.rest]
    exact hc
  have path : s.switchToClone side e.card = ((s.endUnwritten side e.card).cloneOutcome e.card).onPort side fun q =>
      q.blockingWrite { c with cloneSeen := true } (.refused .clone) := by
    unfold State.switchToClone
    rw [startBlock_eq (c := { c with cloneSeen := true }) (by rw [State.onCtx, State.onPort_port, cContext]; rfl),
      State.onCtx, onPort_onPort]
    rfl
  rw [path]
  have on : WentOn s _ _ side _ _ _ := (Screened.wentOn (side := side) (g := id) (by rw [onPort_id]; exact screened)
    fun q => q.blockingWrite { c with cloneSeen := true } (.refused .clone))
  refine ⟨on, ?_, by rw [on.shows.screening, sightings]⟩
  have tx : (s.endUnwritten side e.card).host.tx = s.host.tx := by rw [held.screened.host]
  refine CloneFound.shows ⟨found.told, found.finding, fun ht => ?_, found.frame, fun hl => found.listed ?_⟩ on.shows
  · rw [findings]
    by_cases late : (e.heldBack p).isLate = true
    · rw [if_pos late, (held.late late).2.2]
      omega
    · rw [if_neg late, (held.quiet (by simpa using late)).2.2]
  · by_cases late : (e.heldBack p).isLate = true
    · exact Or.inl ((held.late late).1.listed hl)
    · have deny := (held.quiet (by simpa using late)).1
      simpa only [Screening.denied, Screening.localCount, deny] using hl

/-- A refusal whose entry is set back with its held update (R42, R86, R88). -/
theorem refuse_setBack {reason : RefusalReason} (he : s.screening.sighted e.card = some e)
    (hp : e.state = .pendingLocal p) (hside : p.side = side) (hc : (s.port side).ctx = some c) (own : c.side = side)
    (hcard : c.card = some e.card) :
    let t := (s.refuse side reason).pump
    let fate := e.heldBack p
    Refused s t side reason c.card (c.image.map fun i => i.image.balance) (fate.frames e.card)
        (s.link.dropRecords (fate.frames e.card) ++ fate.records e.card) ∧
      (∃ order, t.screening.sighted e.card = fate.leaves e.card e.baseline p.prior s.time.now order) ∧
      (p.held = none ∨ s.screening.sightings.length ≤ 1024 →
        ∀ o, o ≠ e.card → t.screening.sighted o = s.screening.sighted o) ∧
      (fate.isLate = true → LateFound s t e.card 1) ∧ (fate.isLate = false → NoFinding s t) ∧
      t.passage = { s.passage with claim := t.passage.claim } := by
  have base := recordRefusal_rest s c reason
  have recorded := Tapped.of_recordRefusal (side := side) s c reason
  have hostFindings : (s.recordRefusal c reason).host.findings = s.host.findings ∧
      (s.recordRefusal c reason).host.finding = s.host.finding := by
    unfold State.recordRefusal
    split
    · exact ⟨rfl, rfl⟩
    · exact ⟨State.append_host_findings .., State.append_host_finding ..⟩
  have tx : (s.recordRefusal c reason).host.tx = s.host.tx := by rw [recorded.host]
  have ends := fun hb => refuse_ends (reason := reason) (ns := (e.heldBack p).frames e.card)
    (more := s.link.dropRecords ((e.heldBack p).frames e.card) ++ (e.heldBack p).records e.card) (Tapped.refl s) hc hb
  simp only [State.beforeRefusal] at ends
  generalize s.recordRefusal c reason = a at base ends hostFindings tx
  have screening : a.screening = s.screening := by rw [base]
  have link : a.link = s.link := by rw [base]
  obtain ⟨took, held⟩ := endUnwritten_spec (s := a) (by rw [screening]; exact he) hp hside
  have setBack : a.endUnwrittenTap side c = a.endUnwritten side e.card := by rw [State.endUnwrittenTap, hcard]
  rw [setBack] at ends
  have screened := held.screened
  rw [link] at screened
  have ends := ends (Tapped.of_screened screened)
  have released := released_releaseTap (a.endUnwritten side e.card) side
  have shows := ends.shows (releaseTap_holdStop_rest (a.endUnwritten side e.card) side)
  have ctx : ((a.endUnwritten side e.card).port side).ctx = some c := by
    rw [screened.rest, base]
    exact hc
  have passage : (a.endUnwritten side e.card).passage = s.passage := by rw [screened.rest, base]
  have clock : ((a.endUnwritten side e.card).releaseTap side).clock = s.clock := by
    rw [released.rest, screened.rest, base]
  have time : a.time.now = s.time.now := by rw [base]
  simp only
  refine ⟨ends.refused own (by rw [holdStop_hold, clock]) fun c' k _ hc' hk hu hpw => ?_, ?_, fun room o ho => ?_,
    fun late => ?_, fun quiet => ?_, ?_⟩
  · obtain rfl := Option.some.inj (hc.symm.trans hc')
    rw [holdStop_passage]
    exact released.freed _ k ctx hk (by rw [passage]; exact Claim.waits_of hu hpw)
  · rw [shows.screening, ← time]
    exact took.entry
  · rw [shows.screening, took.others (by rwa [screening]) o ho, screening]
  · exact ((took.late late).congr tx hostFindings.1 screening).shows shows
  · exact ((took.quiet quiet).congr tx hostFindings.2 hostFindings.1 screening).shows shows
  · rw [ends.rest]
    show (State.holdStop side _).passage = _
    rw [holdStop_passage, released.passage, passage]

end Void

end Sys2Proof.Machine
end

section
/-! What a CONFIRMING port does with an area, and the exchanges of a tap as one statement (R8, R16 to R18, R20). -/

namespace Sys2Proof.Machine

variable {s t v : State} {side : Side} {c : TapContext} {f : Port → Port} {x : Exchange} {card : CardNo} {h : Header}
  {i : ImageRead} {d : Decision} {img : Image} {content : List Byte}

/-! ## The readback of an image (R17, R18) -/

theorem ImageSlot.area_ne_header (k : ImageSlot) : k.area ≠ .header := by cases k <;> exact nofun

theorem ImageSlot.area_ne_other (k : ImageSlot) : k.area ≠ k.other.area := by cases k <;> exact nofun

theorem areaSize_image (k : ImageSlot) : areaSize k.area = 40 := by cases k <;> rfl

/-- A tap that reads back has all it needs. -/
structure TapContext.Wrote (c : TapContext) (card : CardNo) (h : Header) (i : ImageRead) (d : Decision) (img : Image) :
    Prop where
  card : c.card = some card
  header : c.header = some h
  image : c.image = some i
  decision : c.decision = some d
  newImage : c.newImage = some img

theorem readback_effect (hx : (s.port side).exchange = some x) (confirming : (s.port side).state = .confirming)
    (hc : (s.port side).ctx = some c) (w : c.Wrote card h i d img) (k : ImageSlot) (hr : x.request = .fetch k.area)
    (size : content.length = 40) :
    exec (.fetchAnswer side k.area content) s = .next (s.imageReadback side c card i d img k.area content).pump := by
  rw [fetch_effect hx hr (by rw [size, areaSize_image])]
  unfold State.fetched
  rw [show s.ctx side = some c from hc]
  simp only [confirming, State.confirmingAnswer, w.card, w.image, w.decision, w.newImage]
  cases k <;> rfl

/-- A readback that differs leads to a look at the old area. -/
theorem readback_differs (hx : (s.port side).exchange = some x) (confirming : (s.port side).state = .confirming)
    (hc : (s.port side).ctx = some c) (w : c.Wrote card h i d img) (hr : x.request = .fetch i.slot.other.area)
    (size : content.length = 40) (differs : content ≠ img.bytes) :
    Ports s side (.fetchAnswer side i.slot.other.area content)
      ((s.port side).asking .confirming (.fetch i.slot.area)) := by
  refine ports_of (f := fun p => p.asking .confirming (.fetch i.slot.area)) ?_ rfl
  rw [readback_effect hx confirming hc w _ hr size, State.imageReadback, if_pos rfl, if_neg differs]
  rfl

/-- The old area, the first time as it was: the STORE is sent again. -/
theorem oldArea_storesAgain (hx : (s.port side).exchange = some x) (confirming : (s.port side).state = .confirming)
    (hc : (s.port side).ctx = some c) (w : c.Wrote card h i d img) (hr : x.request = .fetch i.slot.area)
    (size : content.length = 40) (same : c.areaBytes i.slot = some content) (first : c.storeRetried = false) :
    Ports s side (.fetchAnswer side i.slot.area content)
      { (s.port side).asking .writing (.store i.slot.other.area img.bytes) with
        ctx := some { c with storeRetried := true } } := by
  refine ports_of (f := fun p =>
    ({ p with ctx := p.ctx.map fun x => { x with storeRetried := true } } : Port).asking .writing
      (.store i.slot.other.area img.bytes)) ?_ (by rw [hc]; rfl)
  rw [readback_effect hx confirming hc w _ hr size, State.imageReadback, if_neg (ImageSlot.area_ne_other _),
    if_pos ⟨same, first⟩]
  show done ((s.onPort side _).onPort side fun p => p.asking .writing (.store i.slot.other.area img.bytes)) = _
  rw [onPort_onPort]
  rfl

/-- The old area, changed or looked at before: the write is void. -/
theorem oldArea_void (hx : (s.port side).exchange = some x) (confirming : (s.port side).state = .confirming)
    (hc : (s.port side).ctx = some c) (w : c.Wrote card h i d img) (hr : x.request = .fetch i.slot.area)
    (size : content.length = 40) (void : c.areaBytes i.slot ≠ some content ∨ c.storeRetried = true) :
    exec (.fetchAnswer side i.slot.area content) s = .next (s.voidWrite side card).pump := by
  rw [readback_effect hx confirming hc w _ hr size, State.imageReadback, if_neg (ImageSlot.area_ne_other _),
    if_neg fun ⟨same, first⟩ => void.elim (fun h => h same) fun h => by rw [first] at h; cases h]

/-! ## The end of a blocking write (R20) -/

/-- The two ways a blocking write ends: its header read back, or the third window of that readback. -/
def Blocked (s : State) (side : Side) (h : Header) (command : Instr) (confirmed : Bool) : Prop :=
  (∃ content, content.length = 8 ∧ command = Instr.fetchAnswer side .header content ∧
      confirmed = decide (content = ({ h with status := .blocked } : Header).bytes)) ∨
    (∃ seen, 2 ≤ (s.port side).attempts ∧ command = .answerWindowClose side seen ∧ confirmed = false)

theorem blocked_effect {command : Instr} {confirmed : Bool} (hx : (s.port side).exchange = some x)
    (hr : x.request = .fetch .header) (confirming : (s.port side).state = .confirming)
    (hc : (s.port side).ctx = some c) (hh : c.header = some h) (ended : Blocked s side h command confirmed) :
    ∃ f : Port → Port, (∀ p, (f p).ctx = p.ctx) ∧
      exec command s = .next ((s.onPort side f).endBlock side confirmed).pump := by
  obtain ⟨content, size, rfl, rfl⟩ | ⟨seen, last, rfl, rfl⟩ := ended
  · refine ⟨id, fun _ => rfl, ?_⟩
    rw [onPort_id, fetch_effect hx hr size]
    unfold State.fetched
    rw [show s.ctx side = some c from hc]
    simp only [confirming, State.confirmingAnswer, blockedBytes_eq hh, beq_eq_decide]
  · refine ⟨Port.failAttempt, fun _ => rfl, ?_⟩
    have state : ((s.onPort side Port.failAttempt).port side).state = .confirming := by
      rw [State.onPort_port]
      exact confirming
    rw [window_effect hx, fetchWindow_failed hr last, State.fetchFailed, state]
    rfl

/-- A blocking write ends: the part with its CARD_BLOCKED record. -/
theorem blockedRecord_tapped (s : State) (side : Side) (f : Port → Port) (b : RecBody) :
    Tapped side s ((s.onPort side f).append b) [] [b] := (Tapped.of_onPort s side f).trans (Tapped.of_append _ b)

/-- The end of a blocking write after a commit (R17, R20). -/
theorem endBlock_committed {confirmed : Bool} (hf : (f (s.port side)).ctx = some c)
    (verdict : c.verdict = some .committedClone) :
    ∃ u, u.screening = s.screening ∧ u.passage = s.passage ∧ (u.port side).stopHold = some (s.clock + 2000) ∧
      EndsTap s u ((s.onPort side f).endBlock side confirmed).pump side c.cloneResult []
        [c.blockedRecord .committedClone confirmed] := by
  have path : (s.onPort side f).endBlock side confirmed =
      ((((s.onPort side f).append (c.blockedRecord .committedClone confirmed)).holdStop side).giveResult side
        c.cloneResult).closeTap side .done := by
    unfold State.endBlock
    rw [show (s.onPort side f).ctx side = some c by rw [State.ctx, State.onPort_port, hf]]
    simp only [verdict, Option.getD_some, holdStop_giveResult]
  rw [path]
  refine ⟨_, ?_, ?_, ?_, (blockedRecord_tapped s side f _).holdStop.ends c.cloneResult⟩
  · rw [State.holdStop, State.onPort_screening, State.append_screening, State.onPort_screening]
  · rw [holdStop_passage, State.append_passage, State.onPort_passage]
  · rw [holdStop_hold, State.append_clock, State.onPort_clock]

/-- The end of a blocking write in place of a tap's write (R18, R20, R33). -/
theorem endBlock_refused {confirmed : Bool} {reason : RefusalReason} (hf : (f (s.port side)).ctx = some c)
    (verdict : c.verdict = some (.refused reason)) (free : s.holdsNoEntry side c.card) :
    ∃ u, u.screening = s.screening ∧ u.passage.credits = s.passage.credits ∧
      (u.port side).stopHold = some (s.clock + 2000) ∧
      EndsTap s u ((s.onPort side f).endBlock side confirmed).pump side (c.refusalResult reason) []
        (c.blockedRecord (.refused reason) confirmed ::
          if reason = .journalFull then [] else [c.refusalRecord reason]) := by
  have path : (s.onPort side f).endBlock side confirmed =
      ((s.onPort side f).append (c.blockedRecord (.refused reason) confirmed)).refuse side reason := by
    unfold State.endBlock
    rw [show (s.onPort side f).ctx side = some c by rw [State.ctx, State.onPort_port, hf]]
    simp only [verdict, Option.getD_some]
  have tapped := blockedRecord_tapped s side f (c.blockedRecord (.refused reason) confirmed)
  rw [path]
  generalize hv : (s.onPort side f).append (c.blockedRecord (.refused reason) confirmed) = v at tapped
  have screening : v.screening = s.screening := by rw [← hv, State.append_screening, State.onPort_screening]
  have passage : v.passage = s.passage := by rw [← hv, State.append_passage, State.onPort_passage]
  have clock : v.clock = s.clock := by rw [← hv, State.append_clock, State.onPort_clock]
  have ctx : (v.port side).ctx = some c := by
    rw [← hv, (Screened.of_append _ _).rest]
    exact (congrArg Port.ctx (State.onPort_port ..)).trans hf
  have base := recordRefusal_rest v c reason
  have noEntry : (v.recordRefusal c reason).endUnwrittenTap side c = v.recordRefusal c reason :=
    endUnwrittenTap_without (by rw [base]; intro card hcard; rw [screening]; exact free card hcard)
  have ends := refuse_ends (reason := reason) tapped ctx (by rw [noEntry]; exact Tapped.refl _)
  simp only [State.beforeRefusal, noEntry, List.append_nil, List.singleton_append] at ends
  have released := released_releaseTap (v.recordRefusal c reason) side
  refine ⟨_, ?_, ?_, ?_, ends⟩
  · rw [State.holdStop, State.onPort_screening, released.rest, base]
    exact screening
  · rw [holdStop_passage, released.passage, base]
    show v.passage.credits = _
    rw [passage]
  · rw [holdStop_hold, released.rest, base]
    exact congrArg (fun n => some (n + 2000)) clock

/-! ## Every exchange -/

/-- Settles O42: each command of an exchange by the request in flight, the port's state and the attempt count. -/
theorem exchangesStartAreRetriedAndEnd : Obligations.ExchangesStartAreRetriedAndEnd := by
  intro s side
  refine ⟨poll_ports s side, fun none_ card collided area content seen command hc => ?_,
    fun x command hx misfit => misfit_ports hx misfit,
    fun x area bytes hx hr => ⟨store_ports hx hr, fun seen last => storeWindow_ports hx hr last⟩,
    fun x seen hx hr again => areaWindow_retried hx hr again,
    fun x area seen c hx hr last reading hc own free => fetchWindow_refused hx hr last reading hc own free,
    fun x hx hr quiet resting => summonWindow_silent resting hx hr quiet,
    fun x error hx hr resting => ?_, fun x seen hx hr waiting => ?_,
    fun x c confirming hx hc own => ⟨fun area seen hr image last =>
      readbackWindow_inDoubt hx hr image last confirming hc,
      fun card h i d img content hcard hh hi hd himg size => ?_,
      fun h v command confirmed hh hv hr ended => ⟨?_, fun reason hreason block free => ?_⟩⟩⟩
  · exact ⟨_, discarded none_ hc, done_unchanged s⟩
  · obtain ⟨t, effect, told, rest, other, port⟩ := summonWindow_damaged (error := error) hx hr resting
    refine ⟨t, effect, told, rest, other, port.trans ?_⟩
    split <;> simp [Port.retried, Port.failExchange, Port.failAttempt]
  · by_cases again : (s.port side).attempts < 2
    · obtain ⟨t, effect, told, rest, other, port⟩ := retry_ports (seen := seen) hx
        (by rw [summonWindow_waiting hr waiting, if_pos (Or.inl again), retrySummon_eq, if_pos again])
      rw [retried_window] at port
      exact ⟨t, effect, other, fun _ => ⟨told, rest, port⟩, fun last => absurd again (by omega)⟩
    · cases answered : (x.earlierError || x.windowError || seen.isSome) with
      | true =>
        obtain ⟨t, effect, told, rest, other, port⟩ := retrySummon_ports (seen := seen) hx
          (by rw [summonWindow_waiting hr waiting, if_pos (Or.inr (by rw [← Bool.or_assoc, answered]))])
        rw [if_neg again] at port
        exact ⟨t, effect, other, fun h => absurd h again, fun _ => ⟨fun _ => ⟨told, rest, port⟩, nofun⟩⟩
      | false =>
        obtain ⟨t, effect, other, gone⟩ := summonWindow_gone hx hr waiting (by omega) answered
        exact ⟨t, effect, other, fun h => absurd h again, fun _ => ⟨nofun, fun _ => gone⟩⟩
  · have w : c.Wrote card h i d img := ⟨hcard, hh, hi, hd, himg⟩
    refine ⟨fun hr differs => readback_differs hx confirming hc w hr size differs,
      fun hr => ⟨fun same first => oldArea_storesAgain hx confirming hc w hr size same first,
        fun void e p fate he hp hside hfate => ⟨_, oldArea_void hx confirming hc w hr size void, ?_⟩⟩⟩
    obtain rfl := (Screening.sighted_some he).2
    subst hfate
    have seen := markSeen_of he hp hside
    obtain ⟨took, -⟩ := endUnwritten_spec he hp hside
    cases mark : p.cloneMark with
    | false =>
      rw [State.voidWrite, seen, mark, if_neg (by simp)]
      obtain ⟨refused, entry, others, late, quiet, passage⟩ :=
        refuse_setBack (reason := .writeFailed) he hp hside hc own hcard
      rw [hcard, hi] at refused
      exact ⟨entry, others, fun _ => ⟨refused, late, quiet, by rw [passage]⟩, nofun⟩
    | true =>
      rw [State.voidWrite, seen, mark, if_pos rfl]
      obtain ⟨on, found, sightings⟩ := switchToClone_spec he hp hside hc
      have sighted : ∀ o, ((s.switchToClone side e.card).pump).screening.sighted o =
          (s.endUnwritten side e.card).screening.sighted o := fun o => by
        rw [Screening.sighted, sightings, Screening.sighted]
      refine ⟨?_, fun room o ho => (sighted o).trans (took.others room o ho), nofun, fun _ => ?_⟩
      · rw [sighted]
        exact took.entry
      · have port := on.port
        rw [Port.blockingWrite, blockedBytes_eq (c := { c with cloneSeen := true }) hh] at port
        exact ⟨found, on.link, on.formed, on.records, by rw [on.rest], by rw [on.rest], blocking_lit on.port, port⟩
  · rintro rfl
    obtain ⟨f, hf, effect⟩ := blocked_effect hx hr confirming hc hh ended
    obtain ⟨u, screening, passage, hold, ends⟩ :=
      endBlock_committed (f := f) (confirmed := confirmed) ((hf _).trans hc) hv
    have records := ends.records
    rw [TapContext.blockedRecord, own] at records
    refine ⟨_, effect, ends.toTapClosed, by rw [ends.port]; exact hold, ?_, ?_, records⟩
    · rw [ends.rest]
      exact screening
    · rw [ends.rest]
      exact congrArg Passage.credits passage
  · obtain ⟨f, hf, effect⟩ := blocked_effect hx hr confirming hc hh ended
    obtain ⟨u, screening, credits, hold, ends⟩ :=
      endBlock_refused (f := f) (confirmed := confirmed) ((hf _).trans hc) (hv.trans (by rw [hreason])) free
    have notFull : reason ≠ .journalFull := by obtain rfl | rfl := block <;> exact nofun
    have why : (Verdict.refused reason).blockReason = if reason = .denied then .denied else .clone := by
      obtain rfl | rfl := block <;> rfl
    have records := ends.records
    rw [if_neg notFull, TapContext.blockedRecord, TapContext.refusalRecord, own, why] at records
    refine ⟨_, effect, ends.toTapClosed, by rw [ends.port]; exact hold, ?_, ?_, records⟩
    · rw [ends.rest]
      exact screening
    · rw [ends.rest]
      exact credits

end Sys2Proof.Machine
end

section
/-! Check 10, said once for each verdict (R79 to R82), and the last area of a tap as it leads to the checks (R13, R14,
R28). -/

namespace Sys2Proof.Machine

variable {s t k w : State} {side : Side} {c : TapContext} {card : CardNo} {h : Header} {i : ImageRead} {e : Sighting}
  {content : List Byte} {records : List RecBody} {prior : Option Standing}

/-! ## CLEAR (R79, R82) -/

/-- The part as check 10 finds the card clear: these records have been made, and the entry of the card may be gone. -/
structure Noted (s k : State) (card : CardNo) (records : List RecBody) : Prop where
  screened : Screened s k [] records
  deny : k.screening.deny = s.screening.deny
  finding : k.host.finding = s.host.finding
  findings : k.host.findings = s.host.findings
  quiet : records = [] → k.host = s.host
  others : ∀ o, o ≠ card → k.screening.sighted o = s.screening.sighted o
  length : k.screening.sightings.length ≤ s.screening.sightings.length
  kept : s.screening.sighted card = none → k.screening.sightings.length = s.screening.sightings.length

theorem Screened.onScreening {ms : List LinkMsg} {xs : List RecBody} (h : Screened s k ms xs)
    (f : Screening → Screening) : Screened s (k.onScreening f) ms xs := by
  simpa only [List.append_nil] using h.trans (Screened.of_screening k f)

theorem Noted.refl (s : State) (card : CardNo) : Noted s s card [] :=
  ⟨Screened.refl s, rfl, rfl, rfl, fun _ => rfl, fun _ _ => rfl, le_rfl, fun _ => rfl⟩

theorem Noted.of_append (s : State) (card : CardNo) (b : RecBody) : Noted s (s.append b) card [b] :=
  ⟨Screened.of_append s b, by simp, by simp, by simp, nofun, fun _ _ => by simp, by simp, fun _ => by simp⟩

theorem Noted.drop (h : Noted s k card records) (he : s.screening.sighted card = some e)
    (same : k.screening.sighted card = s.screening.sighted card) : Noted s (k.dropSighting card) card records where
  screened := h.screened.onScreening _
  deny := h.deny
  finding := h.finding
  findings := h.findings
  quiet := h.quiet
  others o ho := by rw [dropSighting_sighted_eq, if_neg ho, h.others o ho]
  length := (removeSighting_length (same.trans he)).le.trans h.length
  kept hn := by rw [hn] at he; cases he

/-- Check 10 has found the card CLEAR: a tap at this side holds its entry, with no STORE sent (R79, R82). -/
structure Cleared (s w : State) (side : Side) (card : CardNo) (img : SImage) (prior : Option Standing)
    (records : List RecBody) : Prop where
  noted : Screened s w [] records
  deny : w.screening.deny = s.screening.deny
  finding : w.host.finding = s.host.finding
  findings : w.host.findings = s.host.findings
  quiet : records = [] → w.host = s.host
  entry : ∃ e, w.screening.sighted card = some e ∧ e.card = card ∧ e.baseline = img ∧
    e.state = .pendingLocal (.fresh side prior) ∧ (prior = none → e.updated = s.time.now) ∧
    ∀ x, s.screening.sighted card = some x → prior ≠ none → e.updated = x.updated
  others : s.screening.sightings.length < 1024 → ∀ o, o ≠ card → w.screening.sighted o = s.screening.sighted o
  longer : s.screening.sighted card = none → s.screening.sightings.length < 1024 →
    w.screening.sightings.length = s.screening.sightings.length + 1

/-- A new entry. -/
theorem Noted.inserted {img : SImage} (h : Noted s k card records) (hn : k.screening.sighted card = none) :
    Cleared s (k.insertSighting card img (.pendingLocal (.fresh side none))) side card img none records where
  noted := h.screened.onScreening _
  deny := h.deny
  finding := h.finding
  findings := h.findings
  quiet := h.quiet
  entry := by
    refine ⟨_, insertSighting_self card img _ k hn, rfl, rfl, rfl, fun _ => ?_, fun _ _ hp => absurd rfl hp⟩
    rw [h.screened.rest]
  others room o ho := by
    rw [insertSighting_sighted card img _ k hn (h.length.trans_lt room), if_neg ho, h.others o ho]
  longer hs room := by
    have same : evict k.screening.sightings = k.screening.sightings :=
      if_neg (by simp only [Config.sightingCap]; have := h.length; omega)
    show (evict k.screening.sightings ++ [_]).length = _
    rw [same, List.length_append, h.kept hs, List.length_singleton]

/-- The entry that stood, held at the image read. -/
theorem Noted.held {img : SImage} {st : Standing} (h : Noted s k card records)
    (he : s.screening.sighted card = some e) (same : k.screening.sighted card = s.screening.sighted card) :
    Cleared s (k.putSighting { e with baseline := img, state := .pendingLocal (.fresh side (some st)) }) side card img
      (some st) records where
  noted := h.screened.onScreening _
  deny := h.deny
  finding := h.finding
  findings := h.findings
  quiet := h.quiet
  entry := by
    obtain rfl := (Screening.sighted_some he).2
    refine ⟨_, putSighting_self (e := { e with baseline := img, state := .pendingLocal (.fresh side (some st)) })
      (same.trans he), rfl, rfl, rfl, nofun, fun x hx _ => ?_⟩
    obtain rfl := Option.some.inj (he.symm.trans hx)
    rfl
  others _ o ho := by
    obtain rfl := (Screening.sighted_some he).2
    exact (putSighting_other { e with baseline := img, state := .pendingLocal (.fresh side (some st)) } k ho).trans
      (h.others o ho)
  longer hn := by rw [hn] at he; cases he

theorem Noted.heldBase {st : Standing} (h : Noted s k card records) (he : s.screening.sighted card = some e)
    (same : k.screening.sighted card = s.screening.sighted card) :
    Cleared s (k.putSighting { e with state := .pendingLocal (.fresh side (some st)) }) side card e.baseline
      (some st) records := h.held he same

theorem screen_committed {st : Standing} {balance : Int} {img : SImage} (he : s.screening.sighted card = some e)
    (hst : e.state = .committed st) :
    s.screen side card balance img = s.screenCommitted side img e st := by
  unfold State.screen
  rw [he]
  simp only [hst]

theorem screen_inDoubt {stored : SImage} {serial : Nat} {balance : Int} {img : SImage}
    (he : s.screening.sighted card = some e) (hst : e.state = .inDoubt stored serial) :
    s.screen side card balance img = s.screenInDoubt side balance img e stored serial := by
  unfold State.screen
  rw [he]
  simp only [hst]

theorem lapsedFor_false {st : Standing} {now : Nat} (h : ∀ m, st.lapse = some m → m.side = side → m.deadline < now) :
    st.lapsedFor side now = false := by
  unfold Standing.lapsedFor
  cases hl : st.lapse with
  | none => rfl
  | some m =>
    by_cases hs : m.side = side
    · have := h m hl hs
      simp [LapseMark.live, hs, this]
    · simp [hs]

theorem screen_clears (hc : s.Clears side card i prior records) :
    ∃ w, s.screen side card i.image.balance i.image.seen = (w, .clear) ∧
      Cleared s w side card i.image.seen prior records := by
  obtain ⟨hn, rfl, rfl⟩ | ⟨e, he, known⟩ := hc
  · refine ⟨_, ?_, (Noted.refl s card).inserted hn⟩
    unfold State.screen
    rw [hn]
    rfl
  · obtain rfl := (Screening.sighted_some he).2
    obtain ⟨st, hst, newer, rfl, rfl⟩ | ⟨st, hst, same, unlapsed, rfl, rfl⟩ | ⟨stored, serial, hst, doubt⟩ := known
    · refine ⟨_, ?_, (Noted.refl s e.card).held he rfl⟩
      rw [screen_committed he hst, State.screenCommitted, if_pos (show e.baseline.txc < i.image.seen.txc from newer)]
    · refine ⟨_, ?_, same ▸ (Noted.refl s e.card).heldBase he rfl⟩
      rw [screen_committed he hst, State.screenCommitted, if_neg (by rw [same]; omega), if_pos same,
        lapsedFor_false unlapsed, if_neg Bool.false_ne_true, same]
    · rw [screen_inDoubt he hst]
      unfold State.screenInDoubt
      obtain ⟨same, rfl, rfl⟩ | ⟨base, unstored, newer, rfl, rfl⟩ := doubt
      · refine ⟨_, if_pos same, ?_⟩
        rw [same]
        exact (Noted.of_append s e.card _).heldBase he (by simp)
      · refine ⟨_, ?_, ((Noted.of_append s e.card _).drop he (by simp)).inserted (dropSighting_sighted e.card _)⟩
        rw [if_neg base, if_neg unstored, if_pos (show e.baseline.txc < i.image.seen.txc from newer)]
        rfl

/-! ## CLONE (R79, R81, R82) -/

/-- Check 10 has found a clone: the CLONE outcome, and a mark on an entry that another tap holds. -/
structure Flagged (s w : State) (card : CardNo) (e : Sighting) : Prop where
  screened : Screened s w [.denyAdd card] (s.link.dropRecords [.denyAdd card])
  found : CloneFound s w card
  others : ∀ o, o ≠ card → w.screening.sighted o = s.screening.sighted o
  marked : ∀ p, e.state = .pendingLocal p →
    w.screening.sighted card = some { e with state := .pendingLocal { p with cloneMark := true } }
  kept : (∀ p, e.state ≠ .pendingLocal p) → w.screening.sighted card = some e

theorem flagged_cloneOutcome (he : s.screening.sighted card = some e) (hp : ∀ p, e.state ≠ .pendingLocal p) :
    Flagged s (s.cloneOutcome card) card e := by
  obtain ⟨screened, sightings, -, -, found⟩ := cloneOutcome_spec card s
  have sighted : ∀ o, (s.cloneOutcome card).screening.sighted o = s.screening.sighted o := fun o => by
    rw [Screening.sighted, sightings, Screening.sighted]
  exact ⟨screened, found, fun o _ => sighted o, fun p h => absurd h (hp p), fun _ => (sighted card).trans he⟩

theorem screen_cloned {balance : Int} {img : SImage} (he : s.screening.sighted card = some e) (hc : e.Cloned img) :
    ∃ w, s.screen side card balance img = (w, .clone) ∧ Flagged s w card e := by
  have hcard := (Screening.sighted_some he).2
  obtain ⟨st, hst, differs, older⟩ | ⟨p, hst⟩ | ⟨stored, serial, hst, base, unstored, older⟩ := hc
  · refine ⟨_, ?_, flagged_cloneOutcome he fun p h => by rw [hst] at h; cases h⟩
    rw [screen_committed he hst, State.screenCommitted, if_neg (by omega), if_neg differs, hcard]
  · subst hcard
    let x : Sighting := { e with state := .pendingLocal { p with cloneMark := true } }
    obtain ⟨screened, sightings, -, -, found⟩ := cloneOutcome_spec e.card (s.putSighting x)
    have sighted : ∀ o, ((s.putSighting x).cloneOutcome e.card).screening.sighted o =
        (s.putSighting x).screening.sighted o := fun o => by rw [Screening.sighted, sightings, Screening.sighted]
    refine ⟨(s.putSighting x).cloneOutcome e.card, ?_, ?_, ?_, fun o ho => ?_, fun q hq => ?_, fun hp => ?_⟩
    · unfold State.screen
      rw [he]
      simp only [hst]
      rfl
    · exact (Screened.of_screening s _).trans screened
    · exact found.congr rfl rfl rfl
    · rw [sighted, putSighting_other x s ho]
    · rw [hst] at hq
      obtain rfl := SightState.pendingLocal.inj hq
      exact (sighted _).trans (putSighting_self (e := x) he)
    · exact absurd hst (hp p)
  · refine ⟨_, ?_, flagged_cloneOutcome he fun p h => by rw [hst] at h; cases h⟩
    rw [screen_inDoubt he hst, State.screenInDoubt, if_neg base, if_neg unstored, if_neg (by omega), hcard]

/-! ## The last area of a tap (R13, R14, R28, R32) -/

/-- The port as the checks find it: the tap time taken. -/
def Port.judged (p : Port) (c : TapContext) (area : AreaRead) (now : Nat) : Port :=
  { p with
    state := .screening, exchange := none, ctx := some { c with areaB := some area, tapTime := some now } }

/-- The part as checks 5 to 11 find it. -/
def State.judged (s : State) (side : Side) (c : TapContext) (card : CardNo) (content : List Byte) : State :=
  s.onPort side fun p => p.judged c (s.service.readArea card content) s.time.now

theorem reading_effect {x : Exchange} {area : Area} (hx : (s.port side).exchange = some x)
    (reading : (s.port side).state = .reading) (hc : (s.port side).ctx = some c) (hr : x.request = .fetch area)
    (size : content.length = areaSize area) :
    exec (.fetchAnswer side area content) s = .next (s.readingAnswer side c area content).pump := by
  rw [fetch_effect hx hr size]
  unfold State.fetched
  rw [show s.ctx side = some c from hc]
  simp only [reading]

theorem lastArea_effect {x : Exchange} (hx : (s.port side).exchange = some x) (reading : (s.port side).state = .reading)
    (hc : (s.port side).ctx = some c) (hcard : c.card = some card) (hh : c.header = some h)
    (hr : x.request = .fetch .imageB) (size : content.length = 40) :
    exec (.fetchAnswer side .imageB content) s = .next
      ((s.headerRefusal h s.time.now).elim
        ((s.judged side c card content).checkDeny side { c with areaB := some (s.service.readArea card content) } card
          s.time.now)
        fun reason => (s.judged side c card content).refuse side reason).pump := by
  have port : ((s.onCtx side fun x => { x with areaB := some (s.service.readArea card content) }).onPort side fun p =>
      { p with state := .screening, exchange := none }).onCtx side (fun x => { x with tapTime := some s.time.now }) =
      s.judged side c card content := by
    unfold State.onCtx State.judged
    rw [onPort_onPort, onPort_onPort]
    refine onPort_congr ?_
    simp only [hc, Option.map_some]
    rfl
  have refusal : (s.judged side c card content).headerRefusal h s.time.now = s.headerRefusal h s.time.now := by
    simp [State.headerRefusal, State.judged]
  rw [reading_effect hx reading hc hr size]
  unfold State.readingAnswer
  simp only [hcard, hh]
  simp only [State.screenTap, State.onCtx, State.onPort_time] at port ⊢
  rw [port, refusal]
  cases s.headerRefusal h s.time.now <;> rfl

theorem ReachesCheckTen.effect (r : s.ReachesCheckTen side c card h i content) :
    exec (.fetchAnswer side .imageB content) s = .next
      ((s.judged side c card content).checkSighting side { c with areaB := some (s.service.readArea card content) } card
        i s.time.now).pump := by
  obtain ⟨reading, ⟨x, hx, hr⟩, hc, ⟨-, hcard, hh⟩, size, ⟨active, valid, unexpired⟩, deny, image⟩ := r
  have accepted : s.headerRefusal h s.time.now = none := by
    unfold State.headerRefusal
    rw [if_neg (by simp [active]), if_neg (by simp [valid]), if_neg (by omega)]
  have undenied : (s.judged side c card content).screening.denied card = none := by
    rw [State.judged, State.onPort_screening, deny]
  rw [lastArea_effect hx reading hc hcard hh hr size, accepted, Option.elim_none, State.checkDeny, undenied]
  simp only [State.checkImage, Option.bind_some, image]

/-- What follows check 10, by its verdict. -/
def State.afterScreening (side : Side) (c : TapContext) (card : CardNo) (i : ImageRead) (now : Nat) (r : ScreenResult)
    (t : State) : State :=
  match r with
  | .clone => t.startBlock side (.refused .clone)
  | .regrant => t.succeed side c .regrant (some .regrant)
  | .recovered => t.succeed side c .recovered (some .recovered)
  | .clear => t.checkJourney side c card i now

/-- Check 10 by its verdict; the context takes it and the image read. -/
theorem checkSighting_eq {r : ScreenResult} {now : Nat}
    (hw : s.screen side card i.image.balance i.image.seen = (w, r)) :
    s.checkSighting side c card i now =
      (w.onCtx side fun x => { x with image := some i, screening := some r }).afterScreening side
        { c with image := some i } card i now r := by
  unfold State.checkSighting
  rw [hw]
  rfl

end Sys2Proof.Machine
end

section
/-! A tap that passes every check stores its new image (R6, R16, R84). -/

namespace Sys2Proof.Machine

variable {s t v w : State} {side : Side} {c : TapContext} {card : CardNo} {h : Header} {i : ImageRead} {e : Sighting}
  {content : List Byte} {records : List RecBody} {prior : Option Standing} {f g : Port → Port}

/-! ## The new image (R3, R6) -/

/-- The CURRENT slot is the one that the state of every slot singles out. -/
theorem writeScheme_eq {v : Service} {k : Nat} (h1 : 1 ≤ k) (h4 : k ≤ 4)
    (hk : ∀ m, 1 ≤ m → m ≤ 4 → (v.schemes.get m = .current ↔ m = k)) : v.writeScheme = k := by
  have found : ∀ m, 1 ≤ m → m ≤ 4 → (v.schemes.get m == .current) = decide (m = k) := fun m hm hm' => by
    rw [beq_eq_decide, decide_eq_decide]
    exact hk m hm hm'
  unfold Service.writeScheme Schemes.current
  simp only [List.find?_cons, found 1 (by omega) (by omega), found 2 (by omega) (by omega),
    found 3 (by omega) (by omega), found 4 (by omega) (by omega)]
  obtain rfl | rfl | rfl | rfl : k = 1 ∨ k = 2 ∨ k = 3 ∨ k = 4 := by omega
  all_goals rfl

theorem formImage_eq {k : Nat} {read body img : Image}
    (himg : img = { body with txc := read.txc + 1, scheme := k, stamp := img.stamp })
    (stamp : img.stamp = Config.stampOf k (stampInput card img.covered)) : formImage k card read body = img := by
  have covered : img.covered = ({ body with txc := read.txc + 1, scheme := k } : Image).covered := by
    rw [himg]
    rfl
  rw [himg, stamp, covered]
  rfl

/-! ## The STORE (R14, R16, R84) -/

/-- The port and the entry change apart from each other. -/
theorem putSighting_onPort (x : Sighting) : (s.onPort side f).putSighting x = (s.putSighting x).onPort side f := by
  cases side <;> rfl

theorem onCtx_onPort (side : Side) (f : TapContext → TapContext) :
    s.onCtx side f = s.onPort side fun p => { p with ctx := p.ctx.map f } := rfl

theorem heldBy_cleared {img : SImage} (hw : Cleared s w side card img prior records) :
    ∃ e, w.screening.heldBy side card = some (e, .fresh side prior) ∧ w.screening.sighted card = some e ∧
      e.card = card ∧ e.baseline = img ∧ e.state = .pendingLocal (.fresh side prior) ∧
      (prior = none → e.updated = s.time.now) ∧
      ∀ x, s.screening.sighted card = some x → prior ≠ none → e.updated = x.updated := by
  obtain ⟨e, he, hcard, hbase, hst, new, old⟩ := hw.entry
  exact ⟨e, heldBy_some he hst rfl, he, hcard, hbase, hst, new, old⟩

/-- With the clone mark clear the STORE is sent, and the entry knows it. -/
theorem beginWrite_eq {d : Decision} {body : Image} {p : PendingTap} (held : w.screening.heldBy side card = some (e, p))
    (clear : p.cloneMark = false) (f : Port → Port) :
    (w.onPort side f).beginWrite side card i d body =
      let img := formImage w.service.writeScheme card i.image body
      (w.putSighting { e with state := .pendingLocal { p with stored := some img.seen } }).onPort side fun q =>
        { (f q).asking .writing (.store i.slot.other.area img.bytes) with
          ctx := (f q).ctx.map fun x =>
            { x with decision := some d, newImage := some img, storeSent := true } } := by
  have unmarked : ∀ g, (w.onPort side g).markSeen side card = false := fun g => by
    rw [State.markSeen, State.onPort_screening, held]
    exact clear
  have sent : ∀ g img, (w.onPort side g).storeSent side card img =
      (w.putSighting { e with state := .pendingLocal { p with stored := some img } }).onPort side g := fun g img => by
    rw [State.storeSent, State.onPort_screening, held]
    exact putSighting_onPort _
  simp only [State.beginWrite, onCtx_onPort, onPort_onPort, unmarked, sent, State.storeImage, askIn_port,
    State.onPort_service, Bool.false_eq_true, if_false]
  congr 1
  funext q
  cases (f q).ctx <;> rfl

theorem Clears.onPort (hc : s.Clears side card i prior records) (f : Port → Port) :
    (s.onPort side f).Clears side card i prior records := by
  unfold State.Clears at hc ⊢
  simpa only [State.onPort_screening, State.onPort_time] using hc

/-- The context as checks 10 and 11 are given it: with the last area and the image read. -/
def TapContext.imaged (c : TapContext) (s : State) (card : CardNo) (content : List Byte) (i : ImageRead) : TapContext :=
  { c with areaB := some (s.service.readArea card content), image := some i }

/-- What follows check 11, by its ruling. -/
def State.afterRuling (side : Side) (c : TapContext) (card : CardNo) (i : ImageRead) (r : Ruling) (t : State) : State :=
  match r with
  | .refuse reason => t.refuse side reason
  | .exitGrace => ((t.append c.graceRecord).endUnwrittenTap side c).succeed side c .exitGrace (some .grace)
  | .free => (t.endUnwrittenTap side c).succeed side c .free none
  | .write d body => t.beginWrite side card i d body

theorem checkJourney_eq {r : Ruling} {now : Nat}
    (hr : ruleTap t.service t.time side (c.path.getD .normal) (t.classOf c) now i.image = r) :
    t.checkJourney side c card i now = t.afterRuling side c card i r := by
  unfold State.checkJourney
  rw [hr]
  rfl

/-- The part once check 10 has found the card clear, its verdict in the context. -/
def State.passed (w : State) (side : Side) (i : ImageRead) : State :=
  w.onCtx side fun x => { x with image := some i, screening := some .clear }

/-- A clear tap goes by the ruling of check 11. -/
theorem ReachesCheckTen.ruled {q : Ruling} (r : s.ReachesCheckTen side c card h i content)
    (hc : s.Clears side card i prior records)
    (hq : ruleTap s.service s.time side (c.path.getD .normal) (s.service.classes.get h.cls) s.time.now i.image = q) :
    ∃ w, Cleared (s.judged side c card content) w side card i.image.seen prior records ∧
      exec (.fetchAnswer side .imageB content) s =
        .next ((w.passed side i).afterRuling side (c.imaged s card content i) card i q).pump := by
  obtain ⟨w, screened, cleared⟩ := screen_clears
    (Clears.onPort hc fun p => p.judged c (s.service.readArea card content) s.time.now)
  have same : w.service = s.service ∧ w.time = s.time := by
    rw [cleared.noted.rest]
    exact ⟨State.onPort_service .., State.onPort_time ..⟩
  have ruling : ruleTap (w.passed side i).service (w.passed side i).time side
      ((c.imaged s card content i).path.getD .normal) ((w.passed side i).classOf (c.imaged s card content i)) s.time.now
      i.image = q := by
    obtain ⟨-, -, header⟩ := r.own
    rw [← hq]
    simp only [State.passed, onCtx_onPort, State.onPort_service, State.onPort_time, State.classOf, same,
      TapContext.imaged, header, Option.map_some, Option.getD_some]
  refine ⟨w, cleared, ?_⟩
  rw [ReachesCheckTen.effect r, ← checkJourney_eq ruling, State.judged, checkSighting_eq screened]
  rfl

/-- The records of a clear tap are of class REVENUE: the journal takes them (R151, R155). -/
theorem Clears.taken (hc : s.Clears side card i prior records) : s.taken records = records := by
  have revenue : ∀ b : RecBody, b.kind = .resolved → s.taken [b] = [b] := fun b hb => by
    simp [State.taken, takenFrom, hb, RecKind.cls]
  obtain ⟨-, -, rfl⟩ | ⟨e, -, known⟩ := hc
  · rfl
  · obtain ⟨st, -, -, -, rfl⟩ | ⟨st, -, -, -, -, rfl⟩ | ⟨stored, serial, -, ⟨-, -, rfl⟩ | ⟨-, -, -, -, rfl⟩⟩ := known
    · rfl
    · rfl
    · exact revenue _ rfl
    · exact revenue _ rfl

/-- The port once check 11 has formed the image: its context filled, the STORE in flight. -/
def Port.storing (q : Port) (i : ImageRead) (d : Decision) (img : Image) : Port :=
  { q.asking .writing (.store i.slot.other.area img.bytes) with
    ctx := q.ctx.map fun x =>
      { x with
        image := some i, screening := some .clear, decision := some d, newImage := some img, storeSent := true } }

/-- The entry once its STORE is sent (R84). -/
def Sighting.storing (e : Sighting) (side : Side) (prior : Option Standing) (img : Image) : Sighting :=
  { e with
    state := .pendingLocal { side := side, prior := prior, stored := some img.seen, cloneMark := false, held := none } }

theorem passed_write {d : Decision} {body : Image} (held : w.screening.heldBy side card = some (e, .fresh side prior)) :
    (w.passed side i).afterRuling side c card i (.write d body) =
      let img := formImage w.service.writeScheme card i.image body
      (w.putSighting (e.storing side prior img)).onPort side fun q => q.storing i d img := by
  refine (beginWrite_eq held rfl _).trans (congrArg₂ (State.onPort side) (funext fun q => ?_) rfl)
  simp only [Port.storing, Option.map_map]
  rfl

/-- Where nothing but records has reached the host link, the command is silent (R186). -/
theorem Screened.silent (hw : Screened (s.onPort side g) w [] records) (finding : w.host.finding = s.host.finding)
    (findings : w.host.findings = s.host.findings) (f : Port → Port) : Silent s (w.onPort side f).pump := by
  have host := hw.host
  rw [State.onPort_host] at host
  have formed : w.formed = s.formed := by
    rw [hw.formed]
    simp [State.syncAnswers, Link.dropReplies, State.formed]
  have same : (w.onPort side f).host = w.host := State.onPort_host ..
  exact Silent.of_pump (by rw [same, host]) (by simpa only [State.formed, same] using formed) (by rw [same, host])
    (by rw [same, host]) (by rw [same, host]) (by rw [same, host])
    ⟨by rw [same, host], by rw [same, host]⟩ (by rw [same, finding]) (by rw [same, findings])

/-- Settles O40: check 10 leaves the entry held afresh, and the STORE goes out with it. -/
theorem aTapThatPassesStoresItsNewImage : Obligations.ATapThatPassesStoresItsNewImage := by
  intro s side c card content h i d body img k prior records reaches clears hq h1 h4 hk himg hstamp
  obtain ⟨w, cleared, effect⟩ := ReachesCheckTen.ruled reaches clears hq
  obtain ⟨e, held, he, hcard, hbase, hst, new, old⟩ := heldBy_cleared cleared
  subst hcard
  have service : w.service = s.service := by rw [cleared.noted.rest]; exact State.onPort_service ..
  rw [passed_write held, service, writeScheme_eq h1 h4 hk, formImage_eq himg hstamp] at effect
  have screened : Screened _ (w.putSighting (e.storing side prior img)) [] records := cleared.noted.onScreening _
  have on := screened.wentOn fun q => q.storing i d img
  have table := on.shows.screening
  have now : s.time.now = (s.judged side c e.card content).time.now := (congrArg _ (State.onPort_time ..)).symm
  have before : (s.judged side c e.card content).screening = s.screening := State.onPort_screening ..
  refine ⟨_, effect, ?_, fun none_ => ?_, ?_, on.other, ?_, ?_, ?_, ⟨e.storing side prior img, ?_⟩, fun room o ho => ?_,
    fun hn room => ?_⟩
  · exact screened.silent (cleared.finding.trans (by rw [State.judged, State.onPort_host]))
      (cleared.findings.trans (by rw [State.judged, State.onPort_host])) _
  · refine Told.of_host ?_
    rw [State.onPort_host]
    exact (cleared.quiet none_).trans (State.onPort_host ..)
  · have link := on.link
    have rest := on.rest
    rw [show s.link.withFrames [] = s.link from rfl] at link
    rw [link] at rest
    exact rest
  · rw [on.port]
    simp only [Port.judged, Port.storing, Option.map_some]
    rfl
  · have grown := on.records.grown
    rwa [Clears.taken clears] at grown
  · rw [table]
    exact cleared.deny.trans (congrArg Screening.deny before)
  · rw [table]
    refine ⟨putSighting_self (e := e.storing side prior img) he, rfl, hbase, rfl, fun hp => (new hp).trans now.symm,
      fun x hx => old x (by rw [before]; exact hx)⟩
  · rw [table, putSighting_other (e.storing side prior img) w ho, cleared.others (by rwa [before]) o ho, before]
  · rw [table, ← before, ← cleared.longer (by rwa [before]) (by rwa [before])]
    exact List.length_map _

end Sys2Proof.Machine
end

section
/-! A passage granted without a write on the card: its credit, cleared at once in leaf FAULT, and the end of its tap
(R43, R44, R121, R123). -/

namespace Sys2Proof.Machine

variable {s t u v : State} {side : Side} {c x : TapContext} {origin : CreditOrigin} {k : SlotId} {i : ImageRead}

/-! ## Credits cleared by a fault (R120, R123) -/

theorem Tapped.of_regranted (h : Regranted s t) : Tapped side s t [] [] := .of_rest (by rw [h.rest]) (h.idle _)

theorem Tapped.of_onPassage (s : State) (side : Side) (f : Passage → Passage) : Tapped side s (s.onPassage f) [] [] :=
  .of_rest rfl Iff.rfl

/-- Credits have left the list with their lapse requests: those that stay are these. -/
structure CreditsLeft (side : Side) (s t : State) (stays : Credit → Bool) : Prop where
  tapped : ∃ ms xs, Tapped side s t ms xs
  deny : t.screening.deny = s.screening.deny
  hold : (t.port side).stopHold = (s.port side).stopHold
  credits : t.passage.credits = s.passage.credits.filter stays

/-- A credit's removal is a change of the aisle (R120). -/
theorem removeCredit_regranted (k : SlotId) (s : State) :
    ∃ r, s.removeCredit k = r ∧ Regranted (s.onPassage (Passage.dropCredit k)) r ∧
      r.passage.credits = s.passage.credits.filter (fun c => c.slot != k) := by
  have freed := regranted_freeSlot (s := s.onPassage (Passage.dropCredit k)) k
  exact ⟨_, rfl, freed, by rw [State.removeCredit, freed.passage]; rfl⟩

theorem clearCredit_left (s : State) (c : Credit) :
    CreditsLeft side s (s.clearCredit .fault c) fun d => d.slot != c.slot := by
  obtain ⟨r, removed, regranted, credits⟩ := removeCredit_regranted c.slot s
  obtain ⟨lapsed, entries⟩ := lapseCredit_spec c (r.append (c.unusedRecord .gateFault))
  have path : s.clearCredit .fault c = (r.append (c.unusedRecord .gateFault)).lapseCredit c := by rw [← removed]; rfl
  have screening : r.screening = s.screening := by rw [regranted.rest]; rfl
  rw [path]
  refine ⟨⟨_, _, ((Tapped.of_onPassage s side _).trans (.of_regranted regranted)).trans
    ((Tapped.of_append r _).trans (.of_screened lapsed))⟩, ?_, ?_, ?_⟩
  · rw [entries.rest, State.append_screening, screening]
  · have port : ((r.append (c.unusedRecord .gateFault)).lapseCredit c).port side = r.port side := by
      rw [lapsed.rest, (Screened.of_append r _).rest]
      rfl
    rw [port, regranted.hold]
    rfl
  · rw [lapsed.rest, ← credits]
    exact congrArg Passage.credits (State.append_passage r _)

theorem CreditsLeft.trans {p q : Credit → Bool} (h1 : CreditsLeft side s t p) (h2 : CreditsLeft side t u q) :
    CreditsLeft side s u fun d => p d && q d where
  tapped := by
    obtain ⟨ms, xs, first⟩ := h1.tapped
    obtain ⟨ns, ys, second⟩ := h2.tapped
    exact ⟨_, _, first.trans second⟩
  deny := h2.deny.trans h1.deny
  hold := h2.hold.trans h1.hold
  credits := by
    rw [h2.credits, h1.credits, List.filter_filter]
    exact congrArg (s.passage.credits.filter ·) (funext fun d => Bool.and_comm ..)

theorem foldl_clearCredit_left (cs : List Credit) (s : State) :
    CreditsLeft side s (cs.foldl (State.clearCredit .fault) s) fun d => cs.all fun c => d.slot != c.slot := by
  induction cs generalizing s with
  | nil => exact ⟨⟨_, _, Tapped.refl s⟩, rfl, rfl, by simp⟩
  | cons c cs ih => simpa only [List.foldl_cons, List.all_cons] using (clearCredit_left s c).trans (ih _)

/-- A fault leaves no credit (R123). -/
theorem clearCredits_left (s : State) : CreditsLeft side s (s.clearCredits .fault) fun _ => false := by
  obtain ⟨tapped, deny, hold, credits⟩ := foldl_clearCredit_left (side := side) s.passage.credits s
  refine ⟨tapped, deny, hold, ?_⟩
  rw [State.clearCredits, credits, List.filter_false, List.filter_eq_nil_iff]
  intro d hd all
  simpa using List.all_eq_true.1 all d hd

/-! ## A credit is formed (R43, R44, R121) -/

/-- A context has handed its slot over, or given it up. -/
structure HandedOver (s t : State) (side : Side) (c : TapContext) (origin : CreditOrigin) : Prop where
  tapped : ∃ ms xs, Tapped side s t ms xs
  deny : t.screening.deny = s.screening.deny
  hold : (t.port side).stopHold = (s.port side).stopHold
  formed : ∀ k, c.slot = some k → c.path = some .normal → s.emergency.line = false → s.passage.leaf ≠ .fault →
    CreditFormed s t k (dirOf side) origin
  cleared : ∀ k, c.slot = some k → c.path = some .normal → s.emergency.line = false → s.passage.leaf = .fault →
    t.passage.credits = []
  unformed : c.path ≠ some .normal ∨ s.emergency.line = true ∨ c.slot = none → t.passage.credits = s.passage.credits
  closed : s.passage.leaf ≠ .fault ∨ s.passage.credits = [] →
    Tapped side s t [] (s.grantRecords side c) ∧ t.screening = s.screening

/-- Without a credit the slot, if any, is given up. -/
theorem HandedOver.of_released (h : Released s t side)
    (without : c.path ≠ some .normal ∨ s.emergency.line = true ∨ c.slot = none) : HandedOver s t side c origin := by
  have screening : t.screening = s.screening := by rw [h.rest]
  have impossible : ∀ k, c.slot = some k → c.path = some .normal → s.emergency.line = false → False :=
    fun k slot path line => by
      obtain h | h | h := without
      · exact h path
      · rw [line] at h
        cases h
      · rw [h] at slot
        cases slot
  have none_ : s.grantRecords side c = [] := if_neg fun ⟨_, path, line, slot⟩ =>
    impossible _ (Option.some_get slot).symm path line
  exact
    { tapped := ⟨_, _, .of_released h⟩
      deny := by rw [screening]
      hold := h.hold side
      formed := fun k slot path line _ => (impossible k slot path line).elim
      cleared := fun k slot path line _ => (impossible k slot path line).elim
      unformed := fun _ => by rw [h.passage]
      closed := fun _ => ⟨by rw [none_]; exact .of_released h, screening⟩ }

/-- The aisle with a credit on a slot, outside FAULT (R121). -/
theorem formCredit_open (hl : s.passage.leaf ≠ .fault) (d : Direction) (origin : CreditOrigin) :
    ∃ g, s.formCredit k d origin = { s with passage := g } ∧ CreditFormed s (s.formCredit k d origin) k d origin := by
  have path : s.formCredit k d origin = (s.onPassage (Passage.addCredit k d origin s.creditUntil)).settleLeaves := by
    unfold State.formCredit
    exact if_neg (by simpa [Passage.addCredit] using hl)
  rw [path, settleLeaves_rest]
  exact ⟨_, rfl, rfl, rfl⟩

/-- In FAULT a credit of no card is cleared with its record alone where it is the only one (R121, R123). -/
theorem formCredit_alone (hl : s.passage.leaf = .fault) (none_ : s.passage.credits = [])
    (plain : origin.tapCard = none) :
    Tapped side s (s.formCredit k (dirOf side) origin) []
        [{ kind := .unusedCredit, side := some side, reason := some .gateFault }] ∧
      (s.formCredit k (dirOf side) origin).screening = s.screening := by
  let a := s.onPassage (Passage.addCredit k (dirOf side) origin s.creditUntil)
  obtain ⟨d, only, of_d, dir_d⟩ :
      ∃ d : Credit, a.passage.credits = [d] ∧ d.origin = origin ∧ d.direction = dirOf side :=
    ⟨{ slot := k, direction := dirOf side, origin := origin,
       state :=
        if s.passage.occupants.any (Occupant.canTake (dirOf side)) then .assigned else .unassigned s.creditUntil },
      by simp only [a, State.onPassage, Passage.addCredit, none_, List.nil_append], rfl, rfl⟩
  obtain ⟨r, removed, regranted, -⟩ := removeCredit_regranted d.slot a
  have record : d.unusedRecord .gateFault =
      { kind := .unusedCredit, side := some side, reason := some .gateFault } := by
    simp only [Credit.unusedRecord, of_d, dir_d, plain, sideOf_dirOf, Option.map_none]
  have path : s.formCredit k (dirOf side) origin = r.append (d.unusedRecord .gateFault) := by
    have clears : s.formCredit k (dirOf side) origin = a.clearCredits .fault := by
      unfold State.formCredit
      exact if_pos (by simpa [Passage.addCredit] using hl)
    rw [clears, State.clearCredits, only, ← removed]
    show State.lapseCredit d _ = _
    unfold State.lapseCredit
    rw [of_d, plain]
    rfl
  rw [path, ← record]
  refine ⟨((Tapped.of_onPassage s side _).trans ((Tapped.of_onPassage a side _).trans (.of_regranted regranted))).trans
    (Tapped.of_append r _), ?_⟩
  rw [State.append_screening, regranted.rest]
  rfl

/-- The part with the slot taken out of the context. -/
def State.slotless (s : State) (side : Side) : State := s.onCtx side fun x => { x with slot := none }

theorem slotless_tapped (s : State) (side : Side) : Tapped side s (s.slotless side) [] [] := by
  rw [State.slotless, onCtx_onPort]
  exact .of_onPort s side _

theorem slotless_passage (s : State) (side : Side) : (s.slotless side).passage = s.passage := State.onPort_passage ..

theorem slotless_screening (s : State) (side : Side) : (s.slotless side).screening = s.screening :=
  State.onPort_screening ..

theorem slotless_hold (s : State) (side : Side) : ((s.slotless side).port side).stopHold = (s.port side).stopHold := by
  rw [State.slotless, onCtx_onPort, State.onPort_port]

section Forms

variable (slot : c.slot = some k) (path : c.path = some .normal) (line : s.emergency.line = false)

include slot path line

theorem forms_credit : ¬(c.path ≠ some .normal ∨ s.emergency.line = true ∨ c.slot = none) := by simp [path, line, slot]

/-- In FAULT the credit is formed and cleared with all others (R121, R123). -/
theorem handedOver_fault (plain : origin.tapCard = none) (fault : s.passage.leaf = .fault) :
    HandedOver s ((s.slotless side).formCredit k (dirOf side) origin) side c origin := by
  have passage := slotless_passage s side
  have record : s.grantRecords side c = [{ kind := .unusedCredit, side := some side, reason := some .gateFault }] :=
    if_pos ⟨fault, path, line, by rw [slot]; rfl⟩
  let b := (s.slotless side).onPassage (Passage.addCredit k (dirOf side) origin (s.slotless side).creditUntil)
  have clears : (s.slotless side).formCredit k (dirOf side) origin = b.clearCredits .fault := by
    unfold State.formCredit
    exact if_pos (by simp [Passage.addCredit, passage, fault])
  obtain ⟨⟨ms, xs, tapped⟩, deny, hold, credits⟩ := clearCredits_left (side := side) b
  rw [List.filter_false] at credits
  have whole := ((slotless_tapped s side).trans (Tapped.of_onPassage _ side _)).trans tapped
  rw [← clears] at whole deny hold credits
  refine
    { tapped := ⟨_, _, whole⟩, deny := deny.trans (congrArg Screening.deny (slotless_screening s side)),
      hold := hold.trans (slotless_hold s side), formed := fun _ _ _ _ open_ => absurd fault open_,
      cleared := fun _ _ _ _ _ => credits, unformed := fun h => absurd h (forms_credit slot path line),
      closed := fun h => ?_ }
  obtain ⟨alone, same⟩ := formCredit_alone (s := s.slotless side) (side := side) (k := k) (origin := origin)
    (by rw [passage, fault]) (by rw [passage]; exact h.resolve_left fun open_ => open_ fault) plain
  rw [record]
  exact ⟨(slotless_tapped s side).trans alone, same.trans (slotless_screening s side)⟩

/-- Outside FAULT the credit joins the list (R121). -/
theorem handedOver_open (fault : s.passage.leaf ≠ .fault) :
    HandedOver s ((s.slotless side).formCredit k (dirOf side) origin) side c origin := by
  have passage := slotless_passage s side
  have none_ : s.grantRecords side c = [] := if_neg fun h => fault h.1
  obtain ⟨g, rest, formed⟩ := formCredit_open (s := s.slotless side) (k := k) (by rw [passage]; exact fault)
    (dirOf side) origin
  have tapped : Tapped side s ((s.slotless side).formCredit k (dirOf side) origin) [] [] := by
    rw [rest]
    exact (slotless_tapped s side).trans (Tapped.of_onPassage _ side fun _ => g)
  have same : ((s.slotless side).formCredit k (dirOf side) origin).screening = s.screening := by
    rw [rest]
    exact slotless_screening s side
  refine
    { tapped := ⟨_, _, tapped⟩, deny := by rw [same], hold := by rw [rest]; exact slotless_hold s side,
      formed := fun k' hk _ _ _ => ?_, cleared := fun _ _ _ _ h => absurd h fault,
      unformed := fun h => absurd h (forms_credit slot path line),
      closed := fun _ => ⟨by rw [none_]; exact tapped, same⟩ }
  obtain rfl : k' = k := Option.some.inj (hk.symm.trans slot)
  obtain ⟨claim, credits⟩ := formed
  rw [passage] at claim credits
  refine ⟨claim, credits.trans ?_⟩
  simp [State.slotless, State.onCtx]

end Forms

/-- A context hands its slot over, or gives it up (R43, R44). -/
theorem handedOver (hc : (s.port side).ctx = some c) (plain : origin.tapCard = none) :
    HandedOver s (s.handOver side origin) side c origin := by
  unfold State.handOver
  rw [show s.ctx side = some c from hc]
  simp only
  split
  · rename_i k slot
    split
    · rename_i normal
      obtain ⟨path, line⟩ := normal
      by_cases fault : s.passage.leaf = .fault
      · exact handedOver_fault slot path line plain fault
      · exact handedOver_open slot path line fault
    · rename_i other
      refine HandedOver.of_released (released_releaseTap s side) ?_
      by_cases path : c.path = some .normal
      · exact Or.inr (Or.inl (by simpa using fun line => other ⟨path, line⟩))
      · exact Or.inl path
  · rename_i slot
    refine HandedOver.of_released ⟨rfl, rfl, fun _ => Iff.rfl, fun _ => rfl, fun _ => rfl, fun c' k hc' hk _ => ?_⟩
      (Or.inr (Or.inr slot))
    obtain rfl := Option.some.inj (hc.symm.trans hc')
    rw [slot] at hk
    cases hk

/-! ## The end of such a tap (R44, R45) -/

/-- What a passage granted without a write leaves of the Screening Unit. -/
structure Grants (s v t : State) (side : Side) (c : TapContext) (outcome : TapOutcome) (balance : Int)
    (origin : CreditOrigin) (ms : List LinkMsg) (xs : List RecBody) : Prop where
  granted : Granted s t side c outcome balance origin ms xs
  deny : t.screening.deny = v.screening.deny
  screening : s.passage.leaf ≠ .fault ∨ s.passage.credits = [] → t.screening = v.screening
  time : t.time = v.time

theorem succeed_grants {ms : List LinkMsg} {xs : List RecBody} {outcome : TapOutcome} (h : Tapped side s v ms xs)
    (passage : v.passage = s.passage) (hold : (v.port side).stopHold = (s.port side).stopHold)
    (hx : (v.port side).ctx = some x) (slot : x.slot = c.slot) (path : x.path = c.path)
    (plain : origin.tapCard = none) {d : TapContext} (card : d.card = c.card) (image : d.image = some i) :
    Grants s v (v.succeed side d outcome (some origin)).pump side c outcome i.image.balance origin ms xs := by
  have handed := handedOver hx plain
  have records : v.grantRecords side x = s.grantRecords side c := by
    have line : v.emergency.line = s.emergency.line := by rw [h.rest]
    simp only [State.grantRecords, passage, line, slot, path]
  have line : v.emergency.line = s.emergency.line := by rw [h.rest]
  have clock : v.clock = s.clock := by rw [h.rest]
  have service : v.service = s.service := by rw [h.rest]
  let r : TapResult := { outcome := outcome, card := c.card, fare := none, balance := some i.image.balance }
  have succeeds : v.succeed side d outcome (some origin) =
      ((v.handOver side origin).giveResult side r).closeTap side .done := by
    unfold State.succeed
    rw [card, image]
    rfl
  rw [succeeds]
  generalize v.handOver side origin = u at handed
  obtain ⟨ns, ys, tapped⟩ := handed.tapped
  have ends := (h.trans tapped).ends r
  have closed : s.passage.leaf ≠ .fault ∨ s.passage.credits = [] → Tapped side v u [] (s.grantRecords side c) ∧
      u.screening = v.screening := by
    rw [← passage, ← records]
    exact handed.closed
  have passage' : ((u.giveResult side r).closeTap side .done).pump.passage = u.passage := by rw [ends.rest]
  refine ⟨{ toTapEnded := ends.toTapEnded, hold := ?_, formed := fun k hk hp hl hf => ?_,
            cleared := fun k hk hp hl hf => ?_, unformed := fun hw => ?_, closed := fun hw => ?_ },
    ?_, fun hw => ?_, ?_⟩
  · rw [ends.port]
    exact handed.hold.trans hold
  · have formed := handed.formed k (slot.trans hk) (path.trans hp) (line.trans hl) (by rwa [passage])
    simp only [CreditFormed, passage, clock, service] at formed ⊢
    rw [passage']
    exact formed
  · rw [passage']
    exact handed.cleared k (slot.trans hk) (path.trans hp) (line.trans hl) (by rw [passage, hf])
  · rw [passage', handed.unformed (by rwa [slot, path, line]), passage]
  · have whole := (h.trans (closed hw).1).ends r
    rw [List.append_nil] at whole
    exact ⟨whole.link, whole.formed, whole.records⟩
  · rw [ends.rest]
    exact handed.deny
  · rw [ends.rest]
    exact (closed hw).2
  · rw [ends.rest]
    show u.time = v.time
    rw [tapped.rest]

end Sys2Proof.Machine
end

section
/-! READING leads to the checks in order (R5, R13, R14, R20, R32 to R34, R44, R79 to R82, R86). -/

namespace Sys2Proof.Machine

variable {s t u v w a : State} {side : Side} {c x : TapContext} {card : CardNo} {h : Header} {i : ImageRead}
  {e : Sighting} {content : List Byte} {records : List RecBody} {prior : Option Standing} {reason : RefusalReason}
  {y : Exchange}

/-! ## The areas (R13) -/

theorem header_reads (hy : (s.port side).exchange = some y) (reading : (s.port side).state = .reading)
    (hc : (s.port side).ctx = some c) (hcard : c.card = some card) (hr : y.request = .fetch .header)
    (size : content.length = 8) (accepted : Header.accept card content = some h) :
    Ports s side (.fetchAnswer side .header content)
      { (s.port side).asking .reading (.fetch .imageA) with ctx := some { c with header := some h } } := by
  refine ports_of (f := fun p =>
    ({ p with ctx := p.ctx.map fun x => { x with header := some h } } : Port).asking .reading (.fetch .imageA)) ?_
    (by rw [hc]; rfl)
  rw [reading_effect hy reading hc hr size]
  unfold State.readingAnswer
  simp only [hcard, accepted, onCtx_onPort, askIn_port, onPort_onPort]

theorem header_refused (hy : (s.port side).exchange = some y) (reading : (s.port side).state = .reading)
    (hc : (s.port side).ctx = some c) (hcard : c.card = some card) (hr : y.request = .fetch .header)
    (size : content.length = 8) (unaccepted : Header.accept card content = none) :
    exec (.fetchAnswer side .header content) s = .next (s.refuse side .cardUnreadable).pump := by
  rw [reading_effect hy reading hc hr size]
  unfold State.readingAnswer
  simp only [hcard, unaccepted]

theorem imageA_reads (hy : (s.port side).exchange = some y) (reading : (s.port side).state = .reading)
    (hc : (s.port side).ctx = some c) (hcard : c.card = some card) (hh : c.header = some h)
    (hr : y.request = .fetch .imageA) (size : content.length = 40) :
    Ports s side (.fetchAnswer side .imageA content)
      { (s.port side).asking .reading (.fetch .imageB) with
        ctx := some { c with areaA := some (s.service.readArea card content) } } := by
  refine ports_of (f := fun p => ({ p with
    ctx := p.ctx.map fun x => { x with areaA := some (s.service.readArea card content) } } : Port).asking .reading
      (.fetch .imageB)) ?_ (by rw [hc]; rfl)
  rw [reading_effect hy reading hc hr size]
  unfold State.readingAnswer
  simp only [hcard, hh, onCtx_onPort, askIn_port, onPort_onPort]

/-! ## Checks 5 to 9 (R5, R32, R33) -/

theorem judged_ctx (s : State) (side : Side) (c : TapContext) (card : CardNo) (content : List Byte) :
    ((s.judged side c card content).port side).ctx =
      some { c with areaB := some (s.service.readArea card content), tapTime := some s.time.now } := by
  rw [State.judged, State.onPort_port]
  rfl

/-- Before check 10 a refusal touches no entry, and the balance does not stand yet (R42). -/
theorem judged_refuse (hc : (s.port side).ctx = some c) (hcard : c.card = some card) (own : c.side = side)
    (free : s.holdsNoEntry side (some card)) (image : c.image = none) (content : List Byte) (reason : RefusalReason) :
    Refused s ((s.judged side c card content).refuse side reason).pump side reason (some card) none := by
  have plain := refuse_plain (reason := reason) (Tapped.of_onPort s side _) (State.onPort_passage ..)
    (State.onPort_screening ..) (judged_ctx s side c card content) own (by simpa only [hcard] using free)
    fun c' k _ hc' hk => by
      obtain rfl := Option.some.inj (hc.symm.trans hc')
      exact hk
  have refused := plain.refused
  simp only [hcard, image, Option.map_none] at refused
  exact refused

/-- A card on the deny list that is to be blocked (R20, R33). -/
theorem judged_block {z : DenyEntry} (denied : s.screening.denied card = some z) (block : z.action = .refuseAndBlock)
    (d : TapContext) (now : Nat) :
    (s.judged side c card content).checkDeny side d card now = s.onPort side fun p =>
      (p.judged c (s.service.readArea card content) s.time.now).blockingWrite
        { c with areaB := some (s.service.readArea card content), tapTime := some s.time.now } (.refused .denied) := by
  have found : (s.judged side c card content).screening.denied card = some z := by
    rw [State.judged, State.onPort_screening, denied]
  rw [State.checkDeny, found]
  simp only [block]
  rw [startBlock_eq (judged_ctx s side c card content), State.judged, onPort_onPort]

theorem checkDeny_refuses {z : DenyEntry} (denied : s.screening.denied card = some z) (refuse : z.action = .refuse)
    (now : Nat) : s.checkDeny side c card now = s.refuse side .denied := by
  rw [State.checkDeny, denied]
  simp only [refuse]

theorem checkDeny_image (denied : s.screening.denied card = none)
    (chosen : chooseImage (c.areaA.bind AreaRead.valid) (c.areaB.bind AreaRead.valid) = .refuse reason) (now : Nat) :
    s.checkDeny side c card now = s.refuse side reason := by
  rw [State.checkDeny, denied]
  simp only [State.checkImage, chosen]

/-! ## A tap that check 10 left with a fresh hold ends without a write (R86) -/

theorem SetBack.congr {img : SImage} (h : t.SetBack card img prior) (screening : u.screening = t.screening)
    (time : u.time = t.time) : u.SetBack card img prior := by
  unfold State.SetBack at h ⊢
  rwa [screening, time]

/-- The entry of a fresh hold is set back, and nothing else comes of it. -/
theorem endUnwrittenTap_fresh {img : SImage} (he : a.screening.sighted card = some e) (base : e.baseline = img)
    (hst : e.state = .pendingLocal (.fresh side prior)) (hcard : x.card = some card) :
    Screened a (a.endUnwrittenTap side x) [] [] ∧ (a.endUnwrittenTap side x).screening.deny = a.screening.deny ∧
      (a.endUnwrittenTap side x).SetBack card img prior := by
  obtain rfl := (Screening.sighted_some he).2
  have setBack : a.endUnwrittenTap side x = a.endUnwritten side e.card := by rw [State.endUnwrittenTap, hcard]
  obtain ⟨took, held⟩ := endUnwritten_spec (side := side) he hst rfl
  have passes : e.heldBack (.fresh side prior) = .passed := rfl
  rw [passes] at took held
  have time : (a.endUnwritten side e.card).time = a.time := by rw [held.screened.rest]
  rw [setBack]
  refine ⟨held.screened, (held.quiet rfl).1, fun hp => ?_, fun st hp => ?_⟩
  · obtain ⟨order, entry⟩ := took.entry
    rw [entry, hp]
    rfl
  · obtain ⟨order, entry⟩ := took.entry
    refine ⟨order, entry.trans ?_⟩
    rw [hp, time, ← base]
    rfl

/-! ## The tap once check 10 has given its verdict -/

/-- The part with the verdict of check 10 in the context. -/
def State.decided (w : State) (side : Side) (i : ImageRead) (r : ScreenResult) : State :=
  w.onCtx side fun x => { x with image := some i, screening := some r }

/-- What stands before the tap goes on from check 10. -/
structure Decided (s w v : State) (side : Side) (x : TapContext) (ms : List LinkMsg) (xs : List RecBody) : Prop where
  tapped : Tapped side s v ms xs
  passage : v.passage = s.passage
  hold : (v.port side).stopHold = (s.port side).stopHold
  context : (v.port side).ctx = some x
  screening : v.screening = w.screening
  time : v.time = s.time
  clock : v.clock = s.clock

theorem Screened.decided {ms : List LinkMsg} {xs : List RecBody}
    (hw : Screened (s.judged side c card content) w ms xs) (i : ImageRead) (r : ScreenResult) :
    Decided s w (w.decided side i r) side (c.screened s card content i r) ms xs := by
  have port : w.port side = (s.port side).judged c (s.service.readArea card content) s.time.now := by
    rw [hw.rest]
    exact State.onPort_port ..
  have tapped : Tapped side w (w.decided side i r) [] [] := by
    rw [State.decided, onCtx_onPort]
    exact Tapped.of_onPort w side _
  refine ⟨((Tapped.of_onPort s side _).trans (.of_screened hw)).and tapped, ?_, ?_, ?_, State.onPort_screening .., ?_,
    ?_⟩
  · rw [State.decided, State.onCtx, State.onPort_passage, hw.rest]
    exact State.onPort_passage ..
  · rw [State.decided, State.onCtx, State.onPort_port, port]
    rfl
  · rw [State.decided, State.onCtx, State.onPort_port, port]
    rfl
  · rw [State.decided, State.onCtx, State.onPort_time, hw.rest]
    exact State.onPort_time ..
  · rw [State.decided, State.onCtx, State.onPort_clock, hw.rest]
    exact State.onPort_clock ..

theorem ReachesCheckTen.decided {r : ScreenResult} (reaches : s.ReachesCheckTen side c card h i content)
    (hw : (s.judged side c card content).screen side card i.image.balance i.image.seen = (w, r)) :
    exec (.fetchAnswer side .imageB content) s = .next
      ((w.decided side i r).afterScreening side (c.imaged s card content i) card i s.time.now r).pump := by
  rw [ReachesCheckTen.effect reaches, checkSighting_eq hw]
  rfl

/-- A verdict that grants a passage (R80, R82). -/
theorem Decided.grants {ms : List LinkMsg} {xs : List RecBody} {r : ScreenResult} {outcome : TapOutcome}
    {origin : CreditOrigin} (d : Decided s w v side (c.screened s card content i r) ms xs)
    (plain : origin.tapCard = none) :
    Grants s v (v.succeed side (c.imaged s card content i) outcome (some origin)).pump side c outcome i.image.balance
      origin ms xs :=
  succeed_grants (c := c) (d := c.imaged s card content i) d.tapped d.passage d.hold d.context rfl rfl plain rfl rfl

/-! ## Check 10 ends the tap or turns it to a blocking write (R79 to R82) -/

theorem clone_blocks (reaches : s.ReachesCheckTen side c card h i content) (he : s.screening.sighted card = some e)
    (cloned : e.Cloned i.image.seen) :
    ∃ w t, exec (.fetchAnswer side .imageB content) s = .next t ∧ Flagged (s.judged side c card content) w card e ∧
      WentOn s w t side ((s.port side).blockingWrite (c.screened s card content i .clone) (.refused .clone))
        [.denyAdd card] (s.link.dropRecords [.denyAdd card]) := by
  have before : (s.judged side c card content).screening = s.screening := State.onPort_screening ..
  have link : (s.judged side c card content).link = s.link := State.onPort_link ..
  obtain ⟨w, screened, flagged⟩ := screen_cloned (s := s.judged side c card content) (side := side)
    (balance := i.image.balance) (by rw [before]; exact he) cloned
  have hw := flagged.screened
  rw [link] at hw
  have path : (w.decided side i .clone).startBlock side (.refused .clone) =
      w.onPort side fun p => p.blockingWrite (c.screened s card content i .clone) (.refused .clone) := by
    rw [startBlock_eq (hw.decided i .clone).context, State.decided, onCtx_onPort, onPort_onPort]
    rfl
  refine ⟨w, _, ReachesCheckTen.decided reaches screened, flagged, ?_⟩
  simp only [State.afterScreening, path]
  exact hw.wentOn _

/-- Check 10 has granted a passage: the frame of its verdict, these records, and the entry as it is left, with some
order of touching. -/
structure Awarded (s w : State) (card : CardNo) (left : Nat → Sighting) (m : LinkMsg) (xs : List RecBody) : Prop where
  screened : Screened s w [m] xs
  deny : w.screening.deny = s.screening.deny
  entry : ∃ order, w.screening.sighted card = some (left order)
  others : ∀ o, o ≠ card → w.screening.sighted o = s.screening.sighted o

/-- The entry that a REGRANT leaves (R80). -/
def Sighting.regranted (e : Sighting) (st : Standing) (now order : Nat) : Sighting :=
  { e with
    updated := now, touched := order, state := .committed { st with lapse := none, regranted := true } }

/-- The entry that RECOVERED leaves (R82). -/
def Sighting.recovered (e : Sighting) (stored : SImage) (now order : Nat) : Sighting :=
  { e with
    baseline := stored, updated := now, touched := order,
    state := .committed { origin := .own, lapse := none, regranted := false } }

/-- Check 10 grants a REGRANT (R79, R80). -/
theorem screen_regrants {st : Standing} {m : LapseMark} {balance : Int} {img : SImage}
    (he : s.screening.sighted card = some e) (hst : e.state = .committed st) (base : e.baseline = img)
    (lapse : st.lapse = some m) (own : m.side = side) (live : s.time.now ≤ m.deadline) :
    ∃ w, s.screen side card balance img = (w, .regrant) ∧
      Awarded s w card (e.regranted st s.time.now) (.regrant card img)
        (s.link.dropRecords [.regrant card img]
          ++ [{ kind := .regrant, side := some side, card := some card, txc := some img.txc }]) := by
  obtain rfl := (Screening.sighted_some he).2
  subst base
  let x : Sighting := { e with state := .committed { st with lapse := none, regranted := true } }
  have screening : (s.regrant side e st).screening = (s.touchSighting x).screening := by simp [State.regrant, x]
  refine ⟨s.regrant side e st, ?_, ?_, ?_, ⟨s.screening.order, ?_⟩, fun o ho => ?_⟩
  · have lapsed : st.lapsedFor side s.time.now = true := by
      simp [Standing.lapsedFor, lapse, own, LapseMark.live]
      omega
    rw [screen_committed he hst, State.screenCommitted, if_neg (by omega), if_pos rfl, if_pos lapsed]
  · exact ((Screened.of_screening s _).trans (Screened.of_enqueue (s.touchSighting x) _)).trans (Screened.of_append _ _)
  · rw [screening]
    rfl
  · rw [screening]
    exact touchSighting_self (e := x) he
  · rw [screening]
    exact touchSighting_other x s ho

/-- Check 10 finds the stored image: RECOVERED (R82). -/
theorem screen_recovers {stored : SImage} {serial : Nat} {balance : Int} {img : SImage}
    (he : s.screening.sighted card = some e) (hst : e.state = .inDoubt stored serial) (base : img ≠ e.baseline)
    (same : img = stored) :
    ∃ w, s.screen side card balance img = (w, .recovered) ∧
      Awarded s w card (e.recovered stored s.time.now) (.sighting card e.baseline stored)
        (resolvedRecord card serial stored .committed (some (side, balance)) none ::
          s.link.dropRecords [.sighting card e.baseline stored]) := by
  obtain rfl := (Screening.sighted_some he).2
  let b := resolvedRecord e.card serial stored .committed (some (side, balance)) none
  let x : Sighting := { e with baseline := stored, state := .committed .ours }
  have screening : (((s.append b).touchSighting x).enqueue (.sighting e.card e.baseline stored)).screening =
      ((s.append b).touchSighting x).screening := by simp
  have before : (s.append b).screening = s.screening := State.append_screening s b
  have time : (s.append b).time = s.time := State.append_time s b
  refine ⟨((s.append b).touchSighting x).enqueue (.sighting e.card e.baseline stored), ?_, ?_, ?_,
    ⟨(s.append b).screening.order, ?_⟩, fun o ho => ?_⟩
  · rw [screen_inDoubt he hst, State.screenInDoubt, if_neg base, if_pos same]
  · have queued := Screened.of_enqueue ((s.append b).touchSighting x) (.sighting e.card e.baseline stored)
    have link : ((s.append b).touchSighting x).link = s.link := State.append_link s b
    rw [link] at queued
    exact ((Screened.of_append s b).onScreening _).trans queued
  · rw [screening]
    show (s.append b).screening.deny = _
    rw [before]
  · rw [screening, ← time]
    exact touchSighting_self (e := x) (by rw [before]; exact he)
  · rw [screening, touchSighting_other x _ ho, before]

end Sys2Proof.Machine
end

section
/-! Check 11 without a write, and READING as one statement (R13, R14, R32 to R34, R44, R79 to R82, R86). -/

namespace Sys2Proof.Machine

variable {s t u v w : State} {side : Side} {c x : TapContext} {card : CardNo} {h : Header} {i : ImageRead}
  {e : Sighting} {content : List Byte} {records : List RecBody} {prior : Option Standing} {reason : RefusalReason}

/-! ## A clear tap without a write (R44, R86) -/

/-- Records and a set-back come before the end of the tap. -/
theorem Decided.and {ms ns : List LinkMsg} {xs ys : List RecBody} (d : Decided s w v side x ms xs)
    (h : Screened v u ns ys) : Decided s u u side x (ms ++ ns) (xs ++ ys) where
  tapped := d.tapped.trans (.of_screened h)
  passage := by rw [h.rest]; exact d.passage
  hold := by rw [h.rest]; exact d.hold
  context := by rw [h.rest]; exact d.context
  screening := rfl
  time := by rw [h.rest]; exact d.time
  clock := by rw [h.rest]; exact d.clock

/-- The entry of a clear tap, set back at the end. -/
theorem Cleared.setBack {img : SImage} {d : TapContext} (hw : Cleared s w side card img prior records)
    (screening : v.screening = w.screening) (own : d.card = some card) :
    Screened v (v.endUnwrittenTap side d) [] [] ∧ (v.endUnwrittenTap side d).screening.deny = w.screening.deny ∧
      (v.endUnwrittenTap side d).SetBack card img prior := by
  obtain ⟨e, he, -, base, hst, -⟩ := hw.entry
  obtain ⟨screened, deny, setBack⟩ := endUnwrittenTap_fresh (a := v) (by rw [screening]; exact he) base hst own
  exact ⟨screened, deny.trans (by rw [screening]), setBack⟩

theorem Released.credits (h : Released s t side) : t.passage.credits = s.passage.credits := by rw [h.passage]

section Clear

variable (reaches : s.ReachesCheckTen side c card h i content) (clears : s.Clears side card i prior records)

include reaches clears

theorem clear_exitGrace
    (hq : ruleTap s.service s.time side (c.path.getD .normal) (s.service.classes.get h.cls) s.time.now i.image =
      .exitGrace) :
    ∃ t, exec (.fetchAnswer side .imageB content) s = .next t ∧
      Granted s t side c .exitGrace i.image.balance .grace []
        (records ++ [{ kind := .exitGrace, side := some side, card := some card, balance := some i.image.balance }]) ∧
      t.screening.deny = s.screening.deny ∧
      (s.passage.leaf ≠ .fault ∨ s.passage.credits = [] → t.SetBack card i.image.seen prior) := by
  obtain ⟨own, hcard, -⟩ := reaches.own
  obtain ⟨w, cleared, effect⟩ := ReachesCheckTen.ruled reaches clears hq
  have decided := (cleared.noted.decided i .clear).and (Screened.of_append _ (c.imaged s card content i).graceRecord)
  obtain ⟨screened, deny, setBack⟩ := cleared.setBack (v := (w.passed side i).append _) (d := c.imaged s card content i)
    ((State.append_screening _ _).trans (State.onPort_screening ..)) hcard
  have grants := (decided.and screened).grants (i := i) (content := content) (c := c) (card := card)
    (outcome := .exitGrace) (origin := .grace) rfl
  have made : records ++ [(c.imaged s card content i).graceRecord] ++ [] =
      records ++ [{ kind := .exitGrace, side := some side, card := some card, balance := some i.image.balance }] := by
    rw [List.append_nil, ← own, ← hcard]
    rfl
  have granted := grants.granted
  rw [made] at granted
  exact ⟨_, effect, granted, (grants.deny.trans deny).trans (cleared.deny.trans (by rw [State.judged,
    State.onPort_screening])), fun closed => SetBack.congr setBack (grants.screening closed) grants.time⟩

theorem clear_free
    (hq : ruleTap s.service s.time side (c.path.getD .normal) (s.service.classes.get h.cls) s.time.now i.image =
      .free) :
    ∃ t, exec (.fetchAnswer side .imageB content) s = .next t ∧
      TapClosed s t side { outcome := .free, card := some card, fare := none, balance := some i.image.balance } [] ∧
      t.passage.credits = s.passage.credits ∧ t.screening.deny = s.screening.deny ∧
      t.SetBack card i.image.seen prior ∧ Journals s t records := by
  obtain ⟨own, hcard, -⟩ := reaches.own
  obtain ⟨w, cleared, effect⟩ := ReachesCheckTen.ruled reaches clears hq
  obtain ⟨screened, deny, setBack⟩ := cleared.setBack (v := w.passed side i) (d := c.imaged s card content i)
    (State.onPort_screening ..) hcard
  have decided := (cleared.noted.decided i .clear).and screened
  have released := released_releaseTap ((w.passed side i).endUnwrittenTap side (c.imaged s card content i)) side
  let r : TapResult := { outcome := .free, card := some card, fare := none, balance := some i.image.balance }
  have ends := decided.tapped.releaseTap.ends r
  have path : (w.passed side i).afterRuling side (c.imaged s card content i) card i .free =
      (((((w.passed side i).endUnwrittenTap side (c.imaged s card content i)).releaseTap side).giveResult side
        r).closeTap side .done) := by
    simp only [r, ← hcard]
    rfl
  rw [path] at effect
  refine ⟨_, effect, ends.toTapClosed, ?_, ?_, SetBack.congr setBack ?_ ?_,
    by simpa only [List.append_nil] using ends.records⟩
  · rw [ends.rest]
    exact released.credits.trans (congrArg Passage.credits decided.passage)
  · rw [ends.rest]
    show (State.releaseTap side _).screening.deny = _
    rw [released.rest]
    exact deny.trans (cleared.deny.trans (by rw [State.judged, State.onPort_screening]))
  · rw [ends.rest]
    show (State.releaseTap side _).screening = _
    rw [released.rest]
  · rw [ends.rest]
    show (State.releaseTap side _).time = _
    rw [released.rest]

theorem clear_refused
    (hq : ruleTap s.service s.time side (c.path.getD .normal) (s.service.classes.get h.cls) s.time.now i.image =
      .refuse reason) :
    ∃ t, exec (.fetchAnswer side .imageB content) s = .next t ∧
      TapClosed s t side
        { outcome := .refused reason, card := some card, fare := none, balance := some i.image.balance } [] ∧
      (t.port side).stopHold = some (s.clock + 2000) ∧ t.passage.credits = s.passage.credits ∧
      t.screening.deny = s.screening.deny ∧ t.SetBack card i.image.seen prior ∧
      Journals s t
        (records
          ++ if reason = .journalFull then []
            else
              [{ kind := .refusal, side := some side, card := some card, reason := some (.refusal reason),
                 balance := some i.image.balance }]) := by
  obtain ⟨own, hcard, -⟩ := reaches.own
  obtain ⟨w, cleared, effect⟩ := ReachesCheckTen.ruled reaches clears hq
  have decided : Decided s w (w.passed side i) side (c.screened s card content i .clear) [] records :=
    cleared.noted.decided i .clear
  have base := recordRefusal_rest (w.passed side i) (c.screened s card content i .clear) reason
  have same : ((w.passed side i).recordRefusal (c.screened s card content i .clear) reason).screening =
      w.screening := by
    rw [base]
    exact decided.screening
  obtain ⟨screened, deny, setBack⟩ := cleared.setBack same (d := c.screened s card content i .clear) hcard
  have ends := refuse_ends (reason := reason) decided.tapped decided.context (.of_screened screened)
  rw [List.append_nil, List.append_nil] at ends
  have result : (c.screened s card content i .clear).refusalResult reason =
      { outcome := .refused reason, card := some card, fare := none, balance := some i.image.balance } := by
    rw [← hcard]
    rfl
  have record : (c.screened s card content i .clear).refusalRecord reason =
      { kind := .refusal, side := some side, card := some card, reason := some (.refusal reason),
        balance := some i.image.balance } := by
    rw [← own, ← hcard]
    rfl
  rw [result, record, State.beforeRefusal] at ends
  generalize (w.passed side i).recordRefusal (c.screened s card content i .clear) reason = a
    at base screened deny setBack ends
  have released := released_releaseTap (a.endUnwrittenTap side (c.screened s card content i .clear)) side
  refine ⟨((w.passed side i).refuse side reason).pump, effect, ends.toTapClosed, ?_, ?_, ?_,
    SetBack.congr setBack ?_ ?_, ends.records⟩
  · rw [ends.port]
    refine (holdStop_hold _ side).trans ?_
    rw [released.rest, screened.rest, base]
    exact congrArg (fun n => some (n + 2000)) decided.clock
  · rw [ends.rest]
    show (State.holdStop side _).passage.credits = _
    rw [holdStop_passage, released.credits, screened.rest, base]
    exact congrArg Passage.credits decided.passage
  · rw [ends.rest]
    show (State.holdStop side _).screening.deny = _
    rw [State.holdStop, State.onPort_screening, released.rest]
    exact deny.trans (cleared.deny.trans (by rw [State.judged, State.onPort_screening]))
  · rw [ends.rest]
    show (State.holdStop side _).screening = _
    rw [State.holdStop, State.onPort_screening, released.rest]
  · rw [ends.rest]
    show (State.holdStop side _).time = _
    rw [State.holdStop, State.onPort_time, released.rest]

end Clear

/-! ## The passages that check 10 grants (R80, R82) -/

theorem Awarded.grants {left : Nat → Sighting} {m : LinkMsg} {xs : List RecBody} {origin : CreditOrigin}
    (hw : Awarded (s.judged side c card content) w card left m xs) (i : ImageRead) (r : ScreenResult)
    (outcome : TapOutcome) (plain : origin.tapCard = none) :
    let t := ((w.decided side i r).succeed side (c.imaged s card content i) outcome (some origin)).pump
    Granted s t side c outcome i.image.balance origin [m] xs ∧ t.screening.deny = s.screening.deny ∧
      (s.passage.leaf ≠ .fault ∨ s.passage.credits = [] →
        (∃ order, t.screening.sighted card = some (left order)) ∧
          (∀ o, o ≠ card → t.screening.sighted o = s.screening.sighted o) ∧ ∃ q ∈ t.link.queue, q.msg = m) := by
  have before : (s.judged side c card content).screening = s.screening := State.onPort_screening ..
  have decided := hw.screened.decided i r
  have grants := decided.grants (outcome := outcome) plain
  refine ⟨grants.granted, ?_, fun closed => ⟨?_, fun o ho => ?_, ?_⟩⟩
  · rw [grants.deny, decided.screening, hw.deny, before]
  · rw [grants.screening closed, decided.screening]
    exact hw.entry
  · rw [grants.screening closed, decided.screening, hw.others o ho, before]
  · rw [(grants.granted.closed closed).1]
    exact withFrame_queued _ _

/-! ## READING as a whole -/

/-- The header's refusals, by what it reads (R32). -/
theorem headerRefusal_eq (s : State) (h : Header) (now : Nat) :
    s.headerRefusal h now =
      if h.status = .blocked then some .blocked
      else if (s.service.classes.get h.cls).valid = false then some .classUnknown
      else if h.expiry < s.time.serviceDay now then some .expired else none := by
  simp [State.headerRefusal]

/-- A header answered: on to the images, or refused (R1, R13). -/
theorem header_answered {y : Exchange} (hy : (s.port side).exchange = some y) (reading : (s.port side).state = .reading)
    (hc : (s.port side).ctx = some c) (hcard : c.card = some card) (own : c.side = side)
    (free : s.holdsNoEntry side (some card)) (hr : y.request = .fetch .header) (size : content.length = 8) :
    (∀ h, Header.accept card content = some h → Ports s side (.fetchAnswer side .header content)
      { (s.port side).asking .reading (.fetch .imageA) with ctx := some { c with header := some h } }) ∧
    (Header.accept card content = none → ∃ t, exec (.fetchAnswer side .header content) s = .next t ∧
      Refused s t side .cardUnreadable (some card) (c.image.map fun i => i.image.balance)) := by
  refine ⟨fun h accepted => header_reads hy reading hc hcard hr size accepted, fun unaccepted => ?_⟩
  have plain := refuse_plain (reason := .cardUnreadable) (Tapped.refl s) rfl rfl hc own
    (by rw [hcard]; exact free) fun c' k _ hc' hk => by
      obtain rfl := Option.some.inj (hc.symm.trans hc')
      exact hk
  exact ⟨_, header_refused hy reading hc hcard hr size unaccepted, hcard ▸ plain.refused⟩

/-- Settles O39: each area of a tap, then each check by what it finds. -/
theorem readingLeadsToTheChecksInOrder : Obligations.ReadingLeadsToTheChecksInOrder := by
  refine ⟨fun s side c card y content reading hy hc hcard own free => ⟨fun hr size => ?_, fun h hh size =>
      ⟨fun hr => imageA_reads hy reading hc hcard hh hr size, fun hr image =>
        ⟨_, lastArea_effect hy reading hc hcard hh hr size, ?_⟩⟩⟩,
    fun s side c card h i content reaches => ?_⟩
  · obtain ⟨reads, refuses⟩ := header_answered hy reading hc hcard own free hr size
    cases accepted : Header.accept card content with
    | some h =>
      obtain ⟨t, effect, told, rest, other, port⟩ := reads h accepted
      refine ⟨t, effect, fun h' hh' => ?_, nofun⟩
      obtain rfl := Option.some.inj hh'
      exact ⟨told, rest, other, port⟩
    | none =>
      obtain ⟨t, effect, refused⟩ := refuses accepted
      exact ⟨t, effect, nofun, fun _ => refused⟩
  · have refuse := judged_refuse hc hcard own free image content
    have list : (s.judged side c card content).screening = s.screening := State.onPort_screening ..
    rw [headerRefusal_eq]
    refine ⟨fun blocked => ?_, fun active unknown => ?_, fun active valid => ⟨fun expired => ?_, fun unexpired => ?_⟩⟩
    · rw [if_pos blocked]
      exact refuse .blocked
    · rw [if_neg (by simp [active]), if_pos unknown]
      exact refuse .classUnknown
    · rw [if_neg (by simp [active]), if_neg (by simp [valid]), if_pos expired]
      exact refuse .expired
    · rw [if_neg (by simp [active]), if_neg (by simp [valid]), if_neg (by omega), Option.elim_none]
      refine ⟨fun z denied => ⟨fun action => ?_, fun action => ?_⟩, fun undenied reason chosen => ?_⟩
      · rw [checkDeny_refuses (by rw [list]; exact denied) action]
        exact refuse .denied
      · obtain ⟨told, rest, port, other⟩ := onPort_done s side fun p =>
          (p.judged c (s.service.readArea card content) s.time.now).blockingWrite
            { c with areaB := some (s.service.readArea card content), tapTime := some s.time.now } (.refused .denied)
        rw [judged_block denied action]
        refine ⟨told, rest, other, port.trans ?_, blocking_lit port⟩
        rw [← blockedBytes_eq hh]
        rfl
      · rw [checkDeny_image (by rw [list]; exact undenied) chosen]
        exact refuse reason
  · have before : (s.judged side c card content).screening = s.screening := State.onPort_screening ..
    have link : (s.judged side c card content).link = s.link := State.onPort_link ..
    have time : (s.judged side c card content).time = s.time := State.onPort_time ..
    refine ⟨fun e he cloned => ?_, fun e st m he hst base lapse same live => ?_,
      fun e stored serial he hst base same => ?_,
      fun prior records clears =>
        ⟨clear_exitGrace reaches clears, clear_free reaches clears, fun reason => clear_refused reaches clears⟩⟩
    · obtain ⟨w, t, effect, flagged, on⟩ := clone_blocks reaches he cloned
      have table := on.shows.screening
      have port := on.port
      rw [Port.blockingWrite, blockedBytes_eq (c := c.screened s card content i .clone) reaches.own.2.2] at port
      exact ⟨t, effect, flagged.found.of_onPort.shows on.shows, on.rest, on.other, blocking_lit on.port, port,
        fun o ho => by rw [table, flagged.others o ho, before], fun p hp => by rw [table, flagged.marked p hp],
        fun hp => by rw [table, flagged.kept hp], on.link, on.formed, on.records⟩
    · obtain ⟨w, screened, answered⟩ := screen_regrants (s := s.judged side c card content)
        (balance := i.image.balance) (by rw [before]; exact he) hst base lapse same (by rw [time]; exact live)
      rw [link, time] at answered
      exact ⟨_, ReachesCheckTen.decided reaches screened, answered.grants i .regrant .regrant rfl⟩
    · obtain ⟨w, screened, answered⟩ := screen_recovers (s := s.judged side c card content) (side := side)
        (balance := i.image.balance) (by rw [before]; exact he) hst base same
      rw [link, time] at answered
      exact ⟨_, ReachesCheckTen.decided reaches screened, answered.grants i .recovered .recovered rfl⟩

end Sys2Proof.Machine
end

section
/-! Check 11: the entry rules, the exit rules and the free-exit rule, case by case (R35 to R40). -/

namespace Sys2Proof.Machine

variable {v : Service} {tb : TimeBase} {st : Station} {cls : ClassRec} {tapTime : Nat} {img : Image}

/-! ## Which rule applies -/

theorem ruleTap_entry (hst : v.station = some st) :
    ruleTap v tb .U .normal cls tapTime img = ruleEntry v.params st cls tapTime img := by
  simp only [ruleTap, hst, Option.getD_some]

theorem ruleTap_exit (hst : v.station = some st) :
    ruleTap v tb .P .normal cls tapTime img = ruleExit v tb st cls tapTime img := by
  simp only [ruleTap, hst, Option.getD_some]

theorem ruleTap_freeExit (hst : v.station = some st) (side : Side) :
    ruleTap v tb side .freeExit cls tapTime img = ruleFreeExit st tapTime img := by
  simp only [ruleTap, hst, Option.getD_some]

/-! ## The last exit (R35, R39) -/

theorem linkable_iff (p : Params) :
    linkable p tapTime img = true ↔
      (∃ e, img.lastExit = some e ∧ tapTime - e.time ≤ p.transferWindow) ∧ img.chainLegs < p.maxLegs := by
  unfold linkable elapsed
  cases img.lastExit with
  | none => simp
  | some e => simp

theorem graceExit_iff (p : Params) :
    graceExit p st tapTime img = true ↔
      ∃ e, img.lastExit = some e ∧ e.station = st.number ∧ tapTime - e.time ≤ p.grace := by
  unfold graceExit elapsed
  cases img.lastExit with
  | none => simp
  | some e => simp

/-! ## From OUTSIDE -/

theorem ruleEntry_outside (outside : img.journey = .outside) (p : Params) :
    ruleEntry p st cls tapTime img =
      if img.balance < cls.entryMin then .refuse .insufficient
      else
        .write { kind := .entry, charge := 0 }
          (if linkable p tapTime img then linkedEntry st tapTime img else unlinkedEntry st tapTime img) := by
  unfold ruleEntry
  rw [outside]

theorem ruleExit_outside (outside : img.journey = .outside) :
    ruleExit v tb st cls tapTime img =
      if graceExit v.params st tapTime img then .exitGrace
      else
        (v.priceMissing tb cls st.zones img tapTime).elim (.refuse .insufficient) fun q =>
          .write { kind := .missingEntryExit, charge := q.charge } (exitImage st tapTime 4 q img) := by
  unfold ruleExit
  rw [outside]
  cases v.priceMissing tb cls st.zones img tapTime <;> rfl

theorem ruleFreeExit_outside (outside : img.journey = .outside) : ruleFreeExit st tapTime img = .free := by
  unfold ruleFreeExit
  rw [outside]

/-! ## From IN_SYSTEM -/

theorem ruleEntry_inSystem (inside : img.journey = .inSystem) (p : Params) :
    ruleEntry p st cls tapTime img =
      if img.entryStation = st.number ∧ tapTime - img.entryTime ≤ p.grace then
        if img.graceUsed then .refuse .passback
        else .write { kind := .graceEntry, charge := 0 } { img with graceUsed := true }
      else if img.balance - (p.penalty : Int) < cls.entryMin then .refuse .insufficient
      else
        .write { kind := .penaltyEntry, charge := p.penalty }
          { unlinkedEntry st tapTime img with balance := img.balance - (p.penalty : Int) } := by
  unfold ruleEntry
  rw [inside]
  rfl

theorem ruleExit_inSystem (inside : img.journey = .inSystem) :
    ruleExit v tb st cls tapTime img =
      (v.priceExit tb cls st.zones img tapTime).elim (.refuse .insufficient) fun q =>
        .write { kind := .exit, charge := q.charge } (exitImage st tapTime img.chainLegs q img) := by
  unfold ruleExit
  rw [inside]
  cases v.priceExit tb cls st.zones img tapTime <;> rfl

theorem ruleFreeExit_inSystem (inside : img.journey = .inSystem) :
    ruleFreeExit st tapTime img =
      .write { kind := .freeExit, charge := 0 }
        { img with
          journey := .outside, lastExit := some { station := st.number, time := tapTime }, graceUsed := false } := by
  unfold ruleFreeExit
  rw [inside]

/-- Settles O53: the rule by side and path, then its cases by the journey of the image read. -/
theorem checkElevenFollowsTheRules : Obligations.CheckElevenFollowsTheRules := by
  intro v tb cls tapTime img st hst
  rw [ruleTap_entry hst, ruleTap_exit hst, ruleTap_freeExit hst]
  refine ⟨fun outside => ?_, fun inside => ?_⟩
  · rw [ruleEntry_outside outside, ruleExit_outside outside, ← linkable_iff, ← graceExit_iff]
    refine ⟨fun poor => if_pos poor, fun funded => ⟨fun linked => ?_, fun unlinked => ?_⟩, fun grace => if_pos grace,
      fun late => ⟨fun unpriced => ?_, fun q priced => ?_⟩, ruleFreeExit_outside outside⟩
    · rw [if_neg (Int.not_lt.2 funded), if_pos linked, linkedEntry]
    · rw [if_neg (Int.not_lt.2 funded), if_neg unlinked, unlinkedEntry]
    · rw [if_neg late, unpriced, Option.elim_none]
    · rw [if_neg late, priced, Option.elim_some, exitImage, outside]
  · rw [ruleEntry_inSystem inside, ruleExit_inSystem inside]
    refine ⟨fun grace => if_pos grace, fun late => ?_, fun unpriced => ?_, fun q priced => ?_,
      ruleFreeExit_inSystem inside⟩
    · rw [if_neg late, unlinkedEntry, inside]
    · rw [unpriced, Option.elim_none]
    · rw [priced, Option.elim_some, exitImage]

end Sys2Proof.Machine
end

section
/-! The aisle while no request waits: a freed slot stays free and no port is granted one, so that clearing the credits
changes the aisle alone (R117 to R120, R123). -/

namespace Sys2Proof.Machine

variable {s t : State} {side : Side} {k j : SlotId} {g : Passage}

/-! ## A slot is given back -/

theorem Claim.slot_setSlot_ne (c : Claim) (h : Option Holder) (hjk : j ≠ k) : (c.setSlot k h).slot j = c.slot j := by
  cases j <;> cases k <;> simp_all [Claim.slot, Claim.setSlot]

theorem Claim.setSlot_lastGranted (c : Claim) (k : SlotId) (h : Option Holder) :
    (c.setSlot k h).lastGranted = c.lastGranted := by cases k <;> rfl

theorem Claim.release_lastGranted (c : Claim) (b : Bool) : (c.release b).lastGranted = c.lastGranted := by
  unfold Claim.release
  split <;> rfl

/-- No request waits for a slot. -/
def Passage.unwaited (g : Passage) : Prop := ∀ d, g.claim.waits d = false

/-- The aisle with a slot free, and the claim without a direction where that leaves it empty (R117, R120). -/
def Passage.vacate (k : SlotId) (g : Passage) : Passage :=
  { g with claim := (g.claim.setSlot k none).release g.occupants.isEmpty }

theorem Passage.vacate_waits (g : Passage) (k : SlotId) (d : Side) :
    (g.vacate k).claim.waits d = g.claim.waits d := by
  rw [Passage.vacate, Claim.release_waits, Claim.setSlot_waits]

theorem Passage.vacate_slot (g : Passage) (k j : SlotId) :
    (g.vacate k).claim.slot j = if k = j then none else g.claim.slot j := by
  rw [Passage.vacate, Claim.release_slot]
  split
  · subst k
    exact Claim.slot_setSlot ..
  · rename_i h
    exact Claim.slot_setSlot_ne _ _ (Ne.symm h)

theorem Passage.vacate_lastGranted (g : Passage) (k : SlotId) :
    (g.vacate k).claim.lastGranted = g.claim.lastGranted := by
  rw [Passage.vacate, Claim.release_lastGranted, Claim.setSlot_lastGranted]

theorem judgeWaiting_unwaited (h : s.passage.unwaited) : s.judgeWaiting = s :=
  State.judgeWaiting_none fun d hd => absurd hd.1 (by simp [h d])

theorem freeSlot_unwaited (k : SlotId) (h : s.passage.unwaited) : s.freeSlot k = s.onPassage (Passage.vacate k) :=
  judgeWaiting_unwaited fun d => (s.passage.vacate_waits k d).trans (h d)

/-! ## Credits leave the list (R120, R123) -/

/-- The aisle without the credit of a slot, the slot free. -/
def Passage.uncredit (g : Passage) (k : SlotId) : Passage := (g.dropCredit k).vacate k

theorem Passage.uncredit_unwaited (k : SlotId) (h : g.unwaited) : (g.uncredit k).unwaited := fun d =>
  ((g.dropCredit k).vacate_waits k d).trans (h d)

theorem removeCredit_unwaited (k : SlotId) (h : s.passage.unwaited) :
    s.removeCredit k = s.onPassage fun g => g.uncredit k := freeSlot_unwaited k h

/-- The aisle without the credits of a list. -/
def Passage.uncreditAll (cs : List Credit) (g : Passage) : Passage := cs.foldl (fun g c => g.uncredit c.slot) g

/-- Credits have left the aisle: their slots stand free, occupants keep their places, and the rest is as it was. -/
structure Uncredited (cs : List Credit) (g h : Passage) : Prop where
  rest : h = { g with claim := h.claim, credits := h.credits, occupants := h.occupants }
  credits : h.credits = g.credits.filter fun d => cs.all fun c => d.slot != c.slot
  places : h.occupants.map (fun o => (o.direction, o.stage)) = g.occupants.map fun o => (o.direction, o.stage)
  waits : ∀ d, h.claim.waits d = g.claim.waits d
  slot : ∀ k, h.claim.slot k = if ∃ c ∈ cs, c.slot = k then none else g.claim.slot k
  lastGranted : h.claim.lastGranted = g.claim.lastGranted

theorem uncredit_uncredited (g : Passage) (c : Credit) : Uncredited [c] g (g.uncredit c.slot) where
  rest := rfl
  credits := by simp [Passage.uncredit, Passage.vacate, Passage.dropCredit]
  places := by
    show (List.map _ (List.map _ g.occupants)) = _
    rw [List.map_map]
    refine List.map_congr_left fun o _ => ?_
    simp only [Function.comp]
    split <;> rfl
  waits := (g.dropCredit c.slot).vacate_waits c.slot
  slot k := by
    simp only [List.mem_singleton, exists_eq_left]
    exact (g.dropCredit c.slot).vacate_slot c.slot k
  lastGranted := (g.dropCredit c.slot).vacate_lastGranted c.slot

theorem Uncredited.trans {as bs : List Credit} {g h i : Passage} (first : Uncredited as g h)
    (second : Uncredited bs h i) : Uncredited (as ++ bs) g i where
  rest := by rw [second.rest, first.rest]
  credits := by
    rw [second.credits, first.credits, List.filter_filter]
    exact congrArg (g.credits.filter ·) (funext fun d => by rw [List.all_append, Bool.and_comm])
  places := second.places.trans first.places
  waits d := (second.waits d).trans (first.waits d)
  slot k := by
    rw [second.slot, first.slot]
    by_cases ha : ∃ c ∈ as, c.slot = k
    · simp [ha, or_and_right, exists_or]
    · simp [ha, or_and_right, exists_or]
  lastGranted := second.lastGranted.trans first.lastGranted

theorem uncreditAll_uncredited (cs : List Credit) (g : Passage) : Uncredited cs g (g.uncreditAll cs) := by
  induction cs generalizing g with
  | nil => exact ⟨rfl, by simp [Passage.uncreditAll], rfl, fun _ => rfl, fun _ => by simp [Passage.uncreditAll], rfl⟩
  | cons c cs ih => exact (uncredit_uncredited g c).trans (ih _)

/-- The aisle without its credits has none. -/
theorem uncreditAll_none (g : Passage) : (g.uncreditAll g.credits).credits = [] := by
  rw [(uncreditAll_uncredited g.credits g).credits, List.filter_eq_nil_iff]
  intro d hd all
  simpa using List.all_eq_true.1 all d hd

/-- A clearing takes the credits off the aisle; what its cause adds to that stays outside aisle and ports (R123). -/
theorem foldl_clearCredit_unwaited (cause : ClearCause) (cs : List Credit) (h : s.passage.unwaited) :
    let t := cs.foldl (State.clearCredit cause) s
    t = { s with
      screening := t.screening, link := t.link, passage := s.passage.uncreditAll cs, journal := t.journal,
      host := t.host } := by
  induction cs generalizing s with
  | nil => rfl
  | cons c cs ih =>
    have one : s.clearCredit cause c =
        { s with
          screening := (s.clearCredit cause c).screening, link := (s.clearCredit cause c).link,
          passage := s.passage.uncredit c.slot, journal := (s.clearCredit cause c).journal,
          host := (s.clearCredit cause c).host } := by
      unfold State.clearCredit
      rw [removeCredit_unwaited c.slot h]
      cases cause <;> simp only [ClearCause.reason, ClearCause.lapses, State.recordUnused, if_true, Bool.false_eq_true,
        if_false]
      · exact ((Screened.of_append _ _).trans (lapseCredit_spec c _).1).rest
      · exact (Screened.of_append _ _).rest
      · exact (lapseCredit_spec c _).1.rest
    have passage : (s.clearCredit cause c).passage = s.passage.uncredit c.slot := by rw [one]
    simp only [List.foldl_cons]
    have later := ih (s := s.clearCredit cause c) (by rw [passage]; exact Passage.uncredit_unwaited c.slot h)
    simp only at later
    generalize cs.foldl (State.clearCredit cause) (s.clearCredit cause c) = t at later ⊢
    rw [later, one]
    rfl

end Sys2Proof.Machine
end

section
/-! The start of a line emergency, block by block: what it does to the aisle, to a tap that waits at either port, to
the journal and to the replies (R31, R123, R139, R145, R146, R167). -/

namespace Sys2Proof.Machine

variable {s t a b u : State} {side : Side} {c : TapContext} {reason : RefusalReason} {cause : EmergencyCause}

/-! ## Records of events (R155, R156) -/

theorem takenFrom_halted (level count : Nat) {xs : List RecBody} (events : ∀ b ∈ xs, b.kind.cls = .event) :
    takenFrom level true count xs = [] := by
  induction xs with
  | nil => rfl
  | cons b bs ih =>
    rw [takenFrom, if_pos ⟨rfl, events b List.mem_cons_self⟩]
    exact ih fun x hx => events x (List.mem_cons_of_mem _ hx)

/-- A halted journal takes no event. -/
theorem Journals.skipped {xs : List RecBody} (h : Journals s t xs) (events : ∀ b ∈ xs, b.kind.cls = .event)
    (halted : s.journal.halted = true) : t.journal = s.journal := by
  obtain ⟨⟨records, next⟩, stands⟩ := h
  rw [State.taken, halted, takenFrom_halted _ _ events] at records next stands
  cases hj : t.journal
  cases hk : s.journal
  simp_all [numbered]

/-- A journal that is not halted takes the first record offered. -/
theorem Journals.first {b : RecBody} {xs : List RecBody} (h : Journals s t (b :: xs))
    (open_ : s.journal.halted = false) : ∃ more, s.journal.grownBy t.journal s.time.now (b :: more) := by
  have grown := h.grown
  rw [State.taken, takenFrom, if_neg (by simp [open_])] at grown
  exact ⟨_, grown⟩

theorem dropRecords_event (l : Link) (ms : List LinkMsg) : ∀ b ∈ l.dropRecords ms, b.kind.cls = .event := by
  induction ms generalizing l with
  | nil => exact fun _ h => nomatch h
  | cons m ms ih =>
    intro b hb
    rw [Link.dropRecords, List.mem_append, List.mem_map] at hb
    obtain ⟨q, -, rfl⟩ | later := hb
    · rfl
    · exact ih _ b later

theorem HeldEnd.records_event (fate : HeldEnd) (card : CardNo) : ∀ b ∈ fate.records card, b.kind.cls = .event := by
  cases fate <;> simp [HeldEnd.records, RecKind.cls]

theorem refusalRecord_event (c : TapContext) (reason : RefusalReason) :
    (c.refusalRecord reason).kind.cls = .event := rfl

theorem Queued.of_raise (s : State) (k : NoticeKind) : Queued s (s.raise k) [] [] where
  rest := rfl
  link := rfl
  formed := by simp [State.syncAnswers, Link.dropReplies]
  records := .of_same rfl
  host := HostLink.eq_of_rest (by simp) (by simp) (by simp) (by simp) (by simp) (by simp) (by simp) (by simp) (by simp)
  told j h := State.tells_raise s j k h

theorem Tapped.of_raise (s : State) (k : NoticeKind) : Tapped side s (s.raise k) [] [] :=
  .of_screened (.of_queued (.of_raise s k))

/-! ## The aisle (R139) -/

/-- The aisle with both requests withdrawn. -/
def Passage.withdrawn (g : Passage) : Passage := { g with claim := { g.claim with waitU := false, waitP := false } }

theorem Passage.withdrawn_unwaited (g : Passage) : g.withdrawn.unwaited := fun d => by cases d <;> rfl

/-- The leaves as a line emergency opens them, in FAULT too (R134, R139). -/
def Passage.forceOpen (clock : Nat) (g : Passage) : Passage :=
  match g.leaf with
  | .closed | .closing | .fault => g.travelTo clock .opening
  | .opened => g.rest .heldOpen
  | .opening | .heldOpen => g

theorem Passage.forceOpen_rest (clock : Nat) (g : Passage) :
    g.forceOpen clock = { g with leaf := (g.forceOpen clock).leaf, travel := (g.forceOpen clock).travel } := by
  unfold Passage.forceOpen
  split <;> rfl

theorem settleLeaves_active (line : s.emergency.line = true) (sound : s.passage.leaf ≠ .fault) :
    s.settleLeaves = s.onPassage (Passage.forceOpen s.clock) := by
  unfold State.settleLeaves
  cases leaf : s.passage.leaf <;>
    simp_all [State.commandOpen, State.alarmsSuppressed, State.onPassage, Passage.forceOpen]

theorem clearCredits_emergency (cs : List Credit) (h : s.passage.unwaited) :
    let t := cs.foldl (State.clearCredit .emergency) s
    Tapped side s t [] (cs.map fun c => c.unused .emergency) ∧ t.screening = s.screening := by
  induction cs generalizing s with
  | nil => exact ⟨.refl s, rfl⟩
  | cons c cs ih =>
    have one : s.clearCredit .emergency c =
        (s.onPassage fun g => g.uncredit c.slot).append (c.unused .emergency) := by
      rw [← removeCredit_unwaited c.slot h]
      rfl
    obtain ⟨tapped, screening⟩ := ih (s := s.clearCredit .emergency c) (by
      rw [one, State.append_passage]
      exact Passage.uncredit_unwaited c.slot h)
    have first : Tapped side s (s.clearCredit .emergency c) [] [c.unused .emergency] := by
      rw [one]
      exact (Tapped.of_onPassage s side _).trans (.of_append _ _)
    refine ⟨first.trans tapped, screening.trans ?_⟩
    rw [one, State.append_screening]
    rfl

/-- The aisle as a line emergency takes it over, before the taps that wait (R139, R146). -/
def Passage.seized (clock : Nat) (g : Passage) : Passage :=
  (g.withdrawn.uncreditAll g.credits).forceOpen clock

/-- The part once a line emergency has taken the aisle over, before the taps that wait. -/
def State.seize (cause : EmergencyCause) (s : State) : State :=
  ((s.withdrawBoth.append (cause.record true)).raise .emergencyChange).aisleEmergency

theorem uncreditAll_unwaited (cs : List Credit) {g : Passage} (h : g.unwaited) : (g.uncreditAll cs).unwaited := fun d =>
  ((uncreditAll_uncredited cs g).waits d).trans (h d)

/-- The aisle under a line emergency: its credits go, and the leaves open (R139). -/
theorem aisleEmergency_eq (line : s.emergency.line = true) (h : s.passage.unwaited) :
    s.aisleEmergency = (s.clearCredits .emergency).onPassage (Passage.forceOpen s.clock) := by
  have cleared := foldl_clearCredit_unwaited .emergency s.passage.credits h
  simp only at cleared
  unfold State.aisleEmergency
  dsimp only
  rw [State.clearCredits]
  generalize s.passage.credits.foldl (State.clearCredit .emergency) s = t at cleared
  have passage : t.passage = s.passage.uncreditAll s.passage.credits := by rw [cleared]
  have clock : t.clock = s.clock := by rw [cleared]
  split
  · rename_i fault
    have leaf : t.passage.leaf = .fault := by simpa using fault
    have opens : t.passage.forceOpen t.clock = t.passage.travelTo t.clock .opening := by
      rw [Passage.forceOpen, leaf]
    rw [judgeWaiting_unwaited (s := t.onPassage _) (by
      show t.passage.unwaited
      rw [passage]
      exact uncreditAll_unwaited _ h), ← clock]
    exact (congrArg (fun g => ({ t with passage := g } : State)) opens).symm
  · rename_i sound
    rw [settleLeaves_active (by rw [cleared]; exact line) (by simpa using sound), clock]

theorem seize_spec (line : s.emergency.line = true) (cause : EmergencyCause) :
    let b := s.seize cause
    b = { s with passage := s.passage.seized s.clock, journal := b.journal, host := b.host } ∧
      Tapped .U s b [] (cause.record true :: s.passage.credits.map fun c => c.unused .emergency) ∧
      b.tells .emergencyChange = true := by
  let v := (s.withdrawBoth.append (cause.record true)).raise .emergencyChange
  have rest : v = { s with passage := s.passage.withdrawn, journal := v.journal, host := v.host } := by
    have appended := (Queued.of_append s.withdrawBoth (cause.record true)).rest
    show (s.withdrawBoth.append (cause.record true)).onHost _ = _
    rw [appended, State.append_link]
    rfl
  have before : Tapped .U s v [] [cause.record true] :=
    (Tapped.of_onPassage s .U _).trans ((Tapped.of_append _ _).trans (.of_raise _ _))
  have passage : v.passage = s.passage.withdrawn := by rw [rest]
  have unwaited : v.passage.unwaited := by rw [passage]; exact s.passage.withdrawn_unwaited
  have told : v.tells .emergencyChange = true := State.raise_tells _ _
  have vline : v.emergency.line = true := by rw [rest]; exact line
  have clock : v.clock = s.clock := by rw [rest]
  have credits : v.passage.credits = s.passage.credits := by rw [passage]; rfl
  have eq : s.seize cause = (v.clearCredits .emergency).onPassage (Passage.forceOpen v.clock) :=
    aisleEmergency_eq vline unwaited
  have frame := foldl_clearCredit_unwaited .emergency s.passage.credits unwaited
  obtain ⟨cleared, screening⟩ := clearCredits_emergency (side := .U) s.passage.credits unwaited
  have fold : v.clearCredits .emergency = s.passage.credits.foldl (State.clearCredit .emergency) v := by
    rw [State.clearCredits, credits]
  have link := cleared.link
  simp only at frame cleared screening link
  rw [← fold] at frame cleared screening link
  have tapped : Tapped .U s (s.seize cause) [] _ := (before.trans cleared).trans (by rw [eq]; exact .of_onPassage _ _ _)
  rw [List.append_nil, List.singleton_append] at tapped
  refine ⟨?_, tapped, ?_⟩
  · rw [eq]
    generalize v.clearCredits .emergency = w at *
    rw [frame, screening, link, clock, passage, rest]
    rfl
  · rw [eq]
    exact cleared.told _ told

end Sys2Proof.Machine
end

section
/-! The taps that wait when a line emergency starts: the one at Port U is refused, the one at Port P goes on without a
slot (R31, R86, R88, R120, R167). -/

namespace Sys2Proof.Machine

variable {s t a b u : State} {side : Side} {c : TapContext} {reason : RefusalReason} {cause : EmergencyCause}

/-! ## A set-back reads nothing but the Screening Unit and the time (R86, R88, R92, R93) -/

theorem denyFinding_congr (hs : s.screening = t.screening) (ht : s.time = t.time) (card : CardNo)
    (origin : DenyOrigin) : (s.denyFinding card origin).screening = (t.denyFinding card origin).screening := by
  simp [State.denyFinding, hs, ht]

theorem touchSighting_congr (hs : s.screening = t.screening) (ht : s.time = t.time) (e : Sighting) :
    (s.touchSighting e).screening = (t.touchSighting e).screening := by
  simp [State.touchSighting, hs, ht]

theorem cloneLate_screening (s : State) (card : CardNo) (src : Nat) :
    (s.cloneLate card src).screening = (s.denyFinding card .own).screening := by
  unfold State.cloneLate
  rw [noteFinding_rest]
  show (State.append _ _).screening = _
  rw [State.append_screening, enqueue_screening]

theorem inboundSighting_congr (hs : s.screening = t.screening) (ht : s.time = t.time) (src : Nat) (card : CardNo)
    (read written : SImage) :
    (s.inboundSighting src card read written).screening = (t.inboundSighting src card read written).screening := by
  unfold State.inboundSighting
  split
  · exact hs
  · rw [hs]
    split
    · simp [State.insertSighting, hs, ht]
    · rename_i e _
      split
      · unfold State.sightCommitted
        split_ifs
        · exact hs
        · exact touchSighting_congr hs ht _
        · rw [cloneLate_screening, cloneLate_screening, denyFinding_congr hs ht]
      · simp [State.sightPending, State.putSighting, hs]
      · unfold State.sightInDoubt
        split_ifs
        · exact touchSighting_congr (by simp [hs]) (by simp [ht]) _
        · exact touchSighting_congr (by simp [hs]) (by simp [ht]) _
        · exact hs

theorem applyHeld_congr (hs : s.screening = t.screening) (ht : s.time = t.time) (card : CardNo)
    (held : Option HeldUpdate) : (s.applyHeld card held).screening = (t.applyHeld card held).screening := by
  cases held with
  | none => exact hs
  | some h => exact inboundSighting_congr hs ht h.src card h.read h.written

theorem endUnwritten_congr (hs : s.screening = t.screening) (ht : s.time = t.time) (side : Side) (card : CardNo) :
    (s.endUnwritten side card).screening = (t.endUnwritten side card).screening := by
  unfold State.endUnwritten
  rw [hs]
  split
  · rename_i e p _
    refine applyHeld_congr ?_ ?_ card p.held <;> cases p.prior
    · simp [State.dropSighting, hs]
    · exact touchSighting_congr hs ht _
    · exact ht
    · exact ht
  · exact hs

theorem endUnwrittenTap_congr (hs : s.screening = t.screening) (ht : s.time = t.time) (side : Side) (c : TapContext) :
    (s.endUnwrittenTap side c).screening = (t.endUnwrittenTap side c).screening := by
  unfold State.endUnwrittenTap
  split
  · exact endUnwritten_congr hs ht side _
  · exact hs

/-- A set-back makes event records alone. -/
theorem endUnwrittenTap_events (s : State) (side : Side) (c : TapContext) :
    ∃ ms xs, Screened s (s.endUnwrittenTap side c) ms xs ∧ ∀ b ∈ xs, b.kind.cls = .event := by
  unfold State.endUnwrittenTap
  split
  · rename_i card _
    cases held : s.screening.heldBy side card with
    | none =>
      refine ⟨[], [], ?_, fun _ h => nomatch h⟩
      unfold State.endUnwritten
      rw [held]
      exact Screened.refl s
    | some ep =>
      obtain ⟨sighted, rfl, pending, own⟩ := heldBy_eq_some held
      refine ⟨_, _, (endUnwritten_spec sighted pending own).2.screened, fun b hb => ?_⟩
      obtain drop | rec_ := List.mem_append.1 hb
      · exact dropRecords_event _ _ b drop
      · exact HeldEnd.records_event _ _ b rec_
  · exact ⟨[], [], Screened.refl s, fun _ h => nomatch h⟩

/-! ## A tap gives up its slot or its request, and no other takes it (R21, R120) -/

/-- The aisle after a side has given up this slot, or its request where it has none. -/
def Passage.giveUp (side : Side) (slot : Option SlotId) (g : Passage) : Passage :=
  slot.elim { g with claim := g.claim.setWait side false } fun k => g.vacate k

theorem Passage.giveUp_rest (side : Side) (slot : Option SlotId) (g : Passage) :
    g.giveUp side slot = { g with claim := (g.giveUp side slot).claim } := by cases slot <;> rfl

theorem Passage.giveUp_unwaited {g : Passage} (h : g.unwaited) (side : Side) (slot : Option SlotId) :
    (g.giveUp side slot).unwaited := by
  cases slot with
  | none =>
    have := h .U
    have := h .P
    rintro (_ | _) <;> cases side <;> simp_all [Passage.giveUp, Claim.setWait, Claim.waits]
  | some k => exact fun d => (g.vacate_waits k d).trans (h d)

theorem Passage.giveUp_slot (side : Side) (slot : Option SlotId) (g : Passage) (k : SlotId) :
    (g.giveUp side slot).claim.slot k = if slot = some k then none else g.claim.slot k := by
  cases slot with
  | none => cases side <;> cases k <;> rfl
  | some j => simpa [Passage.giveUp] using g.vacate_slot j k

theorem releaseTap_unwaited (h : s.passage.unwaited) (hc : (s.port side).ctx = some c) :
    (s.releaseTap side).passage = s.passage.giveUp side c.slot ∧
      (s.releaseTap side).port (otherSide side) = s.port (otherSide side) ∧
      ∃ x, (s.releaseTap side).port side = { s.port side with ctx := x } := by
  unfold State.releaseTap
  rw [show (s.ctx side).bind TapContext.slot = c.slot by rw [State.ctx, hc]; rfl]
  cases slot : c.slot with
  | none => exact ⟨rfl, rfl, some c, by rw [← hc]; rfl⟩
  | some k =>
    have passage : (s.onCtx side fun c => { c with slot := none }).passage = s.passage := State.onPort_passage ..
    simp only
    rw [freeSlot_unwaited k (by rw [passage]; exact h)]
    refine ⟨?_, ?_, (s.port side).ctx.map fun c => { c with slot := none }, ?_⟩
    · show Passage.vacate k (s.onCtx side fun c => { c with slot := none }).passage = _
      rw [passage]
      rfl
    · rw [State.onPassage_port, State.onCtx, State.onPort_other]
    · rw [State.onPassage_port, State.onCtx, State.onPort_port]

/-! ## The refusal of a tap that waits (R31, R42) -/

/-- A port whose tap has been refused rests, its STOP hold running (R21, R24). -/
def Port.refusedAt (clock : Nat) (rest : PortState) (p : Port) : Port :=
  { p.close rest with stopHold := some (clock + 2000) }

/-- A refusal while no request waits: which blocks it changes, aisle and ports exactly. -/
structure RefusedAlone (s t : State) (side : Side) (reason : RefusalReason) (c : TapContext) : Prop where
  rest : t =
    { s with
      portU := t.portU, portP := t.portP, screening := t.screening, link := t.link, passage := t.passage,
      journal := t.journal, service := t.service, host := t.host }
  passage : t.passage = s.passage.giveUp side c.slot
  port : t.port side = (s.port side).refusedAt s.clock (s.restState side .done)
  other : t.port (otherSide side) = s.port (otherSide side)
  screening : t.screening = (s.endUnwrittenTap side c).screening
  service : t.service = s.drained side
  ended : TapEnded s t side (c.refusalResult reason)
  records : ∃ more, Journals s t more ∧ ∀ b ∈ more, b.kind.cls = .event
  link : ∃ ms, t.link = s.link.withFrames ms
  formed : ∃ more, t.formed = s.formed ++ more
  told : ∀ k, s.tells k = true → t.tells k = true
  plain : s.holdsNoEntry side c.card →
    t.link = s.link ∧ t.formed = s.formed ++ s.drainAnswers side ∧
      Journals s t (if reason = .journalFull then [] else [c.refusalRecord reason])

/-- The end of a tap does not need the transmitter's choice. -/
theorem TapEnded.of_pump {r : TapResult} (h : TapEnded s t.pump side r) : TapEnded s t side r := by
  obtain ⟨state, context, exchange, deadline, aisleWait, result, told, service, drain⟩ := h
  simp only [State.pump_port, State.pump_tells_eq, State.pump_service] at *
  refine ⟨state, context, exchange, deadline, aisleWait, ?_, told, service, drain⟩
  rw [← result]
  cases side <;> simp [HostLink.result]

/-- A state is what the transmitter's choice leaves of it, but for the host link. -/
theorem eq_of_pump (t : State) : t = { t.pump with host := t.host } := by rw [State.pump_rest t]

theorem refuse_alone (h : s.passage.unwaited) (hc : (s.port side).ctx = some c) (reason : RefusalReason) :
    RefusedAlone s (s.refuse side reason) side reason c := by
  obtain ⟨ms, xs, screened, events⟩ := endUnwrittenTap_events (s.recordRefusal c reason) side c
  have rec_ := recordRefusal_rest s c reason
  have ends := refuse_ends (reason := reason) (Tapped.refl s) hc (.of_screened screened)
  have screening : ((s.recordRefusal c reason).endUnwrittenTap side c).screening =
      (s.endUnwrittenTap side c).screening := endUnwrittenTap_congr (by rw [rec_]) (by rw [rec_]) side c
  have plain : s.holdsNoEntry side c.card →
      EndsTap s (s.beforeRefusal side c reason) (s.refuse side reason).pump side (c.refusalResult reason) []
        (if reason = .journalFull then [] else [c.refusalRecord reason]) := fun free => by
    have noEntry : (s.recordRefusal c reason).endUnwrittenTap side c = s.recordRefusal c reason :=
      endUnwrittenTap_without (by rw [rec_]; exact free)
    have ends := refuse_ends (reason := reason) (Tapped.refl s) hc (by rw [noEntry]; exact Tapped.refl _)
    rwa [List.append_nil, List.append_nil] at ends
  have before : s.beforeRefusal side c reason =
      (((s.recordRefusal c reason).endUnwrittenTap side c).releaseTap side).holdStop side := rfl
  generalize (s.recordRefusal c reason).endUnwrittenTap side c = x at screened screening before
  have xrest : x = { s with screening := x.screening, link := x.link, journal := x.journal, host := x.host } := by
    rw [screened.rest, rec_]
  have passage : x.passage = s.passage := by rw [xrest]
  have ports : ∀ d, x.port d = s.port d := fun d => by rw [xrest]; rfl
  obtain ⟨gives, other, y, port⟩ := releaseTap_unwaited (s := x) (by rw [passage]; exact h) (by rw [ports]; exact hc)
  have vpassage : (s.beforeRefusal side c reason).passage = s.passage.giveUp side c.slot := by
    rw [before, holdStop_passage, gives, passage]
  have vother : (s.beforeRefusal side c reason).port (otherSide side) = s.port (otherSide side) := by
    rw [before, State.holdStop, State.onPort_other, other, ports]
  have vport : (s.beforeRefusal side c reason).port side =
      { s.port side with ctx := y, stopHold := some (s.clock + 2000) } := by
    have clock : (x.releaseTap side).clock = s.clock := by rw [(released_releaseTap x side).rest, xrest]
    rw [before, State.holdStop, State.onPort_port, port, ports, clock]
    rfl
  have vtold : ∀ k, s.tells k = true → (s.beforeRefusal side c reason).tells k = true := fun k hk => by
    have vhost : (s.beforeRefusal side c reason).host = x.host := by rw [before, releaseTap_holdStop_rest]
    rw [State.tells, vhost]
    exact screened.told k ((Tapped.of_recordRefusal (side := side) s c reason).told k hk)
  have vrest := releaseTap_holdStop_rest x side
  rw [← before] at vrest
  generalize s.beforeRefusal side c reason = v at *
  have trest := eq_of_pump (s.refuse side reason)
  have tells := State.pump_tells_eq (s.refuse side reason)
  have formed := State.pump_formed (s.refuse side reason)
  have ended := ends.toTapEnded.of_pump
  generalize s.refuse side reason = t at *
  have frame := ends.rest
  generalize t.pump = q at *
  have tport : ∀ d, t.port d = q.port d := fun d => by rw [trest]; rfl
  have journal : t.journal = q.journal := by rw [trest]
  have link : t.link = q.link := by rw [trest]
  have whole : t =
      { s with
        portU := t.portU, portP := t.portP, screening := x.screening, link := t.link, passage := v.passage,
        journal := t.journal, service := t.service, host := t.host } := by
    rw [trest, frame, vrest, xrest]
  refine ⟨?_, ?_, ?_, ?_, ?_, ?_, ended, ⟨_, ends.records.congr journal, ?_⟩, ⟨_, link.trans ends.link⟩,
    ⟨s.syncAnswers ([] ++ ms) ++ s.drainAnswers side, ?_⟩, fun k hk => ?_, fun free => ?_⟩
  · rw [whole]
  · rw [whole]
    exact vpassage
  · rw [tport, ends.port, vport]
    rfl
  · rw [tport, ends.other, vother]
  · rw [whole]
    exact screening
  · exact ended.service
  · intro b hb
    rw [List.nil_append, List.mem_append] at hb
    obtain refusal | later := hb
    · split at refusal
      · cases refusal
      · rw [List.mem_singleton.1 refusal]
        exact refusalRecord_event c reason
    · exact events b later
  · rw [← formed, ends.formed, List.append_assoc]
  · rw [← tells, ends.tells, vtold k hk]
    rfl
  · obtain ends := plain free
    refine ⟨link.trans ends.link, ?_, ends.records.congr journal⟩
    rw [← formed, ends.formed]
    simp [State.syncAnswers, Link.dropReplies]

end Sys2Proof.Machine
end

section
/-! A line emergency starts or ends, as the statements put it (R31, R123, R133, R134, R139, R145 to R147, R167). -/

namespace Sys2Proof.Machine

variable {s t a b u : State} {c : TapContext} {cause : EmergencyCause}

/-! ## The start, block by block -/

/-- The tap that waits at Port U. -/
def State.waitingAtU (s : State) : Option TapContext := if s.portU.state = .waitAisle then s.portU.ctx else none

theorem waitingAtU_some (h : s.waitingAtU = some c) : s.portU.state = .waitAisle ∧ s.portU.ctx = some c := by
  unfold State.waitingAtU at h
  split at h
  · exact ⟨‹_›, h⟩
  · cases h

theorem waitingAtU_none : s.waitingAtU = none ↔ (s.portU.state = .waitAisle → s.portU.ctx = none) := by
  unfold State.waitingAtU
  split <;> simp_all

/-- A port once a line emergency has started at Port P: a tap that waits goes on without a slot (R31). -/
def Port.exitsFree (clock : Nat) (p : Port) : Port :=
  if p.state = .waitAisle then p.beginReading clock .freeExit none else p

/-- What a start does to each block: `a` is the part with the line emergency state set, `u` the part after it. -/
structure Starts (a u : State) (cause : EmergencyCause) : Prop where
  rest : u =
    { a with
      portU := u.portU, portP := u.portP, screening := u.screening, link := u.link, passage := u.passage,
      journal := u.journal, service := u.service, host := u.host }
  passage : u.passage =
    a.waitingAtU.elim (a.passage.seized a.clock) fun c => (a.passage.seized a.clock).giveUp .U c.slot
  portU : u.portU = a.waitingAtU.elim a.portU fun _ => a.portU.refusedAt a.clock (a.restState .U .done)
  portP : u.portP = a.portP.exitsFree a.clock
  screening : u.screening = a.waitingAtU.elim a.screening fun c => (a.endUnwrittenTap .U c).screening
  service : u.service = a.waitingAtU.elim a.service fun _ => a.drained .U
  ended : ∀ c, a.waitingAtU = some c → TapEnded a u .U (c.refusalResult .emergency)
  records : ∃ more, Journals a u (cause.record true :: more) ∧ ∀ b ∈ more, b.kind.cls = .event
  link : ∃ ms, u.link = a.link.withFrames ms
  formed : ∃ more, u.formed = a.formed ++ more
  told : ∀ k, a.tells k = true → u.tells k = true
  change : u.tells .emergencyChange = true
  plain : (∀ c, a.waitingAtU = some c → a.holdsNoEntry .U c.card) →
    u.link = a.link ∧ u.formed = a.formed ++ a.startReplies ∧ Journals a u (a.startRecords (cause.record true))

/-- A tap has ended all the same in a part whose other blocks went on. -/
theorem TapEnded.carried {r : TapResult} (h : TapEnded b u .U r) (service : a.service = b.service)
    (idle : a.portP.ctx = b.portP.ctx) (port : t.portU = u.portU) (after : t.service = u.service)
    (result : t.host.tapU = u.host.tapU) (told : ∀ k, u.tells k = true → t.tells k = true) : TapEnded a t .U r := by
  have disabled : a.disabled .U = b.disabled .U := by simp only [State.disabled, service]
  have drains : a.drains .U = b.drains .U := by simp only [State.drains, State.port, otherSide, service, idle]
  have same : t.port .U = u.port .U := port
  obtain ⟨state, context, exchange, deadline, aisleWait, shown, notice, drained, drain⟩ := h
  refine ⟨?_, ?_, ?_, ?_, ?_, ?_, told _ notice, ?_, fun hd => told _ (drain (drains ▸ hd))⟩
  · rw [same, disabled]
    exact state
  · rw [same]
    exact context
  · rw [same]
    exact exchange
  · rw [same]
    exact deadline
  · rw [same]
    exact aisleWait
  · exact result.trans shown
  · rw [after, drained, State.drained, State.drained, drains, service]

theorem startRecords_waiting (h : a.waitingAtU = some c) (start : RecBody) :
    a.startRecords start =
      start :: (a.passage.credits.map fun c => c.unused .emergency) ++ [c.refusalRecord .emergency] := by
  obtain ⟨waits, ctx⟩ := waitingAtU_some h
  rw [State.startRecords, if_pos waits, ctx]
  rfl

theorem startRecords_none (h : a.waitingAtU = none) (start : RecBody) :
    a.startRecords start = start :: a.passage.credits.map fun c => c.unused .emergency := by
  rw [State.startRecords]
  split
  · rename_i waits
    rw [waitingAtU_none.1 h waits]
    simp
  · simp

theorem startReplies_eq (a : State) : a.startReplies = a.waitingAtU.elim [] fun _ => a.drainAnswers .U := by
  unfold State.startReplies State.waitingAtU
  cases a.portU.ctx <;> by_cases waits : a.portU.state = .waitAisle <;> simp [waits]

/-- The start once the aisle is taken over: the tap that waits at Port U. -/
theorem emergencyPortU_eq (b : State) :
    b.emergencyPortU = b.waitingAtU.elim b fun _ => b.refuse .U .emergency := by
  unfold State.emergencyPortU State.waitingAtU
  split
  · cases ctx : b.portU.ctx with
    | none =>
      unfold State.refuse
      rw [show b.ctx .U = none from ctx]
      rfl
    | some c => rfl
  · rfl

theorem emergencyPortP_eq (b : State) : b.emergencyPortP = { b with portP := b.portP.exitsFree b.clock } := by
  unfold State.emergencyPortP Port.exitsFree
  split <;> rfl

theorem starts_emergencyStarts (line : a.emergency.line = true) (cause : EmergencyCause) :
    Starts a (a.emergencyStarts cause) cause := by
  obtain ⟨rest, tapped, change⟩ := seize_spec line cause
  have unwaited : (a.seize cause).passage.unwaited := by
    rw [rest]
    show (a.passage.seized a.clock).unwaited
    rw [Passage.seized, Passage.forceOpen_rest]
    exact uncreditAll_unwaited _ a.passage.withdrawn_unwaited
  have path : a.emergencyStarts cause = (a.seize cause).emergencyPortU.emergencyPortP := rfl
  rw [path, emergencyPortP_eq]
  generalize hb : a.seize cause = b at *
  have waiting : b.waitingAtU = a.waitingAtU := by rw [rest]; rfl
  have credits_event : ∀ x ∈ a.passage.credits.map fun c => c.unused .emergency, x.kind.cls = .event := by
    simp [Credit.unused, RecKind.cls]
  have formed : b.formed = a.formed := by simpa [State.syncAnswers, Link.dropReplies] using tapped.formed
  rw [emergencyPortU_eq, waiting]
  cases who : a.waitingAtU with
  | none =>
    simp only [Option.elim_none]
    refine ⟨?_, ?_, ?_, ?_, ?_, ?_, fun _ h => (nomatch who.symm.trans h), ⟨_, tapped.records.congr rfl, credits_event⟩,
      ⟨_, tapped.link⟩, ⟨[], ?_⟩, tapped.told,
      change, fun _ => ⟨tapped.link, ?_, ?_⟩⟩
    · rw [rest]
    · rw [rest, who]; rfl
    · rw [rest, who]; rfl
    · rw [rest]
    · rw [rest, who]; rfl
    · rw [rest, who]; rfl
    · rw [List.append_nil]; exact formed
    · have replies : a.startReplies = [] := by rw [startReplies_eq, who]; rfl
      rw [replies, List.append_nil]
      exact formed
    · rw [startRecords_none who]; exact tapped.records.congr rfl
  | some c =>
    simp only [Option.elim_some]
    have hc : (b.port .U).ctx = some c := (waitingAtU_some (waiting.trans who)).2
    have refused := refuse_alone unwaited hc .emergency
    generalize b.refuse .U .emergency = w at *
    have clock : w.clock = a.clock := by rw [refused.rest, rest]
    have portP : w.portP = a.portP := refused.other.trans (by rw [rest]; rfl)
    have drains : b.drains .U = a.drains .U := by rw [rest]; rfl
    obtain ⟨later, records, events⟩ := refused.records
    have time : b.time = a.time := by rw [rest]
    have params : b.service.params = a.service.params := by rw [rest]
    have free : (∀ c', a.waitingAtU = some c' → a.holdsNoEntry .U c'.card) → b.holdsNoEntry .U c.card :=
      fun h => by rw [rest]; exact h c who
    refine ⟨?_, ?_, ?_, ?_, ?_, ?_, fun c' hc' => ?_, ⟨_, (tapped.records.append records time params).congr rfl, ?_⟩,
      ?_, ?_, fun k hk => refused.told k (tapped.told k hk), refused.told _ change, fun h => ?_⟩
    · rw [refused.rest, rest]
    · rw [who, Option.elim_some]
      exact refused.passage.trans (by rw [rest])
    · rw [who, Option.elim_some]
      exact refused.port.trans (by rw [rest]; rfl)
    · show w.portP.exitsFree w.clock = _
      rw [portP, clock]
    · rw [who, Option.elim_some]
      exact refused.screening.trans (endUnwrittenTap_congr (by rw [rest]) (by rw [rest]) .U c)
    · rw [who, Option.elim_some]
      exact refused.service.trans (by rw [rest]; rfl)
    · obtain rfl := Option.some.inj (who.symm.trans hc')
      exact refused.ended.carried (by rw [rest]) (by rw [rest]) rfl rfl rfl fun _ h => h
    · intro x hx
      obtain credit | late := List.mem_append.1 hx
      · exact credits_event x credit
      · exact events x late
    · obtain ⟨ms, link⟩ := refused.link
      exact ⟨ms, link.trans (by rw [rest])⟩
    · obtain ⟨more, grown⟩ := refused.formed
      exact ⟨more, grown.trans (by rw [formed])⟩
    · obtain ⟨link, formed', record⟩ := refused.plain (free h)
      refine ⟨link.trans (by rw [rest]), ?_, ?_⟩
      · rw [startReplies_eq, who, Option.elim_some, ← tapped.drainAnswers, ← formed]
        exact formed'
      · rw [startRecords_waiting who]
        exact (tapped.records.append record time params).congr rfl

/-! ## The start as a whole -/

theorem Passage.forceOpen_opening (clock : Nat) {g : Passage}
    (h : g.leaf = .closed ∨ g.leaf = .closing ∨ g.leaf = .fault) :
    (g.forceOpen clock).leaf = .opening ∧ (g.forceOpen clock).travel = some (clock + 1500) := by
  obtain h | h | h := h <;> simp [Passage.forceOpen, h, Passage.travelTo, Config.travelMs]

theorem Passage.forceOpen_opened (clock : Nat) {g : Passage} (h : g.leaf = .opened) :
    (g.forceOpen clock).leaf = .heldOpen ∧ (g.forceOpen clock).travel = none := by
  simp [Passage.forceOpen, h, Passage.rest]

theorem Passage.forceOpen_stays (clock : Nat) {g : Passage} (h : g.leaf = .opening ∨ g.leaf = .heldOpen) :
    g.forceOpen clock = g := by
  obtain h | h := h <;> simp [Passage.forceOpen, h]

/-- What the start leaves of claim, credits and occupants (R120, R123, R146). -/
theorem Passage.seized_spec (clock : Nat) (g : Passage) :
    g.seized clock =
        { g with
          claim := (g.seized clock).claim, credits := [], occupants := (g.seized clock).occupants,
          leaf := (g.forceOpen clock).leaf, travel := (g.forceOpen clock).travel } ∧
      (g.seized clock).unwaited ∧
      (∀ k, (g.seized clock).claim.slot k = if ∃ c ∈ g.credits, c.slot = k then none else g.claim.slot k) ∧
      (g.seized clock).occupants.map (fun o => (o.direction, o.stage)) =
        g.occupants.map fun o => (o.direction, o.stage) := by
  have gone := uncreditAll_uncredited g.credits g.withdrawn
  have none_ : (g.withdrawn.uncreditAll g.credits).credits = [] := uncreditAll_none g.withdrawn
  have path : g.seized clock = (g.withdrawn.uncreditAll g.credits).forceOpen clock := rfl
  have unwaited := uncreditAll_unwaited g.credits g.withdrawn_unwaited
  rw [path, Passage.forceOpen_rest]
  generalize g.withdrawn.uncreditAll g.credits = h at *
  have leaves : (h.forceOpen clock).leaf = (g.forceOpen clock).leaf ∧
      (h.forceOpen clock).travel = (g.forceOpen clock).travel := by
    have leaf : h.leaf = g.leaf := by rw [gone.rest]; rfl
    have travel : h.travel = g.travel := by rw [gone.rest]; rfl
    unfold Passage.forceOpen
    rw [leaf]
    split <;> exact ⟨by simp [Passage.travelTo, Passage.rest, leaf], by simp [Passage.travelTo, Passage.rest, travel]⟩
  refine ⟨?_, unwaited, fun k => (gone.slot k).trans ?_, gone.places⟩
  · rw [leaves.1, leaves.2]
    have frame := gone.rest
    rw [none_] at frame
    rw [frame]
    rfl
  · cases k <;> rfl

/-- The aisle after a start: the tap refused at Port U has given its slot up too. -/
theorem Starts.aisle (h : Starts a u cause) :
    u.passage = { a.passage.seized a.clock with claim := u.passage.claim } ∧ u.passage.unwaited ∧
      ∀ k, u.passage.claim.slot k =
        if a.waitingAtU.bind TapContext.slot = some k then none else (a.passage.seized a.clock).claim.slot k := by
  obtain ⟨-, unwaited, -, -⟩ := a.passage.seized_spec a.clock
  rw [h.passage]
  cases a.waitingAtU with
  | none => exact ⟨rfl, unwaited, fun _ => rfl⟩
  | some c =>
    exact ⟨Passage.giveUp_rest .U c.slot _, Passage.giveUp_unwaited unwaited .U c.slot,
      Passage.giveUp_slot .U c.slot _⟩

/-- A start as the statements put it; `t` is the part once the command's own reply, `after`, has been formed. -/
theorem Starts.started {after : List Reply} (h : Starts a u cause) (line : a.emergency.line = true)
    (rest : t = { u with host := t.host }) (told : ∀ k, u.tells k = true → t.tells k = true)
    (result : t.host.tapU = u.host.tapU) (formed : t.formed = u.formed ++ after) :
    EmergencyStarted a t (cause.record true) a.link after := by
  obtain ⟨aisle, unwaited, slots⟩ := h.aisle
  obtain ⟨seized, -, freed, places⟩ := a.passage.seized_spec a.clock
  have passage : t.passage = u.passage := by rw [rest]
  have portU : t.portU = u.portU := by rw [rest]
  have portP : t.portP = u.portP := by rw [rest]
  have journal : t.journal = u.journal := by rw [rest]
  have service : t.service = u.service := by rw [rest]
  have leaf : t.passage.leaf = (a.passage.forceOpen a.clock).leaf := by rw [passage, aisle, seized]
  have travel : t.passage.travel = (a.passage.forceOpen a.clock).travel := by rw [passage, aisle, seized]
  have entersP : t.portP = a.portP.exitsFree a.clock := portP.trans h.portP
  obtain ⟨more, records, events⟩ := h.records
  have records : Journals a t _ := records.congr journal
  refine ⟨told _ h.change, ?_, ?_, fun c hc => ?_, fun k side hk uncredited free => ?_, ?_, ?_, fun c waits ctx => ?_,
    fun c waits ctx => ?_, ⟨fun idle => ?_, fun idle => ?_⟩, fun idle => ?_, fun held => ⟨?_, ?_⟩, fun moves => ?_,
    fun opened => ?_, fun stays => ?_, records.first, records.skipped ?_, fun free => ?_⟩
  · rw [rest, h.rest]
    exact line
  · rw [passage, aisle, seized]
  · rw [passage, slots, freed]
    split
    · rfl
    · exact if_pos ⟨c, hc, rfl⟩
  · have mine : a.waitingAtU.bind TapContext.slot = none := by
      cases who : a.waitingAtU with
      | none => rfl
      | some c => exact free (waitingAtU_some who).1 c (waitingAtU_some who).2
    rw [passage, slots, mine, if_neg nofun, freed, if_neg fun ⟨c, hc, hck⟩ => uncredited c hc hck, hk]
  · rw [passage]
    exact ⟨unwaited .U, unwaited .P⟩
  · rw [passage, aisle]
    exact places
  · have who : a.waitingAtU = some c := by rw [State.waitingAtU, if_pos waits, ctx]
    refine ⟨(h.ended c who).carried rfl rfl portU service result told, ?_⟩
    rw [portU, h.portU, who]
    rfl
  · rw [entersP, Port.exitsFree, if_pos waits, Port.beginReading_eq, ctx]
    cases a.portP.deadline <;> rfl
  · rw [portU, h.portU, waitingAtU_none.2 fun waits => absurd waits idle]
    rfl
  · rw [entersP, Port.exitsFree, if_neg idle]
  · have none_ : a.waitingAtU = none := waitingAtU_none.2 fun waits => idle.resolve_left (not_not.2 waits)
    rw [service, h.service, none_]
    rfl
  · rw [portU, h.portU]
    cases who : a.waitingAtU with
    | none => exact fun waits => held waits (waitingAtU_none.1 who waits)
    | some c =>
      show a.restState .U .done ≠ _
      unfold State.restState
      split <;> exact fun h => nomatch h
  · rw [entersP, Port.exitsFree]
    split
    · exact fun h => nomatch h
    · assumption
  · rw [leaf, travel]
    exact Passage.forceOpen_opening a.clock moves
  · rw [leaf, travel]
    exact Passage.forceOpen_opened a.clock opened
  · rw [leaf, travel, Passage.forceOpen_stays a.clock stays]
    exact ⟨rfl, rfl⟩
  · intro b hb
    obtain rfl | later := List.mem_cons.1 hb
    · rfl
    · exact events b later
  · have unheld : ∀ c, a.waitingAtU = some c → a.holdsNoEntry .U c.card := fun c who =>
      free (waitingAtU_some who).1 c (waitingAtU_some who).2
    obtain ⟨link, replies, record⟩ := h.plain unheld
    refine ⟨?_, ?_, ?_, record.congr journal⟩
    · rw [rest]
      show u.screening = _
      rw [h.screening]
      cases who : a.waitingAtU with
      | none => rfl
      | some c => rw [Option.elim_some, endUnwrittenTap_without (unheld c who)]
    · rw [rest]
      exact link
    · rw [formed, replies]

/-! ## The end -/

/-- The leaves once a line emergency has ended (R133, R134, R139). -/
theorem settleLeaves_released (line : s.emergency.line = false) : AisleReleased s s.settleLeaves := by
  have frame : s.settleLeaves.passage =
      { s.passage with leaf := s.settleLeaves.passage.leaf, travel := s.settleLeaves.passage.travel } := by
    conv_lhs => rw [settleLeaves_rest]
  have leaves : s.settleLeaves.passage.leaf = s.leafReleased ∧
      s.settleLeaves.passage.travel =
        if s.leafReleased = s.passage.leaf then s.passage.travel
        else if s.leafReleased = .opening ∨ s.leafReleased = .closing then some (s.clock + 1500) else none := by
    unfold State.settleLeaves State.closeIfClear State.leafReleased State.commandOpen State.alarmsSuppressed
    rw [line]
    cases leaf : s.passage.leaf <;> cases hold : s.passage.holdOpen <;> cases zone : s.pins.leaf <;>
      cases credits : s.passage.credits <;>
      simp [leaf, hold, zone, credits, Passage.travelTo, Passage.rest, Config.travelMs, line]
  exact ⟨leaves.1 ▸ frame, leaves.2⟩

theorem AisleReleased.congr (h : AisleReleased b u) (passage : s.passage = b.passage) (clock : s.clock = b.clock)
    (pins : s.pins = b.pins) : AisleReleased s u := by
  obtain ⟨aisle, travel⟩ := h
  have leaf : s.leafReleased = b.leafReleased := by simp only [State.leafReleased, passage, pins]
  exact ⟨by rw [aisle, passage, leaf], by rw [travel, passage, leaf, clock]⟩

/-- What an end does to each block: its record and notice, and the leaves. -/
structure Ends (a u : State) (cause : EmergencyCause) : Prop where
  rest : u = { a with passage := u.passage, journal := u.journal, host := u.host }
  released : AisleReleased a u
  records : Journals a u [cause.record false]
  formed : u.formed = a.formed
  host : u.host = { a.host with replies := u.host.replies, notices := u.host.notices }
  told : ∀ k, a.tells k = true ∨ k = .emergencyChange → u.tells k = true

theorem ends_emergencyEnds (line : a.emergency.line = false) (cause : EmergencyCause) :
    Ends a (a.emergencyEnds cause) cause := by
  let v := (a.append (cause.record false)).raise .emergencyChange
  have queued : Queued a v [] [cause.record false] := (Queued.of_append a _).trans (.of_raise _ _)
  have frame : v = { a with journal := v.journal, host := v.host } := by
    have link : v.link = a.link := queued.link
    have rest := queued.rest
    rwa [link] at rest
  have told : ∀ k, a.tells k = true ∨ k = .emergencyChange → v.tells k = true := by
    rintro k (hk | rfl)
    · exact queued.told k hk
    · exact State.raise_tells _ _
  have released := (settleLeaves_released (s := v) (by rw [frame]; exact line)).congr (s := a) (by rw [frame])
    (by rw [frame]) (by rw [frame])
  have path : a.emergencyEnds cause = v.settleLeaves := rfl
  rw [path]
  have rest := settleLeaves_rest v
  generalize v.settleLeaves = u at *
  have journal : u.journal = v.journal := by rw [rest]
  have host : u.host = v.host := by rw [rest]
  refine ⟨?_, released, queued.records.congr journal, ?_, ?_, fun k hk => ?_⟩
  · rw [rest, frame]
  · have formed : v.formed = a.formed := by simpa [State.syncAnswers, Link.dropReplies] using queued.formed
    rw [State.formed, host]
    exact formed
  · rw [host]
    exact queued.host
  · rw [State.tells, host]
    exact told k hk

theorem Journals.of_event {r : RecBody} (h : Journals s t [r]) (event : r.kind.cls = .event) :
    s.journal.grownBy t.journal s.time.now (if s.journal.halted = true then [] else [r]) := by
  have grown := h.grown
  rw [State.taken, takenFrom, event] at grown
  simpa [takenFrom] using grown

/-- An end as the statements put it. -/
theorem Ends.ended (h : Ends a u cause) (line : a.emergency.line = false) (rest : t = { u with host := t.host })
    (told : ∀ k, u.tells k = true → t.tells k = true) : EmergencyEnded a t (cause.record false) where
  aisle := by
    rw [rest]
    exact h.released.aisle
  travel := by
    rw [rest]
    exact h.released.travel
  told := told _ (h.told _ (.inr rfl))
  line := by
    rw [rest, h.rest]
    exact line
  record := by
    rw [rest]
    exact h.records.of_event rfl
  ports := by
    rw [rest, h.rest]
    exact ⟨rfl, rfl⟩
  tables := by rw [rest, h.rest]

/-! ## The judging (R145) -/

theorem judgeEmergency_stays (h : s.emergency.line = s.lineJudged) : s.judgeEmergency cause = s := by
  unfold State.judgeEmergency
  rw [← h]
  cases s.emergency.line <;> rfl

theorem judgeEmergency_starts (line : s.emergency.line = false) (judged : s.lineJudged = true) :
    s.judgeEmergency cause = (s.onEmergency fun e => { e with line := true }).emergencyStarts cause := by
  unfold State.judgeEmergency
  rw [line, judged]

theorem judgeEmergency_ends (line : s.emergency.line = true) (judged : s.lineJudged = false) :
    s.judgeEmergency cause = (s.onEmergency fun e => { e with line := false }).emergencyEnds cause := by
  unfold State.judgeEmergency
  rw [line, judged]

/-- The line emergency state after a judging is what it is judged to be (R145). -/
theorem judgeEmergency_emergency (s : State) (cause : EmergencyCause) :
    (s.judgeEmergency cause).emergency = { s.emergency with line := s.lineJudged } := by
  cases line : s.emergency.line <;> cases judged : s.lineJudged
  · rw [judgeEmergency_stays (line.trans judged.symm), ← line]
  · rw [judgeEmergency_starts line judged, (starts_emergencyStarts rfl cause).rest]
    rfl
  · rw [judgeEmergency_ends line judged, (ends_emergencyEnds rfl cause).rest]
    rfl
  · rw [judgeEmergency_stays (line.trans judged.symm), ← line]

end Sys2Proof.Machine
end

section
/-! A change of the own contribution, by the fire input or the host's flag (R141, R142, R145). -/

namespace Sys2Proof.Machine

variable {s t a b u v w : State} {cause : EmergencyCause} {f : Emergency → Emergency}

/-! ## Seen from before the change -/

/-- Frames change the queue and the SYNC_LINEs alone. -/
theorem Link.withFrame_rest (l : Link) (m : LinkMsg) :
    l.withFrame m = { l with queue := (l.withFrame m).queue, syncs := (l.withFrame m).syncs } := by
  unfold Link.withFrame
  split_ifs
  · rfl
  · rfl
  · cases l.drivenOut m <;> rfl

theorem Link.withFrames_rest (l : Link) (ms : List LinkMsg) :
    l.withFrames ms = { l with queue := (l.withFrames ms).queue, syncs := (l.withFrames ms).syncs } := by
  induction ms generalizing l with
  | nil => rfl
  | cons m ms ih =>
    rw [Link.withFrames, List.foldl_cons]
    exact (ih _).trans (by rw [Link.withFrame_rest l m]; rfl)

/-- `a` differs from `s` by the contribution that starts or ends the emergency, and by a request's place on the line. -/
structure Moved (s a : State) : Prop where
  rest : a = { s with pins := a.pins, emergency := a.emergency, link := a.link, host := a.host }
  formed : a.formed = s.formed
  resetTaken : a.host.resetTaken = s.host.resetTaken

theorem EmergencyStarted.moved {start : RecBody} {link : Link} {after : List Reply}
    (h : EmergencyStarted a t start link after) (m : Moved s a) : EmergencyStarted s t start link after := by
  obtain ⟨rest, formed, reset⟩ := m
  have replies : a.startReplies = s.startReplies := by
    rw [startReplies_eq, startReplies_eq, State.drainAnswers, reset, rest]
    rfl
  have plain := h.rest
  rw [formed, replies] at plain
  have refused := h.refused
  rw [rest] at h plain refused
  exact { h with
    refused := fun c waits ctx => by
      obtain ⟨ended, stop⟩ := refused c waits ctx
      exact ⟨{ ended with }, stop⟩
    rest := fun free => by
      obtain ⟨tables, line, answers, records⟩ := plain free
      exact ⟨tables, line, answers, records.grown, records.halted⟩ }

theorem EmergencyEnded.moved {finish : RecBody} (h : EmergencyEnded a t finish) (m : Moved s a)
    (pins : a.pins.leaf = s.pins.leaf) : EmergencyEnded s t finish := by
  obtain ⟨rest, -, -⟩ := m
  have leaf : a.leafReleased = s.leafReleased := by
    unfold State.leafReleased
    rw [pins, rest]
  have aisle := h.aisle
  have travel := h.travel
  rw [leaf] at aisle travel
  rw [rest] at h aisle travel
  exact { h with aisle := aisle, travel := travel }

/-! ## The four ways a change of the own contribution goes (R141, R145) -/

/-- The part once the contribution has changed and the link has been told (R104). -/
def State.withOwn (f : Emergency → Emergency) (s : State) : State :=
  (s.onEmergency f).onLink (Link.ownChanged (f s.emergency).own)

theorem withOwn_eq (s : State) (f : Emergency → Emergency) :
    s.withOwn f =
      { s with
        emergency := f s.emergency, link := { s.link with deassertPending := !(f s.emergency).own } } := rfl

theorem changeOwn_unmoved (h : (f s.emergency).own = s.emergency.own) : s.changeOwn f cause = s.onEmergency f :=
  if_pos h

theorem changeOwn_moved (h : (f s.emergency).own ≠ s.emergency.own) :
    s.changeOwn f cause = ((s.withOwn f).judgeEmergency cause).raise .emergencyChange := if_neg h

theorem changeOwn_emergency (line : s.lineOk) (kept : (f s.emergency).line = s.emergency.line) :
    (s.changeOwn f cause).emergency =
      { f s.emergency with line := (f s.emergency).own || s.link.rows.any MemberRow.contributes } := by
  by_cases h : (f s.emergency).own = s.emergency.own
  · rw [changeOwn_unmoved h, h, ← State.lineJudged, ← line, ← kept]
    rfl
  · rw [changeOwn_moved h, State.raise_emergency, judgeEmergency_emergency]
    rfl

/-- The part with the line emergency state set. -/
def State.withLine (active : Bool) (s : State) : State := s.onEmergency fun e => { e with line := active }

/-- Peers that contribute hold the line emergency (R145). -/
theorem changeOwn_held (line : s.lineOk) (kept : (f s.emergency).line = s.emergency.line)
    (moved : (f s.emergency).own ≠ s.emergency.own) (peers : s.link.rows.any MemberRow.contributes = true) :
    s.changeOwn f cause = (s.withOwn f).raise .emergencyChange := by
  have stays : (s.withOwn f).emergency.line = (s.withOwn f).lineJudged := by
    have active : s.emergency.line = true := by rw [line, State.lineJudged, peers, Bool.or_true]
    have judged : (s.withOwn f).lineJudged = ((f s.emergency).own || s.link.rows.any MemberRow.contributes) := rfl
    rw [judged, peers, Bool.or_true]
    exact kept.trans active
  rw [changeOwn_moved moved, judgeEmergency_stays stays]

theorem changeOwn_starts (line : s.lineOk) (kept : (f s.emergency).line = s.emergency.line)
    (before : s.emergency.own = false) (after : (f s.emergency).own = true)
    (alone : s.link.rows.any MemberRow.contributes = false) :
    ∃ u, Starts ((s.withOwn f).withLine true) u cause ∧ s.changeOwn f cause = u.raise .emergencyChange := by
  have quiet : s.emergency.line = false := by rw [line, State.lineJudged, before, alone, Bool.or_false]
  have judged : (s.withOwn f).lineJudged = ((f s.emergency).own || s.link.rows.any MemberRow.contributes) := rfl
  refine ⟨_, starts_emergencyStarts rfl cause, ?_⟩
  rw [changeOwn_moved (by simp [before, after]), judgeEmergency_starts (kept.trans quiet) (by simp [judged, after])]
  rfl

theorem changeOwn_ends (line : s.lineOk) (kept : (f s.emergency).line = s.emergency.line)
    (before : s.emergency.own = true) (after : (f s.emergency).own = false)
    (alone : s.link.rows.any MemberRow.contributes = false) :
    ∃ u, Ends ((s.withOwn f).withLine false) u cause ∧ s.changeOwn f cause = u.raise .emergencyChange := by
  have active : s.emergency.line = true := by rw [line, State.lineJudged, before, Bool.true_or]
  have judged : (s.withOwn f).lineJudged = ((f s.emergency).own || s.link.rows.any MemberRow.contributes) := rfl
  refine ⟨_, ends_emergencyEnds rfl cause, ?_⟩
  rw [changeOwn_moved (by simp [before, after]),
    judgeEmergency_ends (kept.trans active) (by rw [judged, after, alone]; rfl)]
  rfl

/-! ## The fire input (R141) -/

/-- The part with the levels of a change of the fire input taken. -/
theorem exec_fireInputChange (s : State) (level : Bool) :
    exec (.fireInputChange level) s =
      .next ((s.onPins fun p => { p with fire := level }).changeOwn (fun e => { e with fire := level }) .fire).pump :=
  rfl

/-- The part with this fire input and this line emergency state, the link told of the own contribution. -/
def State.withFire (level line : Bool) (s : State) : State :=
  ((s.onPins fun p => { p with fire := level }).withOwn fun e => { e with fire := level }).withLine line

theorem moved_withFire (s : State) (level line : Bool) : Moved s (s.withFire level line) := ⟨rfl, rfl, rfl⟩

/-- A command that ends in this part formed no reply. -/
theorem Ends.silent (h : Ends a u cause) (formed : a.formed = s.formed) (host : a.host = s.host) :
    Silent s (u.raise .emergencyChange).pump := by
  have line := h.host
  rw [host] at line
  exact Silent.of_pump (by rw [State.raise_host_window, line]) (by rw [State.raise_formed, h.formed, formed])
    (by rw [State.raise_host_tx, line]) (by rw [State.raise_host_speed, line])
    (by rw [State.raise_host_resetTaken, line]) (by rw [State.raise_host_rxInFrame, line])
    (by rw [State.raise_host_tapU, State.raise_host_tapP, line]; exact ⟨rfl, rfl⟩)
    (by rw [State.raise_host_finding, line]) (by rw [State.raise_host_findings, line])

theorem raise_pump_rest (u : State) (k : NoticeKind) :
    (u.raise k).pump = { u with host := (u.raise k).pump.host } := by
  rw [State.pump_rest]
  rfl

theorem raise_pump_tells (u : State) (k j : NoticeKind) : (u.raise k).pump.tells j = (u.tells j || j == k) := by
  rw [State.pump_tells_eq, State.raise_tells_eq]

/-- The notice of a change told beside nothing else. -/
theorem told_raise_pump (host : a.host = s.host) (k : NoticeKind) : Told s (a.raise k).pump [k] := by
  refine Told.of_silent (Silent.of_pump ?_ ?_ ?_ ?_ ?_ ?_ ?_ ?_ ?_) rfl fun j => ?_
  · rw [State.raise_host_window, host]
  · rw [State.raise_formed, State.formed, host, State.formed]
  · rw [State.raise_host_tx, host]
  · rw [State.raise_host_speed, host]
  · rw [State.raise_host_resetTaken, host]
  · rw [State.raise_host_rxInFrame, host]
  · rw [State.raise_host_tapU, State.raise_host_tapP, host]
    exact ⟨rfl, rfl⟩
  · rw [State.raise_host_finding, host]
  · rw [State.raise_host_findings, host]
  · rw [State.raise_tells_eq, State.tells, host, State.tells]
    simp [beq_eq_decide]

/-- Settles O29: the own contribution stays, or moves under peers that hold the emergency, or ends it, or starts it. -/
theorem fireInputMovesTheOwnContribution : Obligations.FireInputMovesTheOwnContribution := by
  intro s level line
  have taken (level : Bool) : (s.onPins fun p => { p with fire := level }).lineOk := line
  refine ⟨fun same => ⟨_, exec_fireInputChange s level, ?_⟩, fun unset other peers =>
    ⟨_, exec_fireInputChange s level, ?_⟩, fun unset fire alone => ⟨_, exec_fireInputChange s false, ?_⟩,
    fun unset fire alone => ⟨_, exec_fireInputChange s true, ?_⟩⟩
  · rw [changeOwn_unmoved (by obtain same | same := same <;> simp [Emergency.own, same])]
    exact ⟨Told.of_host rfl, by rw [State.pump_rest]; rfl⟩
  · rw [changeOwn_held (taken level) rfl (by simp [Emergency.own, unset, other]) peers, withOwn_eq]
    refine ⟨told_raise_pump (s := s) (by rfl) _, ?_⟩
    rw [raise_pump_rest]
    simp [Emergency.own, unset]
  · obtain ⟨u, ends, path⟩ := changeOwn_ends (cause := .fire) (f := fun e => { e with fire := false }) (taken false) rfl
      (by simp [Emergency.own, fire]) (by simp [Emergency.own, unset]) alone
    rw [path]
    refine ⟨ends.silent rfl rfl, ?_, ?_, ?_⟩
    · rw [raise_pump_tells, ends.told _ (.inr rfl)]
      rfl
    · have own : Emergency.own { s.emergency with fire := false } = false := by simp [Emergency.own, unset]
      have frame := ends.rest
      rw [State.withLine, withOwn_eq] at frame
      rw [raise_pump_rest, frame]
      simp [own]
    · exact (ends.ended rfl (raise_pump_rest u _) fun k hk => by rw [raise_pump_tells, hk]; rfl).moved
        (moved_withFire s false false) rfl
  · obtain ⟨u, starts, path⟩ := changeOwn_starts (cause := .fire) (f := fun e => { e with fire := true }) (taken true)
      rfl (by simp [Emergency.own, unset, fire]) (by simp [Emergency.own]) alone
    rw [path]
    obtain ⟨ms, link⟩ := starts.link
    refine ⟨?_, ?_, ?_⟩
    · rw [State.pump_emergency, State.raise_emergency, starts.rest]
      rfl
    · rw [State.pump_link, State.raise_link, link, Link.withFrames_rest]
      rfl
    · have started := starts.started (after := []) rfl (raise_pump_rest u .emergencyChange)
        (fun k hk => by rw [raise_pump_tells, hk]; rfl) (by simp) (by simp)
      exact started.moved (moved_withFire s true true)

end Sys2Proof.Machine
end

section
/-! The host's emergency flag, and the reply that shows what follows from it (R142). -/

namespace Sys2Proof.Machine

variable {s t a u v w : State} {tag : Byte} {flag : Bool}

/-! ## The request -/

/-- The part with the request in the window. -/
def State.asked (tag : Byte) (s : State) : State := s.endHostFrame.enter tag

/-- The part once the flag has been set, before the reply. -/
def State.flagged (tag : Byte) (flag : Bool) (s : State) : State :=
  (s.asked tag).changeOwn (fun e => { e with hostFlag := flag }) .host

/-- The part with this host flag and this line emergency state, the link told of the own contribution. -/
def State.withFlag (tag : Byte) (flag line : Bool) (s : State) : State :=
  ((s.asked tag).withOwn fun e => { e with hostFlag := flag }).withLine line

theorem moved_withFlag (s : State) (tag : Byte) (flag line : Bool) : Moved s (s.withFlag tag flag line) :=
  ⟨rfl, rfl, rfl⟩

theorem exec_emergencyRequest (admitted : s.admits tag (if flag then .setEmergency else .clearEmergency)) :
    exec (if flag then .setEmergency tag [] else .clearEmergency tag []) s =
      .next ((s.flagged tag flag).reply tag (if flag then .setEmergency else .clearEmergency)
        (s.flagged tag flag).emergencyBody).pump := by
  cases flag
  · exact request_value (tag := tag) (kind := .clearEmergency) () _ admitted
  · exact request_value (tag := tag) (kind := .setEmergency) () _ admitted

/-! ## What holds however the change goes -/

theorem flagged_inner (s : State) (tag : Byte) (flag : Bool) : Inner (s.asked tag) (s.flagged tag flag) :=
  changeOwn_inner _ _ rfl (Inner.refl _)

theorem flagged_emergency (line : s.lineOk) (tag : Byte) (flag : Bool) :
    (s.flagged tag flag).emergency =
      { fire := s.emergency.fire, hostFlag := flag,
        line := s.emergency.fire || flag || s.link.rows.any MemberRow.contributes } :=
  changeOwn_emergency (s := s.asked tag) line rfl

/-- The four ways a request goes: the own contribution stays; it moves and peers hold the emergency; it ends it; it
starts it (R141, R142, R145). -/
inductive FlagMoves (s : State) (tag : Byte) (flag : Bool) : Prop where
  | stays (own : s.emergency.hostFlag = flag ∨ s.emergency.fire = true)
    (path : s.flagged tag flag = (s.asked tag).onEmergency fun e => { e with hostFlag := flag })
  | held (fire : s.emergency.fire = false) (other : s.emergency.hostFlag = !flag)
    (peers : s.link.rows.any MemberRow.contributes = true)
    (path : s.flagged tag flag =
      ((s.asked tag).withOwn fun e => { e with hostFlag := flag }).raise .emergencyChange)
  | ends (u : State) (fire : s.emergency.fire = false) (other : s.emergency.hostFlag = true) (clears : flag = false)
    (alone : s.link.rows.any MemberRow.contributes = false) (ended : Ends (s.withFlag tag false false) u .host)
    (path : s.flagged tag flag = u.raise .emergencyChange)
  | starts (u : State) (fire : s.emergency.fire = false) (other : s.emergency.hostFlag = false) (sets : flag = true)
    (alone : s.link.rows.any MemberRow.contributes = false) (started : Starts (s.withFlag tag true true) u .host)
    (path : s.flagged tag flag = u.raise .emergencyChange)

theorem flagged_cases (line : s.lineOk) (tag : Byte) (flag : Bool) : FlagMoves s tag flag := by
  have taken : (s.asked tag).lineOk := line
  by_cases own : s.emergency.hostFlag = flag ∨ s.emergency.fire = true
  · refine .stays own (changeOwn_unmoved ?_)
    show Emergency.own { s.emergency with hostFlag := flag } = s.emergency.own
    obtain own | own := own <;> simp [Emergency.own, own]
  · rw [not_or, Bool.not_eq_true] at own
    obtain ⟨differs, fire⟩ := own
    have other : s.emergency.hostFlag = !flag := by cases flag <;> simp_all
    cases alone : s.link.rows.any MemberRow.contributes with
    | true =>
      refine .held fire other alone (changeOwn_held taken rfl ?_ alone)
      show Emergency.own { s.emergency with hostFlag := flag } ≠ s.emergency.own
      simp [Emergency.own, fire, other]
    | false =>
      cases flag with
      | false =>
        obtain ⟨u, ended, path⟩ := changeOwn_ends (cause := .host) (f := fun e => { e with hostFlag := false }) taken
          rfl
          (show s.emergency.own = true by simp [Emergency.own, other])
          (show Emergency.own { s.emergency with hostFlag := false } = false by simp [Emergency.own, fire]) alone
        exact .ends u fire other rfl alone ended path
      | true =>
        obtain ⟨u, started, path⟩ := changeOwn_starts (cause := .host) (f := fun e => { e with hostFlag := true }) taken
          rfl
          (show s.emergency.own = false by simp [Emergency.own, fire, other])
          (show Emergency.own { s.emergency with hostFlag := true } = true by simp [Emergency.own]) alone
        exact .starts u fire other rfl alone started path

theorem flagged_same (same : s.emergency.hostFlag = flag) : s.flagged tag flag = s.asked tag := by
  subst same
  exact changeOwn_unmoved rfl

/-- Only a start forms replies before the request's own (R167). -/
theorem flagged_formed (line : s.lineOk) (tag : Byte) (flag : Bool) :
    ∃ before, (s.flagged tag flag).formed = s.formed ++ before ∧
      (s.emergency.line = true ∨ (s.flagged tag flag).emergency.line = false → before = []) := by
  have state := flagged_emergency line tag flag
  obtain ⟨-, path⟩ | ⟨-, -, -, path⟩ | ⟨u, -, -, -, -, ended, path⟩ | ⟨u, fire, other, rfl, alone, started, path⟩ :=
    flagged_cases line tag flag
  · exact ⟨[], by rw [path, List.append_nil]; rfl, fun _ => rfl⟩
  · exact ⟨[], by rw [path, State.raise_formed, List.append_nil]; rfl, fun _ => rfl⟩
  · exact ⟨[], by rw [path, State.raise_formed, ended.formed, List.append_nil]; rfl, fun _ => rfl⟩
  · obtain ⟨more, formed⟩ := started.formed
    refine ⟨more, by rw [path, State.raise_formed, formed]; rfl, fun h => ?_⟩
    rw [state, line, State.lineJudged, Emergency.own, fire, other, alone] at h
    simp at h

theorem flagged_rows (line : s.lineOk) (tag : Byte) (flag : Bool) : (s.flagged tag flag).link.rows = s.link.rows := by
  obtain ⟨-, path⟩ | ⟨-, -, -, path⟩ | ⟨u, -, -, -, -, ended, path⟩ | ⟨u, -, -, -, -, started, path⟩ :=
    flagged_cases line tag flag
  · rw [path]
    rfl
  · rw [path]
    rfl
  · rw [path, State.raise_link, ended.rest]
    rfl
  · obtain ⟨ms, link⟩ := started.link
    rw [path, State.raise_link, link, Link.withFrames_rest]
    rfl

/-- Where the line emergency state stays, nothing is recorded (R142). -/
theorem flagged_journal (line : s.lineOk) (stays : (s.flagged tag flag).emergency.line = s.emergency.line) :
    (s.flagged tag flag).journal = s.journal := by
  have state := flagged_emergency line tag flag
  obtain ⟨-, path⟩ | ⟨-, -, -, path⟩ | ⟨u, fire, other, rfl, alone, -, -⟩ | ⟨u, fire, other, rfl, alone, -, -⟩ :=
    flagged_cases line tag flag
  · rw [path]
    rfl
  · rw [path]
    rfl
  all_goals
    rw [state, line, State.lineJudged, Emergency.own, fire, other, alone] at stays
    simp at stays

/-- The own contribution stands by the fire input: the flag is shown and nothing follows. -/
theorem flagged_underFire (fire : s.emergency.fire = true) :
    s.flagged tag flag = (s.asked tag).onEmergency fun e => { e with hostFlag := flag } :=
  changeOwn_unmoved (by
    show Emergency.own { s.emergency with hostFlag := flag } = s.emergency.own
    simp [Emergency.own, fire])

/-- A reply formed last, with what was there before it. -/
theorem reply_pump_rest (u : State) (tag : Byte) (kind : ReqKind) (body : ReplyBody) :
    (u.reply tag kind body).pump = { u with host := (u.reply tag kind body).pump.host } := by
  have replied : u.reply tag kind body = { u with host := (u.reply tag kind body).host } := by
    unfold State.reply
    split <;> rfl
  rw [State.pump_rest]
  generalize (u.reply tag kind body).pump.host = h
  rw [replied]

theorem reply_pump_tells (u : State) (tag : Byte) (kind : ReqKind) (body : ReplyBody) (k : NoticeKind) :
    (u.reply tag kind body).pump.tells k = u.tells k := by
  rw [State.pump_tells_eq, State.reply_tells]

/-- The part that answers a moved own contribution. -/
def State.flagAnswered (tag : Byte) (flag : Bool) (s : State) : State :=
  ((s.flagged tag flag).reply tag (if flag then .setEmergency else .clearEmergency)
    (.emergency flag (s.emergency.fire || flag) (s.flagged tag flag).emergency.line)).pump

/-- A moved own contribution is told to the host and to the link (R104, R141). -/
theorem flagged_told (line : s.lineOk) (other : s.emergency.hostFlag = !flag) (fire : s.emergency.fire = false) :
    (s.flagged tag flag).tells .emergencyChange = true ∧ (s.flagged tag flag).link.deassertPending = !flag := by
  obtain ⟨own, -⟩ | ⟨-, -, -, path⟩ | ⟨u, -, -, rfl, -, ended, path⟩ | ⟨u, -, -, rfl, -, started, path⟩ :=
    flagged_cases line tag flag
  · simp [other, fire] at own
  · rw [path]
    refine ⟨State.raise_tells _ _, ?_⟩
    show (!Emergency.own { s.emergency with hostFlag := flag }) = _
    simp [Emergency.own, fire]
  · rw [path]
    refine ⟨State.raise_tells _ _, ?_⟩
    rw [State.raise_link, ended.rest]
    show (!Emergency.own { s.emergency with hostFlag := false }) = _
    simp [Emergency.own, fire]
  · obtain ⟨ms, link⟩ := started.link
    rw [path]
    refine ⟨State.raise_tells _ _, ?_⟩
    rw [State.raise_link, link, Link.withFrames_rest]
    show (!Emergency.own { s.emergency with hostFlag := true }) = _
    simp [Emergency.own]

/-- Peers hold the emergency: the flag and the link, and nothing else. -/
theorem flagged_held (line : s.lineOk) (other : s.emergency.hostFlag = !flag) (fire : s.emergency.fire = false)
    (stays : (s.flagged tag flag).emergency.line = s.emergency.line) :
    s.flagged tag flag = ((s.asked tag).withOwn fun e => { e with hostFlag := flag }).raise .emergencyChange := by
  have state := flagged_emergency line tag flag
  obtain ⟨own, -⟩ | ⟨-, -, -, path⟩ | ⟨u, -, flags, rfl, alone, -, -⟩ | ⟨u, -, flags, rfl, alone, -, -⟩ :=
    flagged_cases line tag flag
  · simp [other, fire] at own
  · exact path
  all_goals
    rw [state, line, State.lineJudged, Emergency.own, fire, flags, alone] at stays
    simp at stays

theorem flagAnswered_ends (line : s.lineOk) (other : s.emergency.hostFlag = true) (fire : s.emergency.fire = false)
    (quiet : (s.flagged tag false).emergency.line = false) :
    EmergencyEnded s (s.flagAnswered tag false) { kind := .emergencyEnd, reason := some .host } ∧
      s.flagAnswered tag false =
        { s with
          emergency := { s.emergency with hostFlag := false, line := false },
          link := { s.link with deassertPending := true }, passage := (s.flagAnswered tag false).passage,
          journal := (s.flagAnswered tag false).journal, host := (s.flagAnswered tag false).host } := by
  have state := flagged_emergency line tag false
  obtain ⟨own, -⟩ | ⟨-, -, peers, -⟩ | ⟨u, -, -, -, -, ended, path⟩ | ⟨u, -, -, sets, -, -, -⟩ :=
    flagged_cases line tag false
  · simp [other, fire] at own
  · rw [state, peers] at quiet
    simp at quiet
  · have rest : s.flagAnswered tag false = { u with host := (s.flagAnswered tag false).host } := by
      rw [State.flagAnswered, reply_pump_rest, path]
      rfl
    refine ⟨(ended.ended rfl rest fun k hk => ?_).moved (moved_withFlag s tag false false) rfl, ?_⟩
    · rw [State.flagAnswered, reply_pump_tells, path, State.raise_tells_eq, hk]
      rfl
    · have own : Emergency.own { s.emergency with hostFlag := false } = false := by simp [Emergency.own, fire]
      have frame := ended.rest
      rw [State.withFlag, State.withLine, withOwn_eq] at frame
      rw [rest, frame]
      simp [State.asked, State.endHostFrame, State.enter, own]
  · cases sets

theorem flagAnswered_starts (line : s.lineOk) (other : s.emergency.hostFlag = false) (fire : s.emergency.fire = false)
    (quiet : s.emergency.line = false) (open_ : s.host.resetTaken = false) :
    EmergencyStarted s (s.flagAnswered tag true) { kind := .emergencyStart, reason := some .host }
      { s.link with deassertPending := false } [Reply.inWindow tag .setEmergency (.emergency true true true)] := by
  have state := flagged_emergency line tag true
  obtain ⟨own, -⟩ | ⟨-, -, peers, -⟩ | ⟨u, -, -, clears, -, -, -⟩ | ⟨u, -, -, -, -, started, path⟩ :=
    flagged_cases line tag true
  · simp [other, fire] at own
  · rw [line, State.lineJudged, peers, Bool.or_true] at quiet
    cases quiet
  · cases clears
  · have reset : (s.flagged tag true).host.resetTaken = false := (flagged_inner s tag true).resetTaken.trans open_
    have rest : s.flagAnswered tag true = { u with host := (s.flagAnswered tag true).host } := by
      rw [State.flagAnswered, reply_pump_rest, path]
      rfl
    have begun := started.started (after := [Reply.inWindow tag .setEmergency (.emergency true true true)]) rfl rest
      (fun k hk => by rw [State.flagAnswered, reply_pump_tells, path, State.raise_tells_eq, hk]; rfl)
      (by rw [State.flagAnswered, State.pump_host_tapU, State.reply_host_tapU, path, State.raise_host_tapU]) (by
        rw [State.flagAnswered, State.pump_formed, State.reply_formed _ _ _ _ reset, path, State.raise_formed, ← path,
          state]
        simp)
    have link : (s.withFlag tag true true).link = { s.link with deassertPending := false } := by
      have own : Emergency.own { s.emergency with hostFlag := true } = true := by simp [Emergency.own]
      rw [State.withFlag, State.withLine, withOwn_eq]
      simp [State.asked, State.endHostFrame, State.enter, own]
    exact link ▸ begun.moved (moved_withFlag s tag true true)

theorem flagAnswered_underFire (line : s.lineOk) (fire : s.emergency.fire = true)
    (open_ : s.host.resetTaken = false) :
    Answered s (s.flagAnswered tag flag) tag (if flag then .setEmergency else .clearEmergency)
        (.emergency flag true true) ∧
      (s.flagAnswered tag flag).host.notices = s.host.notices ∧
      s.flagAnswered tag flag =
        { s with
          emergency := { s.emergency with hostFlag := flag }, host := (s.flagAnswered tag flag).host } := by
  have active : (s.flagged tag flag).emergency.line = true := by rw [flagged_emergency line, fire]; rfl
  have answered : s.flagAnswered tag flag =
      (((s.asked tag).onEmergency fun e => { e with hostFlag := flag }).reply tag
        (if flag then .setEmergency else .clearEmergency) (.emergency flag true true)).pump := by
    rw [State.flagAnswered, active, fire, flagged_underFire fire]
    rfl
  rw [answered]
  refine ⟨Answered.of_reply _ open_ rfl rfl rfl rfl rfl rfl ⟨rfl, rfl⟩ rfl rfl, ?_, ?_⟩
  · exact State.reply_pump_notices _ open_
  · rw [reply_pump_rest]
    rfl

theorem flagAnswered_held (line : s.lineOk) (other : s.emergency.hostFlag = !flag) (fire : s.emergency.fire = false)
    (stays : (s.flagged tag flag).emergency.line = s.emergency.line) :
    (∀ k, (s.flagAnswered tag flag).tells k = (s.tells k || k == .emergencyChange)) ∧
      s.flagAnswered tag flag =
        { s with
          emergency := { s.emergency with hostFlag := flag }, link := { s.link with deassertPending := !flag },
          host := (s.flagAnswered tag flag).host } := by
  have path := flagged_held line other fire stays
  refine ⟨fun k => ?_, ?_⟩
  · rw [State.flagAnswered, reply_pump_tells, path, State.raise_tells_eq]
    rfl
  · have own : Emergency.own { s.emergency with hostFlag := flag } = flag := by simp [Emergency.own, fire]
    have rest : s.flagAnswered tag flag = { s.flagged tag flag with host := (s.flagAnswered tag flag).host } :=
      reply_pump_rest _ _ _ _
    rw [rest, path, withOwn_eq]
    simp [State.asked, State.endHostFrame, State.enter, State.raise, State.onHost, own]

/-- Settles O28: the way the change goes, clause by clause. -/
theorem hostEmergencyFlagIsAnsweredWithWhatFollows : Obligations.HostEmergencyFlagIsAnsweredWithWhatFollows := by
  intro s tag flag line admitted
  have inner := flagged_inner s tag flag
  have state := flagged_emergency line tag flag
  have open_ : s.host.resetTaken = false := ((State.admits_iff ..).1 admitted).1
  have reset : (s.flagged tag flag).host.resetTaken = false := inner.resetTaken.trans open_
  have body : (s.flagged tag flag).emergencyBody =
      .emergency flag (s.emergency.fire || flag) (s.flagged tag flag).emergency.line := by
    rw [State.emergencyBody, state]
    rfl
  have blocks : (s.flagAnswered tag flag).emergency = (s.flagged tag flag).emergency ∧
      (s.flagAnswered tag flag).link = (s.flagged tag flag).link ∧
      (s.flagAnswered tag flag).pins = (s.flagged tag flag).pins ∧
      (s.flagAnswered tag flag).time = (s.flagged tag flag).time ∧
      (s.flagAnswered tag flag).service = (s.flagged tag flag).service ∧
      (s.flagAnswered tag flag).journal = (s.flagged tag flag).journal := by
    rw [State.flagAnswered, reply_pump_rest]
    exact ⟨rfl, rfl, rfl, rfl, rfl, rfl⟩
  obtain ⟨emergency, link, pins, time, service, journal⟩ := blocks
  refine ⟨s.flagAnswered tag flag, by rw [exec_emergencyRequest admitted, body]; rfl, emergency.trans state, ?_, ?_, ?_,
    ?_, ?_, ?_, fun same => ?_, fun stays => ?_, fun other fire => ?_, fun other fire => ⟨?_, ?_, fun stays => ?_,
      fun clears quiet => ?_, fun sets quiet => ?_⟩⟩
  · rw [State.flagAnswered, State.pump_host_window, State.reply_host_window]
    exact inner.window
  · obtain ⟨before, formed, none_⟩ := flagged_formed line tag flag
    refine ⟨before, ?_, by rwa [emergency]⟩
    rw [emergency, State.flagAnswered, State.pump_formed, State.reply_formed _ _ _ _ reset, formed]
  · rw [link]
    exact flagged_rows line tag flag
  · exact pins.trans inner.pins
  · exact time.trans inner.time
  · rw [service]
    exact inner.tables
  · rw [State.flagAnswered, flagged_same same]
    exact OnlyAnswered.of_reply _ admitted
  · exact journal.trans (flagged_journal line (emergency ▸ stays))
  · exact flagAnswered_underFire line fire open_
  · rw [State.flagAnswered, reply_pump_tells]
    exact (flagged_told line other fire).1
  · rw [link]
    exact (flagged_told line other fire).2
  · exact flagAnswered_held line other fire (emergency ▸ stays)
  · subst clears
    exact flagAnswered_ends line other fire (emergency ▸ quiet)
  · subst sets
    exact flagAnswered_starts line other fire quiet open_

end Sys2Proof.Machine
end

section
/-! Contributions of peers: EMERGENCY frames and the deadlines of rows (R143 to R145). -/

namespace Sys2Proof.Machine

variable {s t u y z : State} {l m : Link} {cause : EmergencyCause} {src code : Byte} {a d : Nat}
  {after : Contribution} {start finish : RecBody}

/-! ## The row of an address -/

theorem Link.row_setRow (low : 1 ≤ a) (high : a ≤ l.rows.length) (r : MemberRow) : (l.setRow a r).row a = r := by
  cases a with
  | zero => exact absurd low (by omega)
  | succ k =>
    have inside : k < (l.rows.set k r).length := by rw [List.length_set]; omega
    rw [Link.setRow, Link.row, List.getD_eq_getElem _ _ inside, List.getElem_set_self]

theorem Link.setRow_setRow (l : Link) (a : Nat) (r r' : MemberRow) : (l.setRow a r).setRow a r' = l.setRow a r' := by
  cases a with
  | zero => rfl
  | succ k => simp [Link.setRow]

theorem Link.setRow_rest (l : Link) (a : Nat) (r : MemberRow) :
    l.setRow a r = { l with rows := (l.setRow a r).rows } := by
  cases a <;> rfl

theorem Link.row_congr (h : l.rows = m.rows) (a : Nat) : l.row a = m.row a := by
  cases a with
  | zero => rfl
  | succ k => rw [Link.row, Link.row, h]

theorem Link.setRow_rows_congr (h : l.rows = m.rows) (a : Nat) (r : MemberRow) :
    (l.setRow a r).rows = (m.setRow a r).rows := by
  cases a with
  | zero => exact h
  | succ k => rw [Link.setRow, Link.setRow, h]

/-! ## A contribution set, and what is judged from it (R143, R145) -/

/-- The part with the contribution of a row set, the line emergency state not judged yet. -/
def State.contributing (a : Nat) (after : Contribution) (u : State) : State :=
  { u with link := u.link.setRow a { u.link.row a with contribution := after } }

theorem contributing_row (low : 1 ≤ a) (high : a ≤ u.link.rows.length) (after : Contribution) :
    ((u.contributing a after).link.row a).contribution = after := by
  rw [State.contributing, Link.row_setRow low high]

theorem contributing_asserted (low : 1 ≤ a) (high : a ≤ u.link.rows.length) (d : Nat) :
    (u.contributing a (.asserted d)).lineJudged = true := by
  cases a with
  | zero => exact absurd low (by omega)
  | succ k =>
    have here : ({ u.link.row (k + 1) with contribution := .asserted d } : MemberRow) ∈
        (u.contributing (k + 1) (.asserted d)).link.rows :=
      List.mem_set (by omega) _
    have counts : (u.contributing (k + 1) (.asserted d)).link.rows.any MemberRow.contributes = true :=
      List.any_eq_true.2 ⟨_, here, rfl⟩
    rw [State.lineJudged, counts, Bool.or_true]

/-- A contribution that ends starts no emergency. -/
theorem contributing_none (h : (u.contributing a .none).lineJudged = true) : u.lineJudged = true := by
  obtain own | peers := Bool.or_eq_true_iff.1 h
  · exact Bool.or_eq_true_iff.2 (.inl own)
  · refine Bool.or_eq_true_iff.2 (.inr ?_)
    obtain ⟨r, hr, counts⟩ := List.any_eq_true.1 peers
    cases a with
    | zero => exact List.any_eq_true.2 ⟨r, hr, counts⟩
    | succ k =>
      obtain old | rfl := List.mem_or_eq_of_mem_set hr
      · exact List.any_eq_true.2 ⟨r, old, counts⟩
      · cases counts

/-! ## The judging, whatever it finds (R145) -/

theorem judgeEmergency_cases (s : State) (cause : EmergencyCause) :
    (s.emergency.line = s.lineJudged ∧ s.judgeEmergency cause = s) ∨
      (s.emergency.line = false ∧ s.lineJudged = true ∧ Starts (s.withLine true) (s.judgeEmergency cause) cause) ∨
      (s.emergency.line = true ∧ s.lineJudged = false ∧ Ends (s.withLine false) (s.judgeEmergency cause) cause) := by
  cases line : s.emergency.line <;> cases judged : s.lineJudged
  · exact .inl ⟨rfl, judgeEmergency_stays (line.trans judged.symm)⟩
  · rw [judgeEmergency_starts line judged]
    exact .inr (.inl ⟨rfl, rfl, starts_emergencyStarts rfl cause⟩)
  · rw [judgeEmergency_ends line judged]
    exact .inr (.inr ⟨rfl, rfl, ends_emergencyEnds rfl cause⟩)
  · exact .inl ⟨rfl, judgeEmergency_stays (line.trans judged.symm)⟩

/-- What a judging leaves, and what it adds. -/
structure Judges (s t : State) (cause : EmergencyCause) : Prop where
  link : ∃ ms, t.link = s.link.withFrames ms
  told : ∀ k, s.tells k = true → t.tells k = true
  records : ∃ xs, Journals s t xs
  changed : t.emergency.line ≠ s.emergency.line →
    t.tells .emergencyChange = true ∧ ∃ more, Journals s t (cause.record t.emergency.line :: more)

theorem judges_judgeEmergency (s : State) (cause : EmergencyCause) : Judges s (s.judgeEmergency cause) cause := by
  obtain ⟨-, same⟩ | ⟨-, -, starts⟩ | ⟨-, -, ends⟩ := judgeEmergency_cases s cause
  · rw [same]
    exact ⟨⟨[], rfl⟩, fun _ h => h, ⟨[], .of_same rfl⟩, fun h => absurd rfl h⟩
  · obtain ⟨more, records, -⟩ := starts.records
    have journal : Journals s (s.judgeEmergency cause) _ := ⟨records.grown, records.halted⟩
    have line : (s.judgeEmergency cause).emergency.line = true := by rw [starts.rest]; rfl
    exact ⟨starts.link, starts.told, ⟨_, journal⟩, fun _ => ⟨starts.change, more, by rw [line]; exact journal⟩⟩
  · have records := ends.records
    have journal : Journals s (s.judgeEmergency cause) _ := ⟨records.grown, records.halted⟩
    have line : (s.judgeEmergency cause).emergency.line = false := by rw [ends.rest]; rfl
    exact ⟨⟨[], by rw [ends.rest]; rfl⟩, fun k h => ends.told k (.inl h), ⟨_, journal⟩,
      fun _ => ⟨ends.told _ (.inr rfl), [], by rw [line]; exact journal⟩⟩

theorem Judges.rows (h : Judges s t cause) : t.link.rows = s.link.rows := by
  obtain ⟨ms, link⟩ := h.link
  rw [link, Link.withFrames_rest]

theorem Judges.token (h : Judges s t cause) : t.link.token = s.link.token := by
  obtain ⟨ms, link⟩ := h.link
  rw [link, Link.withFrames_rest]

/-! ## A judging seen from before the contribution was set -/

/-- What has come of a contribution set in `y`, as the statements put it. -/
structure Judged (s y t : State) (start finish : RecBody) : Prop where
  row : ∀ a, t.link.row a = y.link.row a
  emergency : t.emergency = { s.emergency with line := t.lineJudged }
  pins : t.pins = s.pins
  time : t.time = s.time
  tables : t.service.tables = s.service.tables
  same : t.emergency.line = s.emergency.line → Told s t [] ∧ t = { y with host := t.host }
  started : t.emergency.line ≠ s.emergency.line → t.emergency.line = true → EmergencyStarted s t start y.link
  ended : t.emergency.line ≠ s.emergency.line → t.emergency.line = false →
    EmergencyEnded s t finish ∧
      t =
        { y with
          emergency := { s.emergency with line := false }, passage := t.passage, journal := t.journal,
          host := t.host }

theorem judged_of_cause (rest : y = { s with link := y.link })
    (up : s.emergency.line = false → y.lineJudged = true → cause.record true = start)
    (down : s.emergency.line = true → y.lineJudged = false → cause.record false = finish) :
    Judged s y (y.judgeEmergency cause).pump start finish := by
  have judges := judges_judgeEmergency y cause
  have inner := judgeEmergency_inner cause (Inner.refl y).toInner0
  have line := judgeEmergency_emergency y cause
  have cases := judgeEmergency_cases y cause
  have rows : (y.judgeEmergency cause).link.rows = y.link.rows := judges.rows
  have lineJudged : (y.judgeEmergency cause).pump.lineJudged = y.lineJudged := by
    rw [State.lineJudged, State.pump_emergency, State.pump_link, line, rows]
    rfl
  have pump := (y.judgeEmergency cause).pump_rest
  have told : ∀ k, (y.judgeEmergency cause).tells k = true → (y.judgeEmergency cause).pump.tells k = true :=
    fun k hk => by rw [State.pump_tells_eq, hk]
  have moved (b : Bool) : Moved s (y.withLine b) := by rw [rest]; exact ⟨rfl, rfl, rfl⟩
  have judged : (y.judgeEmergency cause).pump.emergency.line = y.lineJudged := by rw [State.pump_emergency, line]
  have before : y.emergency = s.emergency := by rw [rest]
  refine ⟨fun a => ?_, ?_, ?_, ?_, ?_, fun same => ?_, fun changed active => ?_, fun changed quiet => ?_⟩
  · rw [State.pump_link, Link.row_congr rows]
  · rw [lineJudged, State.pump_emergency, line, before]
  · rw [State.pump_pins, inner.pins, rest]
  · rw [State.pump_time, inner.time, rest]
  · rw [State.pump_service, inner.tables, rest]
  · have stays : y.judgeEmergency cause = y := judgeEmergency_stays (by rw [before, ← same, judged])
    rw [stays]
    exact ⟨Told.of_host (by rw [rest]), y.pump_rest⟩
  · obtain ⟨same, -⟩ | ⟨quiet, active, starts⟩ | ⟨-, quiet, -⟩ := cases
    · exact absurd (judged.trans (same.symm.trans (by rw [before]))) changed
    · rw [← up (before ▸ quiet) active]
      exact (starts.started (after := []) rfl pump told (by simp) (by simp)).moved (moved true)
    · exact absurd (active.symm.trans (judged.trans quiet)) nofun
  · obtain ⟨same, -⟩ | ⟨-, active, -⟩ | ⟨active, quiet, ends⟩ := cases
    · exact absurd (judged.trans (same.symm.trans (by rw [before]))) changed
    · exact absurd (active.symm.trans (judged.symm.trans quiet)) nofun
    · rw [← down (before ▸ active) quiet]
      refine ⟨(ends.ended rfl pump told).moved (moved false) (by rw [rest]; rfl), ?_⟩
      have frame := ends.rest
      rw [← before, State.pump_passage, State.pump_journal]
      refine pump.trans ?_
      generalize (y.judgeEmergency cause).pump.host = host
      rw [frame]
      rfl

end Sys2Proof.Machine
end

section
/-! Frames met, and the effect of a contribution on two parts that differ in the link's affairs alone (R99, R102). -/

namespace Sys2Proof.Machine

variable {s t u y z : State} {l m : Link} {cause : EmergencyCause} {src code : Byte} {a d : Nat}
  {after : Contribution} {start finish : RecBody}

/-! ## A frame met (R99, R102, R106) -/

/-- The part once a frame that is never the expected reply has been met and its source heard. -/
def State.met (src : Byte) (s : State) : State := s.endReception.meetFrame.heard src.toNat .heard

theorem isOffline_eq_false {k : LinkState} (h : ∀ reason, k ≠ .offline reason) : k.isOffline = false := by
  cases k with
  | offline reason => exact absurd rfl (h reason)
  | listening => rfl
  | member => rfl

theorem sourceOk_iff : sourceOk src = true ↔ 1 ≤ src.toNat ∧ src.toNat ≤ 16 := by simp [sourceOk]

theorem takeOther_met (online : ∀ reason, s.link.state ≠ .offline reason) (low : 1 ≤ src.toNat)
    (high : src.toNat ≤ 16) (other : src.toNat ≠ s.link.addr) (act : Nat → State → State) :
    s.takeOther src act = act src.toNat (s.met src) := by
  rw [State.takeOther, State.takeFrame, isOffline_eq_false online, sourceOk_iff.2 ⟨low, high⟩]
  simp only [Bool.false_eq_true, if_false, Bool.not_true, if_neg other]
  rfl

theorem met_inner (src : Byte) (s : State) : Inner s (s.met src) :=
  heard_inner _ _ (meetFrame_inner (endReception_inner (Inner.refl s)))

theorem meetFrame_rest (s : State) : s.meetFrame = { s with link := s.meetFrame.link } := by
  unfold State.meetFrame
  cases s.link.token <;> simp only
  split <;> rfl

theorem heard_known (known : (s.link.row a).present = true) (reason : Reason) :
    s.heard a reason =
      s.onLink fun l => l.setRow a { s.link.row a with present := true, lastHeard := some s.time.now } := by
  simp [State.heard, known]

theorem heard_new (absent : (s.link.row a).present = false) (reason : Reason) :
    s.heard a reason =
      ((s.onLink fun l => l.setRow a { s.link.row a with present := true, lastHeard := some s.time.now }).append
        (membershipRecord a reason)).raise .membershipChange := by
  simp [State.heard, absent]

/-- A part without the token that knows the source only hears it. -/
theorem met_eq_heardFrom (h : s.meets src) (known : (s.link.row src.toNat).present = true) :
    s.met src = s.heardFrom src := by
  obtain ⟨online, -, -, -, waiting, -⟩ := h
  have listens : s.link.awaitsSilence = true := by
    cases state : s.link.state with
    | offline reason => exact absurd state (online reason)
    | listening => simp [Link.awaitsSilence, state]
    | member => simp [Link.awaitsSilence, state, waiting]
  have meets : s.endReception.meetFrame = s.endReception := by
    have token : s.endReception.link.token = .waiting := waiting
    rw [State.meetFrame, token]
  have silence : s.endReception.link.silence = some (s.clock + silenceMs s.link.addr) := if_pos listens
  have ended : s.endReception.link =
      { s.link with rxBegun := false, silence := some (s.clock + silenceMs s.link.addr) } := by
    rw [← silence]
    rfl
  rw [State.met, meets, heard_known (s := s.endReception) known, State.heardFrom, ← ended]
  rfl

/-- What hearing a frame does to the part. -/
structure Met (s t : State) (src : Byte) : Prop where
  rest : t = { s with link := t.link, journal := t.journal, host := t.host }
  rows : t.link.rows =
    (s.link.setRow src.toNat
      { s.link.row src.toNat with present := true, lastHeard := some s.time.now }).rows
  token : s.link.window = none → t.link.token = s.link.token
  absent : (s.link.row src.toNat).present = false →
    t.tells .membershipChange = true ∧ Journals s t [membershipRecord src.toNat .heard]

/-- Before the row is set: the receiver is free, and an invitation met may have dropped the token. -/
theorem meetFrame_endReception (s : State) :
    s.endReception.meetFrame = { s with link := s.endReception.meetFrame.link } ∧
      s.endReception.meetFrame.link.rows = s.link.rows ∧
      (s.link.window = none → s.endReception.meetFrame.link.token = s.link.token) := by
  refine ⟨?_, ?_, fun shut => ?_⟩
  · rw [meetFrame_rest]
    rfl
  · unfold State.meetFrame
    cases s.endReception.link.token <;> simp only
    · rfl
    · rfl
    · split <;> rfl
    · rfl
  · have shut : s.endReception.link.window = none := shut
    unfold State.meetFrame
    rw [shut]
    cases s.endReception.link.token <;> rfl

theorem met_spec (src : Byte) (s : State) : Met s (s.met src) src := by
  obtain ⟨rest, rows, token⟩ := meetFrame_endReception s
  unfold State.met
  generalize s.endReception.meetFrame = b at *
  have row : b.link.row src.toNat = s.link.row src.toNat := Link.row_congr rows _
  have time : b.time = s.time := by rw [rest]
  have set : (b.link.setRow src.toNat
      { b.link.row src.toNat with present := true, lastHeard := some b.time.now }).rows =
      (s.link.setRow src.toNat { s.link.row src.toNat with present := true, lastHeard := some s.time.now }).rows := by
    rw [row, time]
    exact Link.setRow_rows_congr rows _ _
  cases present : (s.link.row src.toNat).present with
  | true =>
    rw [heard_known (row ▸ present)]
    refine ⟨?_, set, fun shut => ?_, fun absent => absurd (present.symm.trans absent) nofun⟩
    · conv_lhs => rw [rest]
      rw [rest]
      rfl
    · rw [← token shut, State.onLink_link, Link.setRow_rest]
  | false =>
    rw [heard_new (row ▸ present)]
    let w := b.onLink fun l =>
      l.setRow src.toNat { b.link.row src.toNat with present := true, lastHeard := some b.time.now }
    have queued := (Queued.of_append w (membershipRecord src.toNat .heard)).trans (.of_raise _ .membershipChange)
    have link : ((w.append (membershipRecord src.toNat .heard)).raise .membershipChange).link = w.link := queued.link
    refine ⟨?_, ?_, fun shut => ?_, fun _ => ⟨State.raise_tells _ _, ?_⟩⟩
    · have frame (x : Link) (j : Journal) (k : HostLink) :
          ({ b with link := x, journal := j, host := k } : State) = { s with link := x, journal := j, host := k } := by
        rw [rest]
      exact queued.rest.trans (frame _ _ _)
    · rw [link]
      exact set
    · rw [link, ← token shut]
      show (b.link.setRow _ _).token = _
      rw [Link.setRow_rest]
    · have records := queued.records
      have journal : w.journal = s.journal := by show b.journal = _; rw [rest]
      have service : w.service = s.service := by show b.service = _; rw [rest]
      have now : w.time = s.time := time
      obtain ⟨grown, halted⟩ := records
      rw [State.taken, journal, service, now] at grown
      rw [State.taken, journal, service] at halted
      exact ⟨grown, halted⟩

theorem Link.withFrames_rows (l : Link) (ms : List LinkMsg) : (l.withFrames ms).rows = l.rows := by
  rw [Link.withFrames_rest]

/-! ## Two parts that differ in the link's affairs alone -/

/-- The two parts differ in link, journal and host link alone, and have the same member table. -/
structure Alike (s t : State) : Prop where
  rest : t = { s with link := t.link, journal := t.journal, host := t.host }
  rows : t.link.rows = s.link.rows

theorem Alike.contributing (h : Alike s t) (a : Nat) (after : Contribution) :
    Alike (s.contributing a after) (t.contributing a after) where
  rest := by
    rw [State.contributing, State.contributing, h.rest]
  rows := by
    rw [State.contributing, State.contributing, Link.row_congr h.rows]
    exact Link.setRow_rows_congr h.rows _ _

theorem Starts.alike (h : Alike s t) (hs : Starts (s.withLine true) y cause) (ht : Starts (t.withLine true) z cause) :
    Alike y z := by
  have waiting : (t.withLine true).waitingAtU = (s.withLine true).waitingAtU := by rw [h.rest]; rfl
  have portU : z.portU = y.portU := by
    rw [ht.portU, hs.portU, waiting, h.rest]
    rfl
  have portP : z.portP = y.portP := by
    rw [ht.portP, hs.portP, h.rest]
    rfl
  have passage : z.passage = y.passage := by
    rw [ht.passage, hs.passage, waiting, h.rest]
    rfl
  have service : z.service = y.service := by
    rw [ht.service, hs.service, waiting, h.rest]
    rfl
  have screening : z.screening = y.screening := by
    rw [ht.screening, hs.screening, waiting]
    cases (s.withLine true).waitingAtU with
    | none => show t.screening = s.screening; rw [h.rest]
    | some c => exact endUnwrittenTap_congr (by rw [h.rest]; rfl) (by rw [h.rest]; rfl) .U c
  refine ⟨?_, ?_⟩
  · rw [ht.rest, portU, portP, passage, service, screening]
    conv_rhs => rw [hs.rest]
    rw [h.rest]
    rfl
  · obtain ⟨_, one⟩ := ht.link
    obtain ⟨_, other⟩ := hs.link
    rw [one, other, Link.withFrames_rows, Link.withFrames_rows]
    exact h.rows

theorem Ends.alike (h : Alike s t) (hs : Ends (s.withLine false) y cause) (ht : Ends (t.withLine false) z cause) :
    Alike y z := by
  have leaf : (t.withLine false).leafReleased = (s.withLine false).leafReleased := by rw [h.rest]; rfl
  have aisle : (t.withLine false).passage = (s.withLine false).passage := by rw [h.rest]; rfl
  have clock : (t.withLine false).clock = (s.withLine false).clock := by rw [h.rest]; rfl
  have passage : z.passage = y.passage := by
    rw [ht.released.aisle, hs.released.aisle, ht.released.travel, hs.released.travel, leaf, aisle, clock]
  refine ⟨?_, ?_⟩
  · rw [ht.rest, passage]
    conv_rhs => rw [hs.rest]
    rw [h.rest]
    rfl
  · rw [ht.rest, hs.rest]
    exact h.rows

theorem Alike.judgeEmergency (h : Alike s t) (cause : EmergencyCause) :
    Alike (s.judgeEmergency cause) (t.judgeEmergency cause) := by
  have line : t.emergency.line = s.emergency.line := by rw [h.rest]
  have judged : t.lineJudged = s.lineJudged := by
    rw [State.lineJudged, State.lineJudged, h.rows, h.rest]
  obtain ⟨same, stays⟩ | ⟨quiet, active, starts⟩ | ⟨active, quiet, ends⟩ := judgeEmergency_cases s cause
  · rw [stays, judgeEmergency_stays (line.trans (same.trans judged.symm))]
    exact h
  · have other := judgeEmergency_starts (cause := cause) (line.trans quiet) (judged.trans active)
    exact starts.alike h (other ▸ starts_emergencyStarts rfl cause)
  · have other := judgeEmergency_ends (cause := cause) (line.trans active) (judged.trans quiet)
    exact ends.alike h (other ▸ ends_emergencyEnds rfl cause)

theorem Alike.pump (h : Alike s t) : Alike s.pump t.pump where
  rest := by
    rw [State.pump_link, State.pump_journal]
    refine t.pump_rest.trans ?_
    generalize t.pump.host = host
    rw [h.rest, s.pump_rest]
  rows := by
    rw [State.pump_link, State.pump_link]
    exact h.rows

theorem alike_met (low : 1 ≤ src.toNat) (high : src.toNat ≤ s.link.rows.length) :
    Alike (s.met src) ((s.asMet src).met src) := by
  have one := met_spec src s
  have other := met_spec src (s.asMet src)
  refine ⟨?_, ?_⟩
  · rw [other.rest]
    conv_rhs => rw [one.rest]
    rfl
  · have row := Link.row_setRow (l := s.link) low high { s.link.row src.toNat with present := true }
    have rows : ((s.asMet src).link.setRow src.toNat
        { s.link.row src.toNat with present := true, lastHeard := some s.time.now }).rows =
        ((s.link.setRow src.toNat { s.link.row src.toNat with present := true }).setRow src.toNat
          { s.link.row src.toNat with present := true, lastHeard := some s.time.now }).rows :=
      Link.setRow_rows_congr (by rfl) _ _
    have same : (s.asMet src).link.row src.toNat = { s.link.row src.toNat with present := true } :=
      (Link.row_congr (by rfl) _).trans row
    rw [other.rows, same, one.rows]
    exact rows.trans (by rw [Link.setRow_setRow])

end Sys2Proof.Machine
end

section
/-! EMERGENCY frames and the deadlines of rows, as the statement puts them (R143 to R145). -/

namespace Sys2Proof.Machine

variable {s t u y z : State} {cause : EmergencyCause} {src code : Byte} {a d : Nat} {after : Contribution}
  {start finish : Reason}

/-- The contribution that an EMERGENCY frame gives its source at a time (R143). -/
def frameContribution (clock : Nat) (code : Byte) : Contribution :=
  if code = 1 then .asserted (clock + 10000) else .none

/-- What an EMERGENCY frame's change is recorded with (R145). -/
def frameCause (a : Nat) (code : Byte) : EmergencyCause := if code = 1 then .peerAssert a else .peerDeassert a

theorem exec_linkEmergency (body : code = 1 ∨ code = 2) (online : ∀ reason, s.link.state ≠ .offline reason)
    (low : 1 ≤ src.toNat) (high : src.toNat ≤ 16) (other : src.toNat ≠ s.link.addr) :
    exec (.linkEmergency src code) s =
      .next ((((s.met src).contributing src.toNat (frameContribution s.clock code)).judgeEmergency
        (frameCause src.toNat code)).pump) := by
  obtain rfl | rfl := body
  · show done (s.takeOther src (State.emergencyFrame true)) = _
    rw [takeOther_met online low high other, ← (met_inner src s).clock]
    rfl
  · show done (s.takeOther src (State.emergencyFrame false)) = _
    rw [takeOther_met online low high other]
    rfl

theorem exec_refreshDeadline (row : (s.link.row src.toNat).contribution = .asserted d) (reached : d ≤ s.clock) :
    exec (.refreshDeadline src) s =
      .next ((s.contributing src.toNat .none).judgeEmergency (.peerRefresh src.toNat)).pump := by
  show done (s.refreshReached src.toNat) = _
  rw [State.refreshReached, row]
  simp only [if_pos reached]
  rfl

theorem exec_holdDeadline (row : (s.link.row src.toNat).contribution = .held d) :
    exec (.holdDeadline src) s =
      .next ((s.contributing src.toNat .none).judgeEmergency (.peerHold src.toNat)).pump := by
  show done (s.holdReached src.toNat) = _
  rw [State.holdReached, row]
  rfl

/-- A refresh deadline that an ASSERT frame has restarted is not reached (R144). -/
theorem exec_refreshDeadline_restarted (row : (s.link.row src.toNat).contribution = .asserted d)
    (restarted : s.clock < d) : exec (.refreshDeadline src) s = .next s.pump := by
  show done (s.refreshReached src.toNat) = _
  rw [State.refreshReached, row]
  simp only [if_neg (Nat.not_le.2 restarted)]
  rfl

/-! ## Which way a contribution can move the emergency (R145) -/

theorem judged_contributing (rest : u = { s with link := u.link }) (line : u.lineOk) (low : 1 ≤ a)
    (high : a ≤ u.link.rows.length) (unheld : ∀ d, after ≠ .held d)
    (up : after ≠ .none →
      cause.record true = { kind := .emergencyStart, peer := some a, reason := some start })
    (down : after = .none →
      cause.record false = { kind := .emergencyEnd, peer := some a, reason := some finish }) :
    Judged s (u.contributing a after) ((u.contributing a after).judgeEmergency cause).pump
      { kind := .emergencyStart, peer := some a, reason := some start }
      { kind := .emergencyEnd, peer := some a, reason := some finish } := by
  have before : u.emergency = s.emergency := by rw [rest]
  refine judged_of_cause (by rw [State.contributing, rest]) (fun quiet active => up ?_) fun _ quiet => down ?_
  · rintro rfl
    have line : s.emergency.line = true := before ▸ line.trans (contributing_none active)
    exact absurd (quiet.symm.trans line) nofun
  · cases after with
    | none => rfl
    | asserted d => exact absurd (quiet.symm.trans (contributing_asserted low high d)) nofun
    | held d => exact absurd rfl (unheld d)

/-! ## The record beside the MEMBERSHIP record -/

/-- Two events fit into a journal that has room for two. -/
theorem Journals.second {b c : RecBody} {xs : List RecBody} (h : Journals s t (b :: c :: xs))
    (open_ : s.journal.halted = false) (room : s.roomFor 2) :
    ∃ more, s.journal.grownBy t.journal s.time.now (b :: c :: more) := by
  have below : s.journal.records.length + 2 ≤ s.service.params.haltLevel :=
    room.resolve_left (by rw [open_]; nofun)
  have grown := h.grown
  rw [State.taken, open_, takenFrom, if_neg (by simp), takenFrom, if_neg (by simp; omega)] at grown
  exact ⟨_, grown⟩

/-! ## EMERGENCY frames -/

/-- The record of a change that an EMERGENCY frame brings about: an ASSERT starts, a DEASSERT ends (R143, R145). -/
theorem frameCause_record (body : code = 1 ∨ code = 2) (line : u.lineOk) (low : 1 ≤ a)
    (high : a ≤ u.link.rows.length) {active : Bool}
    (judged : active = (u.contributing a (frameContribution d code)).lineJudged)
    (changed : active ≠ u.emergency.line) :
    (frameCause a code).record active =
      { kind := if active = true then .emergencyStart else .emergencyEnd, peer := some a,
        reason := some (if active = true then .peerAssert else .peerDeassert) } := by
  obtain rfl | rfl := body
  · obtain rfl : active = true := judged.trans (contributing_asserted low high _)
    rfl
  · obtain rfl : active = false := by
      cases active with
      | false => rfl
      | true => exact absurd (line.trans (contributing_none judged.symm)).symm changed
    rfl

/-- The part once an EMERGENCY frame has acted, and the host link has gone on. -/
def State.framed (src code : Byte) (s : State) : State :=
  (((s.met src).contributing src.toNat (frameContribution s.clock code)).judgeEmergency
    (frameCause src.toNat code)).pump

/-- A taken EMERGENCY frame tells a change, keeps a token that met no invitation, and records a new member first (R102,
R106, R111, R145). -/
theorem framed_spec (body : code = 1 ∨ code = 2) (line : s.lineOk) (low : 1 ≤ src.toNat)
    (high : src.toNat ≤ s.link.rows.length) (t : State) (ht : t = s.framed src code) :
    (t.emergency.line ≠ s.emergency.line → t.tells .emergencyChange = true) ∧
      (s.link.window = none → t.link.token = s.link.token) ∧
      ((s.link.row src.toNat).present = false →
        t.tells .membershipChange = true ∧
        (s.journal.halted = false → ∃ more,
          s.journal.grownBy t.journal s.time.now (membershipRecord src.toNat .heard :: more)) ∧
        (s.journal.halted = false → s.roomFor 2 → t.emergency.line ≠ s.emergency.line → ∃ more,
          s.journal.grownBy t.journal s.time.now
            (membershipRecord src.toNat .heard ::
              { kind := if t.emergency.line = true then .emergencyStart else .emergencyEnd, peer := some src.toNat,
                reason := some (if t.emergency.line = true then .peerAssert else .peerDeassert) } :: more))) := by
  obtain ⟨rest, rows, token, absent⟩ := met_spec src s
  have metLine := (met_inner src s).line line
  have length := (met_inner src s).rows
  subst ht
  unfold State.framed
  generalize s.met src = u at *
  have before : u.emergency = s.emergency := by rw [rest]
  have time : u.time = s.time := by rw [rest]
  have params : u.service.params = s.service.params := by rw [rest]
  have emergency := judgeEmergency_emergency (u.contributing src.toNat (frameContribution s.clock code))
    (frameCause src.toNat code)
  have judges := judges_judgeEmergency (u.contributing src.toNat (frameContribution s.clock code))
    (frameCause src.toNat code)
  generalize hz : (u.contributing src.toNat (frameContribution s.clock code)).judgeEmergency
    (frameCause src.toNat code) = z at *
  have judged : z.emergency.line = (u.contributing src.toNat (frameContribution s.clock code)).lineJudged := by
    rw [emergency]
  have offered {xs : List RecBody} (h : Journals (u.contributing src.toNat (frameContribution s.clock code)) z xs) :
      Journals u z.pump xs := ⟨by rw [State.pump_journal]; exact h.grown, by rw [State.pump_journal]; exact h.halted⟩
  rw [State.pump_emergency, State.pump_link]
  refine ⟨fun changed => ?_, fun shut => ?_, fun new => ⟨?_, fun open_ => ?_, fun open_ room changed => ?_⟩⟩
  · obtain ⟨told, -⟩ := judges.changed (before ▸ changed)
    rw [State.pump_tells_eq, told]
  · rw [judges.token, ← token shut, State.contributing, Link.setRow_rest]
  · obtain ⟨told, -⟩ := absent new
    rw [State.pump_tells_eq, judges.told _ told]
  · obtain ⟨-, record⟩ := absent new
    obtain ⟨xs, later⟩ := judges.records
    exact (record.append (offered later) time params).first open_
  · obtain ⟨-, record⟩ := absent new
    obtain ⟨-, more, later⟩ := judges.changed (before ▸ changed)
    rw [frameCause_record body metLine low (length ▸ high) judged (before ▸ changed)] at later
    exact (record.append (offered later) time params).second open_ room

/-- What a row's deadline or a frame of a known source changes, and by which cause (R143, R144). -/
theorem exec_contribution {c : Instr} (line : s.lineOk) (rows : s.link.rows.length = 16)
    (which :
      (s.meets src ∧ (s.link.row src.toNat).present = true ∧ u = s.heardFrom src ∧
          ((c = .linkEmergency src 1 ∧ after = .asserted (s.clock + 10000)) ∨
            (c = .linkEmergency src 2 ∧ after = .none)) ∧
          start = .peerAssert ∧ finish = .peerDeassert) ∨
        ((∃ d, (s.link.row src.toNat).contribution = .asserted d ∧ d ≤ s.clock) ∧ u = s ∧ c = .refreshDeadline src ∧
          after = .none ∧ finish = .peerRefresh) ∨
        ((∃ d, (s.link.row src.toNat).contribution = .held d) ∧ u = s ∧ c = .holdDeadline src ∧ after = .none ∧
          finish = .peerHold)) :
    ∃ cause, exec c s = .next ((u.contributing src.toNat after).judgeEmergency cause).pump ∧
      u = { s with link := u.link } ∧ u.lineOk ∧ u.link.rows.length = 16 ∧ (∀ d, after ≠ .held d) ∧
      (after ≠ .none →
        cause.record true = { kind := .emergencyStart, peer := some src.toNat, reason := some start }) ∧
      (after = .none →
        cause.record false = { kind := .emergencyEnd, peer := some src.toNat, reason := some finish }) := by
  obtain ⟨meets, known, rfl, frame, rfl, rfl⟩ | ⟨⟨d, row, reached⟩, rfl, rfl, rfl, rfl⟩ |
    ⟨⟨d, row⟩, rfl, rfl, rfl, rfl⟩ := which
  · have heard := met_eq_heardFrom meets known
    have inner := met_inner src s
    obtain ⟨online, low, high, other, -, -⟩ := meets
    rw [← heard]
    obtain ⟨rfl, rfl⟩ | ⟨rfl, rfl⟩ := frame
    · exact ⟨_, exec_linkEmergency (.inl rfl) online low high other, by rw [heard]; rfl, inner.line line,
        inner.rows.trans rows, nofun, fun _ => rfl, nofun⟩
    · exact ⟨_, exec_linkEmergency (.inr rfl) online low high other, by rw [heard]; rfl, inner.line line,
        inner.rows.trans rows, nofun, fun h => absurd rfl h, fun _ => rfl⟩
  · exact ⟨_, exec_refreshDeadline row reached, rfl, line, rows, nofun, fun h => absurd rfl h, fun _ => rfl⟩
  · exact ⟨_, exec_holdDeadline row, rfl, line, rows, nofun, fun h => absurd rfl h, fun _ => rfl⟩

/-- Settles O48: the contribution set, then the judging of the line; a token and an ABSENT row only differ in the link's
affairs. -/
theorem peerContributionsMoveTheLineEmergency : Obligations.PeerContributionsMoveTheLineEmergency := by
  refine ⟨fun s src c u after start finish line rows low high which => ?_, fun s src d row restarted =>
    ⟨_, exec_refreshDeadline_restarted row restarted, done_unchanged s⟩,
    fun s src code body line online low high other rows => ?_⟩
  · obtain ⟨cause, effect, rest, lineU, rowsU, unheld, up, down⟩ := exec_contribution line rows which
    have inside : src.toNat ≤ u.link.rows.length := rowsU ▸ high
    have judged := judged_contributing rest lineU low inside unheld up down
    have before : u.emergency = s.emergency := by rw [rest]
    refine ⟨_, effect, ?_, judged.emergency, judged.pins, judged.time, judged.tables, judged.same,
      fun changed => ⟨judged.started changed, judged.ended changed⟩⟩
    rw [judged.row, contributing_row low inside]
  · have inside : src.toNat ≤ s.link.rows.length := rows ▸ high
    have addr : (s.asMet src).link.addr = s.link.addr := by
      rw [State.asMet, Link.setRow_rest]
    have state : (s.asMet src).link.state = s.link.state := by
      rw [State.asMet, Link.setRow_rest]
    have online' : ∀ reason, (s.asMet src).link.state ≠ .offline reason := fun reason => state ▸ online reason
    have alike := (((alike_met low inside).contributing src.toNat (frameContribution s.clock code)).judgeEmergency
      (frameCause src.toNat code)).pump
    refine ⟨_, _, exec_linkEmergency body online low high other,
      exec_linkEmergency body online' low high (addr ▸ other), (congrArg State.emergency alike.rest).symm,
      congrArg (List.map MemberRow.view) alike.rows.symm, (congrArg State.passage alike.rest).symm,
      (congrArg State.portU alike.rest).symm, (congrArg State.portP alike.rest).symm, (congrArg State.screening alike.rest).symm,
      framed_spec body line low inside _ rfl⟩

end Sys2Proof.Machine
end

section
/-! The settling of PENDING_LOCAL entries at a warm reset (R86 to R88, R96). -/

namespace Sys2Proof.Machine

variable {s t u : State} {card : CardNo} {e o x y : Sighting} {p : PendingTap} {xs : List Sighting}

/-! ## Members of the table -/

theorem mem_replaceSighting (other : x.card ≠ y.card) : x ∈ replaceSighting y xs ↔ x ∈ xs := by
  unfold replaceSighting
  rw [List.mem_map]
  constructor
  · rintro ⟨z, hz, rfl⟩
    split at other
    · exact absurd rfl other
    · rwa [if_neg ‹_›]
  · exact fun hx => ⟨x, hx, if_neg other⟩

theorem eq_of_mem_replaceSighting (h : x ∈ replaceSighting y xs) (same : x.card = y.card) : x = y := by
  obtain ⟨z, -, rfl⟩ := List.mem_map.1 h
  split at same
  · rw [if_pos ‹_›]
  · exact absurd same ‹_›

theorem mem_removeSighting : x ∈ removeSighting card xs ↔ x ∈ xs ∧ x.card ≠ card := by
  simp [removeSighting]

/-- No two entries of the table have one card (R75). -/
theorem eq_of_card (ok : (xs.map Sighting.card).Nodup) (hx : x ∈ xs) (hy : y ∈ xs) (same : x.card = y.card) : x = y :=
  List.inj_on_of_nodup_map ok hx hy same

/-- Where an entry that no tap holds leaves, those that taps hold stay. -/
theorem pending_mem_removeSighting (ok : (xs.map Sighting.card).Nodup) (ho : o ∈ xs) (settled : o.isPending = false)
    (pending : x.isPending = true) : x ∈ removeSighting o.card xs ↔ x ∈ xs := by
  rw [mem_removeSighting]
  refine ⟨And.left, fun hx => ⟨hx, fun same => ?_⟩⟩
  rw [eq_of_card ok hx ho same, settled] at pending
  exact nomatch pending

theorem oldestCommitted_mem (h : oldestCommitted xs = some o) : o ∈ xs ∧ o.isCommitted = true := by
  have key : ∀ (ys : List Sighting) (b : Option Sighting),
      ys.foldl (fun best e => match best with
        | none => some e
        | some b => if e.older b then some e else some b) b = some o → o ∈ ys ∨ b = some o := by
    intro ys
    induction ys with
    | nil => exact fun b h => .inr h
    | cons y ys ih =>
      intro b h
      rw [List.foldl_cons] at h
      obtain later | now := ih _ h
      · exact .inl (List.mem_cons_of_mem _ later)
      · cases b with
        | none => exact .inl (List.mem_cons.2 (.inl (Option.some.inj now).symm))
        | some b =>
          dsimp only at now
          split at now
          · exact .inl (List.mem_cons.2 (.inl (Option.some.inj now).symm))
          · exact .inr now
  obtain found | start := key _ _ h
  · exact List.mem_filter.1 found
  · cases start

theorem lowestInDoubt_mem (h : lowestInDoubt xs = some o) : o ∈ xs := by
  have key : ∀ (ys : List Sighting) (b : Option (Nat × Sighting)) (m : Nat),
      ys.foldl
        (fun best e => match e.state, best with
          | .inDoubt _ n, some (m, b) => if n < m then some (n, e) else some (m, b)
          | .inDoubt _ n, none => some (n, e)
          | .committed _, b => b
          | .pendingLocal _, b => b) b = some (m, o) → o ∈ ys ∨ b = some (m, o) := by
    intro ys
    induction ys with
    | nil => exact fun b m h => .inr h
    | cons y ys ih =>
      intro b m h
      rw [List.foldl_cons] at h
      obtain later | now := ih _ m h
      · exact .inl (List.mem_cons_of_mem _ later)
      · cases hy : y.state with
        | committed st => rw [hy] at now; exact .inr now
        | pendingLocal p => rw [hy] at now; exact .inr now
        | inDoubt i n =>
          rw [hy] at now
          cases b with
          | none =>
            obtain ⟨-, rfl⟩ := Prod.mk.inj (Option.some.inj now)
            exact .inl List.mem_cons_self
          | some b =>
            dsimp only at now
            split at now
            · obtain ⟨-, rfl⟩ := Prod.mk.inj (Option.some.inj now)
              exact .inl List.mem_cons_self
            · exact .inr now
  obtain ⟨⟨m, o'⟩, found, rfl⟩ := Option.map_eq_some_iff.1 h
  exact (key _ _ m found).resolve_right nofun

/-- An eviction takes no entry that a tap holds (R76). -/
theorem pending_mem_evict (ok : (xs.map Sighting.card).Nodup) (pending : x.isPending = true) :
    x ∈ evict xs ↔ x ∈ xs := by
  unfold evict
  split
  · split
    · rename_i o found
      obtain ⟨mem, committed⟩ := oldestCommitted_mem found
      refine pending_mem_removeSighting ok mem ?_ pending
      revert committed
      unfold Sighting.isCommitted Sighting.isPending
      cases o.state <;> simp
    · rfl
  · rfl

/-! ## What an operation on the entry of one card does -/

/-- No tap holds an entry of the card. -/
def State.freeOf (card : CardNo) (s : State) : Prop :=
  ∀ x ∈ s.screening.sightings, x.card = card → x.isPending = false

/-- Work on the entry of a card: nothing beside the Screening Unit's own changes, no UNUSED_CREDIT record, and the same
taps hold entries of other cards. -/
structure TableWork (card : CardNo) (s t : State) : Prop where
  screened : ∃ ms xs, Screened s t ms xs ∧ ∀ b ∈ xs, b.kind ≠ .unusedCredit
  sound : s.screening.sightOk → t.screening.sightOk
  others : s.screening.sightOk → ∀ x, x.isPending = true → x.card ≠ card →
    (x ∈ t.screening.sightings ↔ x ∈ s.screening.sightings)
  free : s.freeOf card → t.freeOf card

theorem TableWork.refl (card : CardNo) (s : State) : TableWork card s s :=
  ⟨⟨_, _, Screened.refl s, fun _ h => nomatch h⟩, id, fun _ _ _ _ => Iff.rfl, id⟩

theorem TableWork.trans (first : TableWork card s t) (second : TableWork card t u) : TableWork card s u where
  screened := by
    obtain ⟨_, as, one, before⟩ := first.screened
    obtain ⟨_, bs, other, after⟩ := second.screened
    exact ⟨_, _, one.trans other, fun b hb => (List.mem_append.1 hb).elim (before b) (after b)⟩
  sound ok := second.sound (first.sound ok)
  others ok x pending other := (second.others (first.sound ok) x pending other).trans (first.others ok x pending other)
  free h := second.free (first.free h)

theorem dropRecords_used (l : Link) (ms : List LinkMsg) : ∀ b ∈ l.dropRecords ms, b.kind ≠ .unusedCredit := by
  induction ms generalizing l with
  | nil => exact fun _ h => nomatch h
  | cons m ms ih =>
    intro b hb
    rw [Link.dropRecords, List.mem_append, List.mem_map] at hb
    obtain ⟨q, -, rfl⟩ | later := hb
    · nofun
    · exact ih _ b later

/-- What leaves the table as it is. -/
theorem TableWork.of_screened {ms : List LinkMsg} {bs : List RecBody} (h : Screened s t ms bs)
    (used : ∀ b ∈ bs, b.kind ≠ .unusedCredit) (same : t.screening.sightings = s.screening.sightings) :
    TableWork card s t where
  screened := ⟨_, _, h, used⟩
  sound ok := by rwa [Screening.sightOk, same]
  others _ x _ _ := by rw [same]
  free h := by rwa [State.freeOf, same]

theorem TableWork.of_append (s : State) {b : RecBody} (used : b.kind ≠ .unusedCredit) :
    TableWork card s (s.append b) :=
  .of_screened (.of_append s b) (by simpa using used) (by rw [State.append_screening])

/-- An entry of the card replaced in its place. -/
theorem TableWork.of_replaced {f : Screening → Screening}
    (h : (f s.screening).sightings = replaceSighting y s.screening.sightings) (mine : y.card = card)
    (settled : s.freeOf card → y.isPending = false) : TableWork card s (s.onScreening f) where
  screened := ⟨_, _, .of_screening s f, fun _ h => nomatch h⟩
  sound ok := by
    show ((f s.screening).sightings.map _).Nodup
    rw [h, replaceSighting_cards]
    exact ok
  others _ x _ other := by
    show x ∈ (f s.screening).sightings ↔ _
    rw [h]
    exact mem_replaceSighting (mine ▸ other)
  free before x hx same := by
    rw [State.onScreening_screening, h] at hx
    rw [eq_of_mem_replaceSighting hx (same.trans mine.symm)]
    exact settled before

theorem TableWork.of_put (s : State) (mine : y.card = card) (settled : s.freeOf card → y.isPending = false) :
    TableWork card s (s.putSighting y) :=
  .of_replaced (y := y) (by rfl) mine settled

theorem TableWork.of_touch (s : State) (mine : y.card = card) (settled : y.isPending = false) :
    TableWork card s (s.touchSighting y) :=
  .of_replaced (y := { y with updated := s.time.now, touched := s.screening.order }) (by rfl) mine fun _ => settled

theorem freeOf_touch (s : State) (mine : y.card = card) (settled : y.isPending = false) :
    (s.touchSighting y).freeOf card := by
  intro x hx same
  rw [eq_of_mem_replaceSighting (y := { y with updated := s.time.now, touched := s.screening.order }) hx
    (same.trans mine.symm)]
  exact settled

theorem freeOf_drop (s : State) (card : CardNo) : (s.dropSighting card).freeOf card :=
  fun _ hx same => absurd same (mem_removeSighting.1 hx).2

theorem TableWork.of_drop (s : State) (card : CardNo) : TableWork card s (s.dropSighting card) where
  screened := ⟨_, _, .of_screening s _, fun _ h => nomatch h⟩
  sound := removeSighting_ok
  others _ x _ other := by
    show x ∈ removeSighting card _ ↔ _
    rw [mem_removeSighting]
    exact and_iff_left other
  free _ := freeOf_drop s card

/-- An IN_DOUBT entry given up, whatever its card (R77). -/
theorem TableWork.of_abandon (h : o ∈ s.screening.sightings) : TableWork card s (s.abandon o) := by
  unfold State.abandon
  split
  · rename_i stored serial doubt
    have settled : o.isPending = false := by rw [Sighting.isPending, doubt]
    refine (TableWork.of_append s (b := resolvedRecord o.card serial stored .abandoned none none) nofun).trans
      ⟨⟨_, _, .of_screening _ _, fun _ h => nomatch h⟩, removeSighting_ok, fun ok x pending _ => ?_, fun free x hx =>
        free x (mem_removeSighting.1 hx).1⟩
    rw [State.append_screening] at ok
    show x ∈ removeSighting o.card (State.append _ s).screening.sightings ↔ x ∈ (State.append _ s).screening.sightings
    rw [State.append_screening]
    exact pending_mem_removeSighting ok h settled pending
  · exact .refl card s
  · exact .refl card s

theorem TableWork.of_insert (unknown : s.screening.sighted card = none) (img : SImage) (st : Standing) :
    TableWork card s (s.insertSighting card img (.committed st)) where
  screened := ⟨_, _, .of_screening s _, fun _ h => nomatch h⟩
  sound := (insertSighting_inner card img _ unknown (Inner.refl s)).sight
  others ok x pending _ := by
    show x ∈ evict s.screening.sightings ++ [_] ↔ _
    rw [List.mem_append, pending_mem_evict ok pending, List.mem_singleton, or_iff_left]
    rintro rfl
    simp [Sighting.isPending] at pending
  free before x hx same := by
    obtain old | new := List.mem_append.1 hx
    · exact before x ((evict_sublist _).subset old) same
    · rw [List.mem_singleton.1 new]
      rfl

/-! ## The operations of a settling (R86 to R88, R92, R93) -/

theorem limitInDoubt_work (card : CardNo) (s : State) : TableWork card s s.limitInDoubt := by
  unfold State.limitInDoubt
  split
  · split
    · exact .of_abandon (lowestInDoubt_mem ‹_›)
    · exact .refl card s
  · exact .refl card s

theorem cloneIf_work (mark : Bool) (card : CardNo) (s : State) : TableWork card s (s.cloneIf mark card) := by
  obtain ⟨screened, same, -⟩ := cloneIf_spec mark card s
  exact .of_screened screened (dropRecords_used _ _) same

theorem inboundSighting_work (s : State) (src : Nat) (card : CardNo) (read written : SImage) :
    TableWork card s (s.inboundSighting src card read written) := by
  have resolved {e : Sighting} (stored : SImage) (serial : Nat) (outcome : WriteOutcome) (mine : e.card = card) :
      TableWork card s
        ((s.append (resolvedRecord e.card serial stored outcome none (some src))).touchSighting
          (e.adopt src written)) :=
    (TableWork.of_append s (b := resolvedRecord e.card serial stored outcome none (some src)) nofun).trans
      (.of_touch _ (y := e.adopt src written) mine rfl)
  unfold State.inboundSighting
  split
  · exact .refl card s
  · cases known : s.screening.sighted card with
    | none => exact .of_insert known _ _
    | some e =>
      obtain ⟨mem, mine⟩ := Screening.sighted_some known
      simp only
      cases state : e.state with
      | committed st =>
        simp only [State.sightCommitted]
        split_ifs
        · exact .refl card s
        · exact .of_touch s mine rfl
        · obtain ⟨screened, same, -⟩ := cloneLate_spec e.card src s
          refine .of_screened screened (fun b hb => ?_) same
          obtain drop | late := List.mem_append.1 hb
          · exact dropRecords_used _ _ b drop
          · rw [List.mem_singleton.1 late]
            nofun
      | pendingLocal p =>
        refine .of_put s mine fun free => ?_
        have held := free e mem mine
        rw [Sighting.isPending, state] at held
        exact nomatch held
      | inDoubt stored serial =>
        simp only [State.sightInDoubt]
        split_ifs
        · exact resolved stored serial .committed mine
        · exact resolved stored serial .voided mine
        · exact .refl card s

theorem applyHeld_work (s : State) (card : CardNo) (held : Option HeldUpdate) :
    TableWork card s (s.applyHeld card held) := by
  cases held with
  | none => exact .refl card s
  | some h => exact inboundSighting_work s h.src card h.read h.written

theorem convert_work {side : Side} (held : s.screening.heldBy side card = some (e, p)) :
    TableWork card s (s.convert side card) ∧ (s.convert side card).freeOf card := by
  obtain ⟨-, mine, -, -⟩ := heldBy_eq_some held
  unfold State.convert
  rw [held]
  simp only
  generalize s.limitInDoubt.journal.nextSerial = serial
  generalize p.stored.getD e.baseline = img
  have touched := freeOf_touch s.limitInDoubt (y := { e with state := .inDoubt img serial }) mine rfl
  have before := (limitInDoubt_work card s).trans (.of_touch _ (y := { e with state := .inDoubt img serial }) mine rfl)
  have after := ((TableWork.of_append (card := card)
    (s.limitInDoubt.touchSighting { e with state := .inDoubt img serial })
    (b := inDoubtRecord side card img) nofun).trans (cloneIf_work p.cloneMark card _)).trans
    (applyHeld_work _ card (unmarked p.held))
  exact ⟨before.trans after, after.free touched⟩

theorem endUnwritten_work {side : Side} (held : s.screening.heldBy side card = some (e, p)) :
    TableWork card s (s.endUnwritten side card) ∧ (s.endUnwritten side card).freeOf card := by
  obtain ⟨-, mine, -, -⟩ := heldBy_eq_some held
  unfold State.endUnwritten
  rw [held]
  cases prior : p.prior with
  | none =>
    simp only [prior]
    have after := applyHeld_work (s.dropSighting card) card p.held
    exact ⟨(TableWork.of_drop s card).trans after, after.free (freeOf_drop s card)⟩
  | some st =>
    simp only [prior]
    have after := applyHeld_work (s.touchSighting { e with state := .committed st }) card p.held
    exact ⟨(TableWork.of_touch s (y := { e with state := .committed st }) mine rfl).trans after,
      after.free (freeOf_touch s (y := { e with state := .committed st }) mine rfl)⟩

end Sys2Proof.Machine
end

section
/-! The whole table settled at a warm reset (R96). -/

namespace Sys2Proof.Machine

variable {s t u a b : State} {card : CardNo} {e x y : Sighting} {p : PendingTap} {es : List Sighting}

/-! ## One entry -/

theorem isPending_iff : e.isPending = true ↔ ∃ p, e.state = .pendingLocal p := by
  unfold Sighting.isPending
  cases e.state <;> simp

theorem sighted_of_mem (ok : s.screening.sightOk) (mem : e ∈ s.screening.sightings) :
    s.screening.sighted e.card = some e := by
  cases found : s.screening.sighted e.card with
  | none => exact absurd rfl (Screening.sighted_none found e mem)
  | some x =>
    obtain ⟨hx, same⟩ := Screening.sighted_some found
    rw [eq_of_card ok hx mem same]

theorem settleOne_free (free : s.freeOf card) : s.settleOne card = s := by
  unfold State.settleOne
  cases known : s.screening.sighted card with
  | none => rfl
  | some e =>
    obtain ⟨mem, mine⟩ := Screening.sighted_some known
    have settled := free e mem mine
    unfold Sighting.isPending at settled
    cases state : e.state <;> simp_all

theorem settleOne_converts (known : s.screening.sighted e.card = some e) (state : e.state = .pendingLocal p)
    (stored : p.stored.isSome = true) : s.settleOne e.card = s.convert p.side e.card := by
  simp [State.settleOne, known, state, stored]

theorem settleOne_setsBack (known : s.screening.sighted e.card = some e) (state : e.state = .pendingLocal p)
    (stored : p.stored = none) : s.settleOne e.card = s.endUnwritten p.side e.card := by
  simp [State.settleOne, known, state, stored]

/-- One settling works on its card's entry, and where cards are listed once no tap holds one of it afterwards. -/
theorem settleOne_work (card : CardNo) (s : State) :
    TableWork card s (s.settleOne card) ∧ (s.screening.sightOk → (s.settleOne card).freeOf card) := by
  cases known : s.screening.sighted card with
  | none =>
    have free : s.freeOf card := fun x hx same => absurd same (Screening.sighted_none known x hx)
    rw [settleOne_free free]
    exact ⟨.refl card s, fun _ => free⟩
  | some e =>
    obtain ⟨mem, rfl⟩ := Screening.sighted_some known
    by_cases pending : e.isPending = true
    · obtain ⟨p, state⟩ := isPending_iff.1 pending
      have held := heldBy_some known state rfl
      cases stored : p.stored with
      | none =>
        rw [settleOne_setsBack known state stored]
        obtain ⟨work, free⟩ := endUnwritten_work held
        exact ⟨work, fun _ => free⟩
      | some img =>
        rw [settleOne_converts known state (by rw [stored]; rfl)]
        obtain ⟨work, free⟩ := convert_work held
        exact ⟨work, fun _ => free⟩
    · have same : s.settleOne e.card = s := by
        unfold State.settleOne
        unfold Sighting.isPending at pending
        cases state : e.state <;> simp_all
      rw [same]
      refine ⟨.refl e.card s, fun ok x hx mine => ?_⟩
      rw [eq_of_card ok hx mem mine]
      simpa using pending

/-- One entry settled in a table that lists it, as `PendingSettled` puts it. -/
theorem PendingSettled.of_settleOne (ok : s.screening.sightOk) (mem : e.isPending = true → e ∈ s.screening.sightings)
    (only : e.isPending = false → s.freeOf e.card) (later : PendingSettled (s.settleOne e.card) es t) :
    PendingSettled s (e :: es) t := by
  by_cases pending : e.isPending = true
  · have known := sighted_of_mem ok (mem pending)
    obtain ⟨p, state⟩ := isPending_iff.1 pending
    obtain ⟨_, _, screened, -⟩ := (settleOne_work e.card s).1.screened
    cases stored : p.stored with
    | none =>
      refine .setsBack s _ t e p es state stored screened.rest ?_ later
      rw [settleOne_setsBack known state stored]
      exact (endUnwritten_spec known state rfl).1
    | some img =>
      refine .converts s _ t e p img es state stored screened.rest (fun old gives => ?_) later
      rw [settleOne_converts known state (by rw [stored]; rfl)]
      exact (convert_spec known state rfl stored gives).1
  · have settled : e.isPending = false := by simpa using pending
    rw [settleOne_free (only settled)] at later
    exact .stands s t e es settled later

/-! ## The whole table -/

/-- The table after these entries have been settled: what the pipeline of R96 needs of the entries still to come. -/
theorem settleAll_settled (ok : s.screening.sightOk) (cards : (es.map Sighting.card).Nodup)
    (mem : ∀ e ∈ es, e.isPending = true → e ∈ s.screening.sightings)
    (only : ∀ x ∈ s.screening.sightings, x.isPending = true → x ∈ es) :
    let t := (es.map Sighting.card).foldl State.settleOne s
    PendingSettled s es t ∧ ∀ x ∈ t.screening.sightings, x.isPending = false := by
  induction es generalizing s with
  | nil =>
    refine ⟨.nil s, fun x hx => ?_⟩
    by_contra pending
    exact nomatch only x hx (by simpa using pending)
  | cons e es ih =>
    obtain ⟨fresh, cards'⟩ := List.nodup_cons.1 cards
    obtain ⟨work, free⟩ := settleOne_work e.card s
    obtain ⟨settled, none_⟩ := ih (s := s.settleOne e.card) (work.sound ok) cards'
      (fun x hx pending => (work.others ok x pending fun same =>
        fresh (same ▸ List.mem_map_of_mem hx)).2 (mem x (List.mem_cons_of_mem _ hx) pending))
      (fun x hx pending => by
        have other : x.card ≠ e.card := fun same => absurd (free ok x hx same) (by simp [pending])
        obtain rfl | later := List.mem_cons.1 (only x ((work.others ok x pending other).1 hx) pending)
        · exact absurd rfl other
        · exact later)
    refine ⟨.of_settleOne ok (mem e List.mem_cons_self) (fun idle x hx same => ?_) settled, none_⟩
    by_contra pending
    have pending : x.isPending = true := by simpa using pending
    obtain rfl | later := List.mem_cons.1 (only x hx pending)
    · exact absurd (pending.symm.trans idle) nofun
    · exact fresh (same ▸ List.mem_map_of_mem later)

theorem settlePending_settled (ok : s.screening.sightOk) :
    PendingSettled s s.screening.sightings s.settlePending ∧
      ∀ x ∈ s.settlePending.screening.sightings, x.isPending = false :=
  settleAll_settled ok ok (fun _ h _ => h) fun _ h _ => h

/-- Whatever the table, its settling stays within the line side and makes no UNUSED_CREDIT record. -/
theorem settlePending_screened (s : State) :
    ∃ ms xs, Screened s s.settlePending ms xs ∧ ∀ b ∈ xs, b.kind ≠ .unusedCredit := by
  unfold State.settlePending
  generalize s.screening.sightings.map Sighting.card = cards
  induction cards generalizing s with
  | nil => exact ⟨_, _, Screened.refl s, fun _ h => nomatch h⟩
  | cons card cards ih =>
    obtain ⟨_, as, one, before⟩ := (settleOne_work card s).1.screened
    obtain ⟨_, bs, other, after⟩ := ih (s.settleOne card)
    exact ⟨_, _, one.trans other, fun b hb => (List.mem_append.1 hb).elim (before b) (after b)⟩

theorem settlePending_idle (idle : ∀ e ∈ s.screening.sightings, e.isPending = false) : s.settlePending = s := by
  unfold State.settlePending
  induction s.screening.sightings.map Sighting.card with
  | nil => rfl
  | cons card cards ih =>
    rw [List.foldl_cons, settleOne_free fun x hx _ => idle x hx]
    exact ih

/-! ## Settled beside the ports (R24, R25) -/

/-- The part with what another's settling has changed. -/
def State.screenedAs (s b : State) : State :=
  { s with screening := b.screening, link := b.link, journal := b.journal, host := b.host }

/-- The part at other pins and ports. -/
def State.portedAs (pins : Pins) (portU portP : Port) (s : State) : State :=
  { s with pins := pins, portU := portU, portP := portP }

theorem NoFinding.ported {pins : Pins} {portU portP : Port} (h : NoFinding (s.portedAs pins portU portP) b) :
    NoFinding s (s.screenedAs b) := ⟨h.deny, h.finding, h.findings⟩

theorem Journals.ported {pins : Pins} {portU portP : Port} {xs : List RecBody}
    (h : Journals (s.portedAs pins portU portP) b xs) : Journals s (s.screenedAs b) xs := ⟨h.grown, h.halted⟩

theorem Converted.ported {pins : Pins} {portU portP : Port} {img : SImage} {old : Option Sighting}
    (h : Converted (s.portedAs pins portU portP) b e p img old) : Converted s (s.screenedAs b) e p img old where
  entry := h.entry
  others := h.others
  link := h.link
  records := h.records.ported
  marked mark := { h.marked mark with }
  unmarked mark := (h.unmarked mark).ported

theorem TookBack.ported {pins : Pins} {portU portP : Port} {fate : HeldEnd}
    (h : TookBack (s.portedAs pins portU portP) b e p fate) : TookBack s (s.screenedAs b) e p fate where
  entry := h.entry
  others := h.others
  link := h.link
  records := h.records.ported
  late late := { h.late late with }
  quiet quiet := (h.quiet quiet).ported

/-- A settling reads neither pins nor ports. -/
theorem PendingSettled.ported {pins : Pins} {portU portP : Port} (h : PendingSettled a es b)
    (before : a = s.portedAs pins portU portP) : PendingSettled s es (s.screenedAs b) := by
  induction h generalizing s with
  | nil a =>
    subst before
    exact .nil s
  | stands a b e es settled _ ih =>
    exact .stands s _ e es settled (ih before)
  | converts a u b e p img es state stored rest converted _ ih =>
    subst before
    have step : u = (s.screenedAs u).portedAs pins portU portP := rest
    exact .converts s (s.screenedAs u) _ e p img es state stored rfl (fun old gives => (converted old gives).ported)
      (ih step)
  | setsBack a u b e p es state stored rest back _ ih =>
    subst before
    have step : u = (s.screenedAs u).portedAs pins portU portP := rest
    exact .setsBack s (s.screenedAs u) _ e p es state stored rfl back.ported (ih step)

end Sys2Proof.Machine
end

section
/-! The credits cleared at a warm reset, and the blocks that rest after it (R89, R116, R123, R140, R149, R176, R189). -/

namespace Sys2Proof.Machine

variable {s t u a b : State}

/-! ## The credits (R89, R123) -/

theorem Lapsed.refl (s : State) : Lapsed s s [] := by
  refine ⟨rfl, rfl, fun o => (sighted_map_self fun x _ => ?_).symm⟩
  unfold Sighting.lapsedBy
  cases x.state <;> rfl

/-- The lapse requests of one credit come before those of the credits after it. -/
theorem Lapsed.cons {c : Credit} {cs : List Credit} (first : Lapsed s t [c]) (later : Lapsed t u cs)
    (time : t.time = s.time) (service : t.service = s.service) : Lapsed s u (c :: cs) where
  rest := by rw [later.rest, first.rest]
  cards := later.cards.trans first.cards
  entries o := by
    rw [later.entries, first.entries, time, service, Option.map_map]
    exact congrArg (Option.map · _) (funext fun e => lapsedBy_cons c cs _ e)

/-- The credits of a warm reset make no record of their own, and leave their lapse requests (R123). -/
theorem clearCredits_warmReset (cs : List Credit) (h : s.passage.unwaited) :
    let t := cs.foldl (State.clearCredit .warmReset) s
    Tapped .U s t (cs.flatMap s.lapseFrames) (s.link.dropRecords (cs.flatMap s.lapseFrames)) ∧ Lapsed s t cs := by
  induction cs generalizing s with
  | nil => exact ⟨.refl s, .refl s⟩
  | cons c cs ih =>
    let v := s.onPassage fun g => g.uncredit c.slot
    have one : s.clearCredit .warmReset c = v.lapseCredit c := by
      show (s.removeCredit c.slot).lapseCredit c = _
      rw [removeCredit_unwaited c.slot h]
    obtain ⟨screened, lapsed⟩ := lapseCredit_spec c v
    rw [List.foldl_cons, one]
    have passage : (v.lapseCredit c).passage = s.passage.uncredit c.slot := by rw [screened.rest]; rfl
    have time : (v.lapseCredit c).time = s.time := by rw [screened.rest]; rfl
    have service : (v.lapseCredit c).service = s.service := by rw [screened.rest]; rfl
    have frames : ∀ d, (v.lapseCredit c).lapseFrames d = s.lapseFrames d := fun d => lapseFrames_congr fun o => by
      rw [lapsed.entries]
      show _ = (v.screening.sighted o).elim [] _
      cases v.screening.sighted o with
      | none => rfl
      | some x => exact lapsedBy_lapseFrames [c] _ x d
    have link : (v.lapseCredit c).link = s.link.withFrames (s.lapseFrames c) := screened.link
    obtain ⟨tapped, rest⟩ := ih (s := v.lapseCredit c) (by rw [passage]; exact Passage.uncredit_unwaited c.slot h)
    rw [show cs.flatMap (v.lapseCredit c).lapseFrames = cs.flatMap s.lapseFrames from
      congrArg (cs.flatMap ·) (funext frames), link] at tapped
    refine ⟨?_, Lapsed.cons ⟨lapsed.rest, lapsed.cards, lapsed.entries⟩ rest time service⟩
    rw [List.flatMap_cons, Link.dropRecords_append]
    exact ((Tapped.of_onPassage s .U _).trans (.of_screened screened)).trans tapped

/-- The Passage Controller's clearing as a whole: aisle apart, it is the lapse requests of the credits. -/
theorem clearAisle_spec (b : State) :
    let frames := b.passage.credits.flatMap b.lapseFrames
    b.clearAisle =
        { b with
          screening := b.clearAisle.screening, link := b.clearAisle.link, passage := b.clearAisle.passage,
          journal := b.clearAisle.journal, host := b.clearAisle.host } ∧
      b.clearAisle.passage.claim.lastGranted = b.passage.claim.lastGranted ∧
      Tapped .U b b.clearAisle frames (b.link.dropRecords frames) ∧ Lapsed b b.clearAisle b.passage.credits := by
  let v := b.onPassage fun g => g.withdrawn
  have unwaited : v.passage.unwaited := b.passage.withdrawn_unwaited
  have path : b.clearAisle = b.passage.credits.foldl (State.clearCredit .warmReset) v := rfl
  obtain ⟨tapped, lapsed⟩ := clearCredits_warmReset b.passage.credits unwaited
  have frame := foldl_clearCredit_unwaited .warmReset b.passage.credits unwaited
  simp only at frame tapped lapsed
  rw [← path] at frame tapped lapsed
  have passage : b.clearAisle.passage = v.passage.uncreditAll b.passage.credits := by rw [frame]
  refine ⟨?_, ?_, (Tapped.of_onPassage b .U _).trans tapped, ⟨lapsed.rest, lapsed.cards, lapsed.entries⟩⟩
  · generalize b.clearAisle = c at *
    rw [frame]
    rfl
  · rw [passage, (uncreditAll_uncredited _ _).lastGranted]
    rfl

/-! ## The blocks at rest -/

theorem warmReset_queue (l : Link) (clock : Nat) :
    (l.warmReset clock).queue = l.queue.map fun q => { q with marks := [], inTx := false } := by
  show (l.queue.map _).map _ = _
  rw [List.map_map]
  rfl

theorem warmReset_atRest (l : Link) (clock : Nat) : LinkAtRest (l.warmReset clock) l.addr where
  address := rfl
  state := rfl
  token := ⟨rfl, rfl⟩
  pointer := rfl
  rows r hr := by
    obtain ⟨_, -, rfl⟩ := List.mem_map.1 hr
    rfl
  tx := by
    refine ⟨rfl, rfl, fun q hq => ?_⟩
    rw [warmReset_queue] at hq
    obtain ⟨_, -, rfl⟩ := List.mem_map.1 hq
    rfl
  deassert := rfl
  syncs := rfl

theorem warmReset_rows (l : Link) (clock : Nat) : (l.warmReset clock).rows.length = l.rows.length := by
  show (l.rows.map _).length = _
  rw [List.length_map]

/-- The record of a change of the line emergency state by a warm reset (R149). -/
def resetChange (before after : Bool) : List RecBody :=
  if before = after then []
  else if before = true then [{ kind := .emergencyEnd, reason := some .reset }]
  else [{ kind := .emergencyStart, reason := some .fire }]

theorem recordResetChange_queued (s : State) (before after : Bool) :
    Queued s (s.recordResetChange before after) [] (resetChange before after) := by
  cases before <;> cases after
  · exact .refl s
  · exact .of_append s _
  · exact .of_append s _
  · exact .refl s

theorem resetChange_used (before after : Bool) : ∀ b ∈ resetChange before after, b.kind ≠ .unusedCredit := by
  cases before <;> cases after <;> simp [resetChange]

/-- Link and emergency at a warm reset, with the record of a change (R116, R149). -/
def State.restartLine (s : State) : State :=
  let u := (s.onLink (Link.warmReset s.clock)).onEmergency (Emergency.warmReset s.pins.fire)
  u.recordResetChange s.emergency.line u.emergency.line

/-- The aisle at a warm reset (R140). -/
def State.restartAisle (s : State) : State :=
  (s.onPassage fun g => Passage.atReset s.pins s.clock g.claim.lastGranted).settleLeaves

/-- Host link and service at a warm reset (R176, R189). -/
def State.restartHost (s : State) : State := (s.onHost (HostLink.warmReset (lineSpeed s.pins))).serviceReset

theorem restartLine_spec (s : State) :
    s.restartLine =
        { s with
          link := s.link.warmReset s.clock, emergency := s.emergency.warmReset s.pins.fire,
          journal := s.restartLine.journal, host := s.restartLine.host } ∧
      s.restartLine.host.tapU = s.host.tapU ∧ s.restartLine.host.tapP = s.host.tapP ∧
      Journals s s.restartLine (resetChange s.emergency.line (s.pins.fire || s.emergency.hostFlag)) := by
  let u := (s.onLink (Link.warmReset s.clock)).onEmergency (Emergency.warmReset s.pins.fire)
  have queued : Queued u s.restartLine [] _ := recordResetChange_queued u s.emergency.line u.emergency.line
  obtain ⟨grown, halted⟩ := queued.records
  have link : s.restartLine.link = u.link := queued.link
  have rest := queued.rest
  rw [link] at rest
  exact ⟨rest, by rw [queued.host]; rfl, by rw [queued.host]; rfl, grown, halted⟩

theorem restartAisle_spec (s : State) :
    s.restartAisle = { s with passage := s.restartAisle.passage } ∧
      AisleAtRest s.restartAisle.passage s.pins s.emergency.line s.clock s.passage.claim.lastGranted := by
  let x := s.onPassage fun g => Passage.atReset s.pins s.clock g.claim.lastGranted
  have settled : s.restartAisle = _ := settleLeaves_rest x
  exact ⟨settled.trans (by rw [settled]; rfl), settleLeaves_atReset (s := x) rfl⟩

theorem restartHost_spec (s : State) :
    s.restartHost =
      { s with
        service := { s.service with state := if s.missing.any then .outOfService else .suspended, suspends := [] },
        host := { s.host.warmReset (speedOf s.pins) with notices := [.serviceState] } } := by
  rw [← lineSpeed_eq]
  rfl

/-- Every block once the credits have been cleared. -/
structure Restarted (s t : State) : Prop where
  rest : t =
    { s with
      link := s.link.warmReset s.clock, emergency := s.emergency.warmReset s.pins.fire, passage := t.passage,
      journal := t.journal,
      service := { s.service with state := if s.missing.any then .outOfService else .suspended, suspends := [] },
      host := { s.host.warmReset (speedOf s.pins) with notices := [.serviceState] } }
  aisle : AisleAtRest t.passage s.pins (s.pins.fire || s.emergency.hostFlag) s.clock s.passage.claim.lastGranted
  records : Journals s t (resetChange s.emergency.line (s.pins.fire || s.emergency.hostFlag))

theorem restarted_restart (s : State) : Restarted s s.restartLine.restartAisle.restartHost := by
  obtain ⟨line, tapU, tapP, records⟩ := restartLine_spec s
  obtain ⟨settled, aisle⟩ := restartAisle_spec s.restartLine
  have host := restartHost_spec s.restartLine.restartAisle
  generalize s.restartLine.restartAisle.restartHost = t at *
  generalize s.restartLine.restartAisle = w at *
  generalize s.restartLine = v at *
  have pins : v.pins = s.pins := by rw [line]
  have clock : v.clock = s.clock := by rw [line]
  have emergency : v.emergency = s.emergency.warmReset s.pins.fire := by rw [line]
  have claim : v.passage.claim.lastGranted = s.passage.claim.lastGranted := by rw [line]
  have passage : t.passage = w.passage := by rw [host]
  have journal : t.journal = v.journal := by rw [host, settled]
  have results : w.host.warmReset (speedOf s.pins) = s.host.warmReset (speedOf s.pins) := by
    rw [settled, HostLink.warmReset, tapU, tapP, HostLink.warmReset]
  refine ⟨?_, ?_, records.congr journal⟩
  · rw [show w.pins = s.pins by rw [settled, pins], results] at host
    rw [journal, passage, host, settled, line]
    rfl
  · rw [pins, clock, emergency, claim] at aisle
    rw [passage]
    exact aisle

end Sys2Proof.Machine
end

section
/-! A warm reset as a whole (R184). -/

namespace Sys2Proof.Machine

variable {s t u b z : State} {fire : Bool}

/-! ## Records are told apart (R152) -/

theorem numbered_inj {next now : Nat} {xs ys : List RecBody} (h : numbered next now xs = numbered next now ys) :
    xs = ys := by
  have bodies : ∀ (next : Nat) (zs : List RecBody), (numbered next now zs).map Record.body = zs := by
    intro next zs
    induction zs generalizing next with
    | nil => rfl
    | cons z zs ih => rw [numbered, List.map_cons, ih]
  rw [← bodies next xs, h, bodies]

theorem grownBy_unique {j k : Journal} {now : Nat} {xs ys : List RecBody} (h : j.grownBy k now xs)
    (h' : j.grownBy k now ys) : xs = ys :=
  numbered_inj (List.append_cancel_left (h.1.symm.trans h'.1))

theorem takenFrom_subset (level : Nat) (halted : Bool) (count : Nat) (xs : List RecBody) :
    ∀ b ∈ takenFrom level halted count xs, b ∈ xs := by
  induction xs generalizing halted count with
  | nil => exact fun _ h => h
  | cons x xs ih =>
    intro b hb
    rw [takenFrom] at hb
    split at hb
    · exact List.mem_cons_of_mem _ (ih _ _ b hb)
    · obtain rfl | later := List.mem_cons.1 hb
      · exact List.mem_cons_self
      · exact List.mem_cons_of_mem _ (ih _ _ b later)

theorem taken_resetChange (s : State) (before after : Bool) :
    s.taken (resetChange before after) =
      if s.journal.halted = true ∨ before = after then []
      else if before = true then [{ kind := .emergencyEnd, reason := some .reset }]
      else [{ kind := .emergencyStart, reason := some .fire }] := by
  cases halted : s.journal.halted <;> cases before <;> cases after <;>
    simp [State.taken, resetChange, takenFrom, halted, RecKind.cls]

/-! ## The credits of no credit list, and no entry pending after lapse marks -/

theorem clearAisle_none (h : s.passage.credits = []) : s.clearAisle = s.onPassage fun g => g.withdrawn := by
  show s.passage.credits.foldl _ _ = _
  rw [h]
  rfl

theorem lapsedBy_isPending (credits : List Credit) (deadline : Nat) (e : Sighting) :
    (e.lapsedBy credits deadline).isPending = e.isPending := by
  unfold Sighting.lapsedBy
  split
  · rename_i st _ state _
    split
    · simp [Sighting.isPending, state]
    · rfl
  · rfl

/-- Lapse marks leave no entry pending that was not. -/
theorem Lapsed.settled {credits : List Credit} (h : Lapsed s t credits) (ok : s.screening.sightOk)
    (settled : ∀ e ∈ s.screening.sightings, e.isPending = false) :
    ∀ e ∈ t.screening.sightings, e.isPending = false := by
  intro e he
  have listed : t.screening.sightOk := by
    rw [Screening.sightOk, h.cards]
    exact ok
  have known := sighted_of_mem listed he
  rw [h.entries] at known
  obtain ⟨x, found, rfl⟩ := Option.map_eq_some_iff.1 known
  rw [lapsedBy_isPending]
  exact settled x (Screening.sighted_some found).1

/-! ## The reset, stage by stage -/

/-- The part once the pending entries have been settled, at the pins of a reset with its ports reset (R24, R25, R96). -/
def State.resetTaps (fire : Bool) (s : State) : State :=
  (s.portedAs { s.pins with fire := fire } s.portU.warmReset s.portP.warmReset).settlePending

theorem warmReset_stages (s : State) (fire : Bool) :
    (s.onPins fun p => { p with fire := fire }).warmReset =
      (s.resetTaps fire).clearAisle.restartLine.restartAisle.restartHost := rfl

theorem resetTaps_spec (s : State) (fire : Bool) :
    ∃ ms xs, (s.resetTaps fire).link = s.link.withFrames ms ∧ Journals s (s.resetTaps fire) xs ∧
      (∀ b ∈ xs, b.kind ≠ .unusedCredit) ∧
      s.resetTaps fire =
        (s.screenedAs (s.resetTaps fire)).portedAs { s.pins with fire := fire } s.portU.warmReset s.portP.warmReset ∧
      (s.resetTaps fire).host.tapU = s.host.tapU ∧ (s.resetTaps fire).host.tapP = s.host.tapP := by
  obtain ⟨ms, xs, screened, used⟩ := settlePending_screened
    (s.portedAs { s.pins with fire := fire } s.portU.warmReset s.portP.warmReset)
  have host : (s.resetTaps fire).host = _ := screened.host
  obtain ⟨grown, halted⟩ := screened.records
  exact ⟨ms, xs, screened.link, ⟨grown, halted⟩, used, screened.rest, by rw [host]; rfl, by rw [host]; rfl⟩

theorem Journals.of_ported {pins : Pins} {portU portP : Port} {xs : List RecBody} (h : Journals b t xs)
    (rest : b = (s.screenedAs b).portedAs pins portU portP) : Journals (s.screenedAs b) t xs := by
  have time : b.time = s.time := by rw [rest]; rfl
  have service : b.service = s.service := by rw [rest]; rfl
  obtain ⟨grown, halted⟩ := h
  rw [State.taken, time, service] at grown
  rw [State.taken, service] at halted
  exact ⟨grown, halted⟩

theorem Lapsed.of_ported {pins : Pins} {portU portP : Port} {credits : List Credit} (h : Lapsed b t credits)
    (rest : b = (s.screenedAs b).portedAs pins portU portP) : Lapsed (s.screenedAs b) t credits := by
  have time : b.time = s.time := by rw [rest]; rfl
  have service : b.service = s.service := by rw [rest]; rfl
  obtain ⟨frame, cards, entries⟩ := h
  rw [time, service] at entries
  exact ⟨frame, cards, entries⟩

theorem Lapsed.congr {credits : List Credit} (h : Lapsed s t credits) (same : u.screening = t.screening) :
    Lapsed s u credits := by
  obtain ⟨frame, cards, entries⟩ := h
  rw [← same] at frame cards entries
  exact ⟨frame, cards, entries⟩

/-- What a warm reset leaves, `b` the part with its pending entries settled. -/
structure ResetFrom (s b t : State) (fire : Bool) : Prop where
  rest : t =
    { s with
      pins := { s.pins with fire := fire }, portU := s.portU.warmReset, portP := s.portP.warmReset,
      screening := t.screening, link := t.link, passage := t.passage, emergency := s.emergency.warmReset fire,
      journal := t.journal,
      service := { s.service with state := if s.missing.any then .outOfService else .suspended, suspends := [] },
      host := { s.host.warmReset (speedOf s.pins) with notices := [.serviceState] } }
  lapsed : Lapsed b t s.passage.credits
  kept : s.passage.credits = [] → t.screening = b.screening
  link : t.link = (b.link.withFrames (s.passage.credits.flatMap b.lapseFrames)).warmReset s.clock
  aisle : AisleAtRest t.passage { s.pins with fire := fire } (fire || s.emergency.hostFlag) s.clock
    s.passage.claim.lastGranted
  records : Journals b t
    (b.link.dropRecords (s.passage.credits.flatMap b.lapseFrames) ++
      resetChange s.emergency.line (fire || s.emergency.hostFlag))

theorem resetFrom_warmReset (s : State) (fire : Bool) :
    ResetFrom s (s.resetTaps fire) (s.onPins fun p => { p with fire := fire }).warmReset fire := by
  obtain ⟨-, -, -, -, -, rest, tapU, tapP⟩ := resetTaps_spec s fire
  obtain ⟨cleared, granted, tapped, lapsed⟩ := clearAisle_spec (s.resetTaps fire)
  have last := restarted_restart (s.resetTaps fire).clearAisle
  rw [warmReset_stages]
  generalize s.resetTaps fire = b at *
  have credits : b.passage.credits = s.passage.credits := by rw [rest]; rfl
  have kept : s.passage.credits = [] → b.clearAisle.screening = b.screening := fun none_ => by
    rw [clearAisle_none (credits.trans none_)]
    rfl
  rw [credits] at tapped lapsed
  generalize b.clearAisle = c at *
  generalize c.restartLine.restartAisle.restartHost = z at *
  have frame : c =
      { s with
        pins := { s.pins with fire := fire }, portU := s.portU.warmReset, portP := s.portP.warmReset,
        screening := c.screening, link := c.link, passage := c.passage, journal := c.journal, host := c.host } := by
    refine cleared.trans ?_
    rw [rest]
    rfl
  have results : c.host.warmReset (speedOf s.pins) = s.host.warmReset (speedOf s.pins) := by
    rw [HostLink.warmReset, show c.host.tapU = s.host.tapU by rw [tapped.host, ← tapU],
      show c.host.tapP = s.host.tapP by rw [tapped.host, ← tapP], HostLink.warmReset]
  have pins : c.pins = { s.pins with fire := fire } := by rw [frame]
  have clock : c.clock = s.clock := by rw [frame]
  have emergency : c.emergency = s.emergency := by rw [frame]
  have speed : speedOf c.pins = speedOf s.pins := by rw [pins]; rfl
  have claim : c.passage.claim.lastGranted = s.passage.claim.lastGranted := granted.trans (by rw [rest]; rfl)
  have screening : z.screening = c.screening := by rw [last.rest]
  have link : z.link = c.link.warmReset c.clock := by rw [last.rest]
  have aisle := last.aisle
  have records := last.records
  rw [pins, clock, emergency, claim] at aisle
  rw [pins, emergency] at records
  refine ⟨?_, ⟨?_, ?_, fun o => ?_⟩, fun none_ => screening.trans (kept none_), ?_, aisle, ?_⟩
  · refine last.rest.trans ?_
    rw [speed, results, screening, link]
    generalize z.passage = passage
    generalize z.journal = journal
    rw [frame]
    rfl
  · rw [screening]
    exact lapsed.rest
  · rw [screening]
    exact lapsed.cards
  · rw [screening]
    exact lapsed.entries o
  · rw [link, clock, tapped.link]
  · exact tapped.records.append records (by rw [tapped.rest]) (by rw [tapped.rest])

/-! ## The obligation -/

/-- The transmitter's choice counts no finding. -/
theorem pump_findings_zero (h : s.host.findings = 0) : s.pump.host.findings = 0 := by
  unfold State.pump
  split
  · exact h
  · exact h
  · split
    · exact h
    · simp only [State.sendNotice, State.onHost_host, h, ite_self]

theorem resetFrom_grown (h : ResetFrom s (s.resetTaps fire) t fire) :
    ∃ bodies, s.journal.grownBy t.journal s.time.now bodies ∧ ∀ b ∈ bodies, b.kind ≠ .unusedCredit := by
  obtain ⟨-, xs, -, before, used, rest, -, -⟩ := resetTaps_spec s fire
  have journal := before.append h.records (by rw [rest]; rfl) (by rw [rest]; rfl)
  refine ⟨_, journal.grown, fun b hb => ?_⟩
  obtain early | late := List.mem_append.1 (takenFrom_subset _ _ _ _ b hb)
  · exact used b early
  · obtain drop | change := List.mem_append.1 late
    · exact dropRecords_used _ _ b drop
    · exact resetChange_used _ _ b change

/-- The course of the Screening Unit through a warm reset. -/
theorem resetFrom_settled (h : ResetFrom s (s.resetTaps fire) t fire) (ok : s.screening.sightOk) :
    PendingSettled s s.screening.sightings (s.screenedAs (s.resetTaps fire)) ∧
      ∀ e ∈ t.screening.sightings, e.isPending = false := by
  let a := s.portedAs { s.pins with fire := fire } s.portU.warmReset s.portP.warmReset
  obtain ⟨settled, idle⟩ := settlePending_settled (s := a) ok
  have sound : (s.resetTaps fire).screening.sightOk := (settlePending_inner (Inner.refl a)).sight ok
  exact ⟨settled.ported rfl, h.lapsed.settled sound idle⟩

/-- With nothing pending and no credit standing, a warm reset leaves the line side alone. -/
theorem resetFrom_idle (h : ResetFrom s (s.resetTaps fire) t fire)
    (idle : ∀ e ∈ s.screening.sightings, e.isPending = false) (credits : s.passage.credits = []) :
    t.screening = s.screening ∧ t.link.queue.map QItem.msg = s.link.queue.map QItem.msg ∧
      Journals s t (resetChange s.emergency.line (fire || s.emergency.hostFlag)) := by
  have same : s.resetTaps fire = s.portedAs { s.pins with fire := fire } s.portU.warmReset s.portP.warmReset :=
    settlePending_idle idle
  obtain ⟨-, -, kept, link, -, records⟩ := h
  rw [credits, List.flatMap_nil, same] at link records
  refine ⟨(kept credits).trans (by rw [same]; rfl), ?_, records.grown, records.halted⟩
  rw [link, warmReset_queue, List.map_map]
  rfl

/-- Settles O56: the pending entries, the credits, then every block at rest and the transmitter. -/
theorem warmResetKeepsWhatItsRulesKeep : Obligations.WarmResetKeepsWhatItsRulesKeep := by
  intro s fire
  have reset := resetFrom_warmReset s fire
  obtain ⟨bodies, grown, used⟩ := resetFrom_grown reset
  obtain ⟨ms, -, before, -, -, taps, -⟩ := resetTaps_spec s fire
  have effect : exec (.warmReset fire) s = .next (s.onPins fun p => { p with fire := fire }).warmReset.pump := rfl
  generalize (s.onPins fun p => { p with fire := fire }).warmReset = z at *
  have rest := reset.rest
  have host : z.host = { s.host.warmReset (speedOf s.pins) with notices := [.serviceState] } := by rw [rest]
  have pins : z.pins = { s.pins with fire := fire } := by rw [rest]
  have address : ((s.resetTaps fire).link.withFrames
      (s.passage.credits.flatMap (s.resetTaps fire).lapseFrames)).addr = s.link.addr := by
    rw [Link.withFrames_rest, before, Link.withFrames_rest]
  refine ⟨_, bodies, effect, ?_, ?_, ?_, ?_, ?_, fun side => ?_, fun ok => ?_, ?_, ?_, ?_, ?_, ?_, ?_, ?_, ?_, ?_,
    fun k => ?_, ?_, ?_, ?_, ?_, ?_, used, fun ok _ => ?_, fun idle credits => ?_⟩
  · rw [State.pump_pins, pins]
  · rw [State.pump_clock, rest]
  · rw [State.pump_pending, rest]
  · rw [State.pump_time, rest]
  · rw [State.pump_service, rest]
  · rw [State.pump_port, rest]
    cases side <;> exact ⟨rfl, rfl, rfl, rfl, rfl, rfl⟩
  · rw [State.pump_screening]
    exact (resetFrom_settled reset ok).2
  · rw [State.pump_link, reset.link, ← address]
    exact warmReset_atRest _ _
  · rw [State.pump_link, reset.link, warmReset_rows, Link.withFrames_rows, before, Link.withFrames_rows]
  · rw [State.pump_passage, State.pump_pins, pins]
    exact reset.aisle
  · rw [State.pump_emergency, rest]
    rfl
  · rw [State.pump_journal]
    exact grown
  · rw [State.pump_host_speed, State.pump_pins, host, pins]
    rfl
  · rw [State.pump_host_rxInFrame, host]
    rfl
  · rw [State.pump_host_window, host]
    rfl
  · rw [State.pump_formed, State.formed, host]
    rfl
  · rw [State.pump_tells_eq, State.tells, host]
    cases k <;> rfl
  · rw [State.pump_host_tapU, host]
    rfl
  · rw [State.pump_host_tapP, host]
    rfl
  · rw [State.pump_host_finding, host]
    rfl
  · exact pump_findings_zero (by rw [host]; rfl)
  · rw [State.pump_host_resetTaken, host]
    rfl
  · refine ⟨s.screenedAs (s.resetTaps fire), _, _, (resetFrom_settled reset ok).1, rfl, rfl, ?_, ?_, ?_⟩
    · exact (reset.lapsed.of_ported taps).congr (State.pump_screening z)
    · rw [State.pump_link, reset.link, warmReset_queue]
      rfl
    · exact (reset.records.of_ported taps).congr (State.pump_journal z)
  · obtain ⟨screening, queue, records⟩ := resetFrom_idle reset idle credits
    rw [State.pump_screening, State.pump_link]
    exact ⟨screening, queue, (grownBy_unique grown records.grown).trans (taken_resetChange s _ _)⟩

end Sys2Proof.Machine
end

section
/-! An accepted LOAD_ZONE_ROW and the matrix it leaves: the body of a load is read back entry by entry, an accepted load
is applied whole, and of the rows held the first of a number answers for it (R50, R169, R171, R190, R191). -/

namespace Sys2Proof.Machine

variable {s : State} {v : Service} {tag : Byte} {kind : ReqKind} {i k m x : Nat} {entries : List Nat}

/-! ## The body of a load (R190, R191) -/

theorem judged_value {α : Type} {checks : List Bool} (a : α) (pass : ∀ c ∈ checks, c = true) :
    judged checks a = .value a := by
  have none_bad : checks.findIdx? (!·) = none :=
    List.findIdx?_eq_none_iff.2 fun c member => by rw [pass c member]; rfl
  rw [judged, firstBad, none_bad]
  rfl

/-- Of lists of one length written one after the other, the one at index `n` begins after `n` of them. -/
theorem take_drop_flatMap {α β : Type} {f : α → List β} {size : Nat} (sized : ∀ a, (f a).length = size) :
    ∀ (xs : List α) (n : Nat) (inside : n < xs.length), ((xs.flatMap f).drop (n * size)).take size = f xs[n] := by
  intro xs
  induction xs with
  | nil => nofun
  | cons a xs ih =>
    rintro (_ | n) inside
    · simp [← sized a]
    · have past : (n + 1) * size = (f a).length + n * size := by rw [sized, Nat.succ_mul, Nat.add_comm]
      rw [List.flatMap_cons, past, List.drop_length_add_append]
      exact ih n (Nat.lt_of_succ_lt_succ inside)

/-- The entries of a load are those it was written from, behind two bytes. -/
theorem entriesOf_flatMap {α : Type} {f : α → List Byte} {size : Nat} (sized : ∀ a, (f a).length = size)
    {front : List Byte} (two : front.length = 2) (xs : List α) :
    entriesOf (front ++ xs.flatMap f) xs.length size = xs.map f := by
  refine List.ext_getElem (by simp [entriesOf]) fun n _ inside => ?_
  have inside : n < xs.length := by simpa using inside
  simp only [entriesOf, List.getElem_map, List.getElem_range]
  rw [← two, List.drop_length_add_append, take_drop_flatMap sized xs n inside]

theorem length_flatMap_be (size : Nat) (xs : List Nat) : (xs.flatMap (be size)).length = size * xs.length := by
  simp [List.length_flatMap, Nat.mul_comm]

/-- A zone row within its bounds is read as it was written (R171). -/
theorem readZoneRow_value (short : entries.length ≤ 16) (low : 1 ≤ i) (high : i ≤ entries.length)
    (bounded : ∀ x ∈ entries, x ≤ 20000) :
    readZoneRow (some entries.length) (be 1 i ++ be 1 entries.length ++ entries.flatMap (be 2)) =
      .value (i, entries) := by
  have row : fieldAt (be 1 i ++ be 1 entries.length ++ entries.flatMap (be 2)) 0 1 = i := by
    rw [List.append_assoc, fieldAt_zero _ (by omega)]
  have count : fieldAt (be 1 i ++ be 1 entries.length ++ entries.flatMap (be 2)) 1 1 = entries.length := by
    rw [List.append_assoc]
    exact (fieldAt_past 1 i _ 0 1).trans (fieldAt_zero _ (by omega))
  have read : (entriesOf (be 1 i ++ be 1 entries.length ++ entries.flatMap (be 2)) entries.length 2).map ofBe =
      entries := by
    rw [entriesOf_flatMap (be_length 2) (by simp), List.map_map]
    refine (List.map_congr_left fun x member => ?_).trans (List.map_id entries)
    have fits : x < 256 ^ 2 := (bounded x member).trans_lt (by decide)
    rw [Function.comp_apply, ofBe_be fits, id]
  have form : (be 1 i ++ be 1 entries.length ++ entries.flatMap (be 2)).length = 2 + 2 * entries.length := by
    simp only [List.length_append, be_length, length_flatMap_be]
  unfold readZoneRow
  dsimp only
  rw [row, count, read, if_pos ⟨form ▸ Nat.le_add_right 2 _, form⟩, Option.getD_some]
  refine judged_value _ fun c member => ?_
  simp only [List.mem_cons, List.mem_map] at member
  obtain rfl | rfl | ⟨x, held, rfl⟩ := member
  · exact decide_eq_true ⟨low, high⟩
  · exact decide_eq_true trivial
  · exact decide_eq_true (bounded x held)

/-! ## Loads that are accepted (R164, R169) -/

/-- A load with values in their bounds, while loads are accepted, is applied whole and answered. -/
theorem loadRequest_value {α : Type} (a : α) (apply : α → State → State) (admitted : s.admits tag kind)
    (loads : s.service.pauses) :
    loadRequest tag kind (.value a) apply s =
      .next ((apply a (s.endHostFrame.enter tag)).loaded tag kind).pump := by
  have accepted : (s.endHostFrame.enter tag).service.state.loads = true := by
    simpa using (ServiceState.loads_iff s.service).2 loads
  rw [loadRequest, done, State.take_admitted s _ admitted, State.loadOf, if_pos accepted]

/-- The answer to a load changes at most the service state of the Service Controller. -/
theorem loaded_service (s : State) (tag : Byte) (kind : ReqKind) :
    (s.loaded tag kind).service = { s.service with state := (s.loaded tag kind).service.state } := by
  simp only [State.loaded, State.reply_service]
  split
  · rw [enterService_service]
  · rfl

/-- An accepted LOAD_ZONE_ROW: its row stands in place of what was held for its number (R171). -/
theorem loadZoneRow_rows (loads : s.service.pauses) (zones : s.service.zoneCount = some entries.length)
    (short : entries.length ≤ 16) (low : 1 ≤ i) (high : i ≤ entries.length) (bounded : ∀ x ∈ entries, x ≤ 20000)
    (admitted : s.admits tag .loadZoneRow) :
    ∃ t, exec (.loadZoneRow tag (be 1 i ++ be 1 entries.length ++ entries.flatMap (be 2))) s = .next t ∧
      t.service.rows = (s.service.rows.filter fun r => r.1 != i) ++ [(i, entries)] := by
  have read : exec (.loadZoneRow tag (be 1 i ++ be 1 entries.length ++ entries.flatMap (be 2))) s =
      loadRequest tag .loadZoneRow (.value (i, entries)) State.applyZoneRow s := by
    rw [← readZoneRow_value short low high bounded, ← zones]
    rfl
  refine ⟨_, read.trans (loadRequest_value _ _ admitted loads), ?_⟩
  rw [State.pump_service, loaded_service, State.applyZoneRow, State.onService_service, State.enter_service,
    State.endHostFrame_service]

/-! ## The matrix (R50) -/

/-- The first row held for a number gives the entries of that row. -/
theorem fare_of_held {before after : List (Nat × List Nat)} (rows : v.rows = before ++ (i, entries) :: after)
    (first : ∀ r ∈ before, r.1 ≠ i) (entry : entries[k]? = some x) : v.fare i (k + 1) = x := by
  have earlier : before.find? (fun r => r.1 == i) = none :=
    List.find?_eq_none.2 fun r member => by simpa using first r member
  have found : v.rows.find? (fun r => r.1 == i) = some (i, entries) := by
    rw [rows, List.find?_append, earlier, Option.none_or]
    exact List.find?_cons_of_pos (beq_self_eq_true i)
  rw [Service.fare, found]
  simp [entry]

/-- A row that replaces what was held for its number leaves every other row as it was. -/
theorem fare_of_other {w : Service} (rows : w.rows = (v.rows.filter fun r => r.1 != i) ++ [(i, entries)])
    (other : m ≠ i) (j : Nat) : w.fare m j = v.fare m j := by
  have kept : (fun r : Nat × List Nat => decide ((r.1 != i) = true ∧ (r.1 == m) = true)) = fun r => r.1 == m := by
    funext r
    by_cases same : r.1 = m <;> simp [same, other]
  have added : [(i, entries)].find? (fun r => r.1 == m) = none := by
    simpa using Ne.symm other
  rw [Service.fare, Service.fare, rows, List.find?_append, List.find?_filter, kept, added, Option.or_none]

end Sys2Proof.Machine
end

section
/-! The stages of the fare computation as the statement puts them: base, band, and the pricing of a journey fare (R51,
R52, R54 to R62). -/

namespace Sys2Proof.Machine

variable {v : Service} {tb : TimeBase} {exits : List Nat} {bands : List Band}

/-! ## Smallest and largest entries -/

theorem smallest_spec {xs : List Nat} (some_entry : xs ≠ []) : smallest xs ∈ xs ∧ ∀ x ∈ xs, smallest xs ≤ x := by
  cases xs with
  | nil => exact absurd rfl some_entry
  | cons x xs => exact List.min?_eq_some_iff.1 List.min?_cons'

theorem largest_spec {xs : List Nat} (some_entry : xs ≠ []) : largest xs ∈ xs ∧ ∀ x ∈ xs, x ≤ largest xs := by
  obtain ⟨member, above⟩ : largest xs ∈ 0 :: xs ∧ ∀ x ∈ 0 :: xs, x ≤ largest xs :=
    List.max?_eq_some_iff.1 List.max?_cons'
  refine ⟨?_, fun x held => above x (List.mem_cons_of_mem _ held)⟩
  obtain zero | held := List.mem_cons.1 member
  · obtain ⟨x, held⟩ := List.exists_mem_of_ne_nil xs some_entry
    have := above x (List.mem_cons_of_mem _ held)
    obtain rfl : x = largest xs := by omega
    exact held
  · exact held

/-! ## Stage 1: the base (R51, R54, R55) -/

theorem Zones.list_ne_nil (z : Zones) : z.list ≠ [] := List.cons_ne_nil _ _

theorem smallestFare_smallest {origins : List Nat} (some_origin : origins ≠ []) (some_exit : exits ≠ []) :
    v.smallestFare origins exits (smallest (origins.flatMap fun i => exits.map (v.fare i))) := by
  have some_entry : (origins.flatMap fun i => exits.map (v.fare i)) ≠ [] := by
    obtain ⟨i, origin⟩ := List.exists_mem_of_ne_nil origins some_origin
    obtain ⟨e, exit⟩ := List.exists_mem_of_ne_nil exits some_exit
    exact List.ne_nil_of_mem (List.mem_flatMap.2 ⟨i, origin, List.mem_map_of_mem exit⟩)
  obtain ⟨member, below⟩ := smallest_spec some_entry
  obtain ⟨i, origin, entry⟩ := List.mem_flatMap.1 member
  obtain ⟨e, exit, same⟩ := List.mem_map.1 entry
  exact ⟨⟨i, origin, e, exit, same.symm⟩,
    fun i origin e exit => below _ (List.mem_flatMap.2 ⟨i, origin, List.mem_map_of_mem exit⟩)⟩

/-- The smallest entry from one zone to the exit zones. -/
theorem smallestFare_zone (v : Service) (some_exit : exits ≠ []) (z : Nat) :
    v.smallestFare [z] exits (smallest (exits.map (v.fare z))) := by
  simpa using smallestFare_smallest (v := v) (List.cons_ne_nil z []) some_exit

theorem dearestOrigin_missingBase (zones : 1 ≤ v.zoneCount.getD 0) (some_exit : exits ≠ []) :
    v.dearestOrigin exits (v.missingBase exits) := by
  have some_zone :
      ((List.range (v.zoneCount.getD 0)).map fun z => smallest (exits.map (v.fare (z + 1)))) ≠ [] :=
    List.ne_nil_of_mem (List.mem_map_of_mem (List.mem_range.2 zones))
  obtain ⟨member, above⟩ := largest_spec some_zone
  refine ⟨fun z low high => ?_, ?_⟩
  · obtain ⟨z, rfl⟩ := Nat.exists_eq_add_of_le' low
    obtain ⟨⟨i, origin, e, exit, same⟩, -⟩ := smallestFare_zone v some_exit (z + 1)
    obtain rfl := List.mem_singleton.1 origin
    exact ⟨e, exit, same ▸ above _ (List.mem_map.2 ⟨z, List.mem_range.2 high, rfl⟩)⟩
  · obtain ⟨z, inside, dearest⟩ := List.mem_map.1 member
    refine ⟨z + 1, Nat.le_add_left 1 z, List.mem_range.1 inside, ?_⟩
    rw [Service.missingBase, ← dearest]
    exact smallestFare_zone v some_exit (z + 1)

theorem exitBase_baseFare (zones : 1 ≤ v.zoneCount.getD 0) (some_exit : exits ≠ []) (origins : List Nat) :
    v.exitBase origins exits (v.baseFare origins exits) := by
  unfold Service.exitBase Service.baseFare
  split
  · rename_i inside
    have some_origin : (origins.filter fun i => decide (i ≤ v.zoneCount.getD 0)) ≠ [] := by
      obtain ⟨i, origin, low⟩ := inside
      exact List.ne_nil_of_mem (List.mem_filter.2 ⟨origin, decide_eq_true low⟩)
    split
    · exact absurd ‹_› some_origin
    · rename_i kept
      rw [← kept]
      exact smallestFare_smallest some_origin some_exit
  · rename_i outside
    have no_origin : (origins.filter fun i => decide (i ≤ v.zoneCount.getD 0)) = [] :=
      List.filter_eq_nil_iff.2 fun i origin low => outside ⟨i, origin, of_decide_eq_true low⟩
    rw [no_origin]
    exact dearestOrigin_missingBase zones some_exit

/-! ## Stage 2: the band (R52) -/

/-- After the last element that passes a test, none passes. -/
theorem split_of_getLast?_filter {α : Type} {p : α → Bool} {xs : List α} {b : α}
    (last : (xs.filter p).getLast? = some b) :
    ∃ before after, xs = before ++ b :: after ∧ p b = true ∧ ∀ x ∈ after, ¬p x = true := by
  obtain ⟨ys, ends⟩ := List.getLast?_eq_some_iff.1 last
  obtain ⟨front, back, rfl, -, one⟩ := List.filter_eq_append_iff.1 ends
  obtain ⟨skipped, after, rfl, -, passes, rest⟩ := List.filter_eq_cons_iff.1 one
  exact ⟨front ++ skipped, after, (List.append_assoc ..).symm, passes, List.filter_eq_nil_iff.1 rest⟩

/-- A band set whose first band starts at minute 0 has a band in force at every minute (R52, R172). -/
theorem bandAt_inForce (ranged : bandsInRange bands) (minute : Nat) :
    ∃ before b after, bands = before ++ b :: after ∧ b.start ≤ minute ∧ (∀ x ∈ after, minute < x.start) ∧
      b.multiplier = bandAt bands minute := by
  obtain ⟨-, -, midnight, -, -⟩ := ranged
  have started : (bands.filter fun b => decide (b.start ≤ minute)) ≠ [] := by
    obtain ⟨first, head, zero⟩ := Option.map_eq_some_iff.1 midnight
    exact List.ne_nil_of_mem
      (List.mem_filter.2 ⟨List.mem_of_head? head, decide_eq_true (zero ▸ Nat.zero_le minute)⟩)
  obtain ⟨b, last⟩ := Option.isSome_iff_exists.1 (List.getLast?_isSome.2 started)
  obtain ⟨before, after, parts, low, later⟩ := split_of_getLast?_filter last
  refine ⟨before, b, after, parts, of_decide_eq_true low, fun x member => ?_, by rw [bandAt, last, Option.elim_some]⟩
  simpa using later x member

theorem WeekMask.any_of_flags {w : WeekMask} {day : Nat} (flagged : w.flags day = true) : w.any = true := by
  unfold WeekMask.flags at flagged
  unfold WeekMask.any
  split at flagged <;> simp_all

/-- With the bands ready, the set that the day asks for is held (R52, R165). -/
theorem bandsFor_held (ready : v.bandsReady = true) (tb : TimeBase) (t : Nat) :
    (if v.params.weekend.flags (dayOfWeek (tb.serviceDay t)) = true then v.weekendSet else v.weekday) =
      some (v.bandsFor tb t) := by
  obtain ⟨weekday, weekend⟩ := (Bool.and_eq_true _ _).mp ready
  unfold Service.bandsFor
  split
  · rename_i flagged
    have held : v.weekendSet.isSome = true := by simpa [WeekMask.any_of_flags flagged] using weekend
    obtain ⟨bands, held⟩ := Option.isSome_iff_exists.1 held
    rw [held, Option.getD_some]
  · obtain ⟨bands, held⟩ := Option.isSome_iff_exists.1 weekday
    rw [held, Option.getD_some]

theorem bandRate_multiplier (ready : v.bandsReady = true)
    (ranged : ∀ bands, v.weekday = some bands ∨ v.weekendSet = some bands → bandsInRange bands) (tb : TimeBase)
    (t : Nat) : v.bandRate tb t (v.multiplier tb t) := by
  have held := bandsFor_held ready tb t
  have chosen : v.weekday = some (v.bandsFor tb t) ∨ v.weekendSet = some (v.bandsFor tb t) := by
    split at held
    · exact .inr held
    · exact .inl held
  obtain ⟨before, b, after, parts, low, later, rate⟩ := bandAt_inForce (ranged _ chosen) (tb.minuteOfDay t)
  exact ⟨_, before, b, after, held, parts, low, later, rate⟩

/-! ## Stages 6 to 9: a journey fare is priced (R59 to R62) -/

/-- A cap holds the charge to what it leaves free, and no charge exceeds what the chain has left to pay (R60). -/
theorem capped_le (cap leg spent : Nat) :
    capped cap leg spent ≤ leg ∧ (cap ≠ 0 → spent + capped cap leg spent ≤ max cap spent) := by
  unfold capped
  split
  · exact ⟨le_rfl, fun capless => absurd ‹_› capless⟩
  · exact ⟨min_le_left .., fun _ => by omega⟩

/-- What a pricing returns lies within the limits of the class (R59 to R62). -/
theorem priced_bounds {cls : ClassRec} {img : Image} {tx j p t : Nat} {q : Priced}
    (paid : priced tb cls img tx j p t = some q) :
    q.charge ≤ j ∧ (cls.cap ≠ 0 → q.spent ≤ max cls.cap t) ∧ q.balance ≤ img.balance ∧
      -(cls.overdraft : Int) ≤ q.balance := by
  have charge : (if cls.cap = 0 then j - p else min (j - p) (cls.cap - t)) = capped cls.cap (j - p) t := rfl
  obtain ⟨within, under⟩ := capped_le cls.cap (j - p) t
  simp only [priced, charge] at paid
  split at paid
  · cases paid
  · rename_i funded
    obtain rfl := Option.some.inj paid
    exact ⟨within.trans (Nat.sub_le j p), fun cap => (min_le_right _ _).trans (under cap),
      Int.sub_le_self _ (Int.natCast_nonneg _), Int.not_lt.1 funded⟩

/-- Settles O52: the matrix by the first row held for a number, a load by the rows it leaves, a pricing by its base, its
band and the limits of the class. -/
theorem faresFollowTheStages : Obligations.FaresFollowTheStages := by
  intro v tb cls here img tx
  refine ⟨fun before after i k entries x => fare_of_held,
    fun s tag i entries loads zones short low high bounded admitted => ?_, fun zones ready ranged => ⟨?_, ?_⟩,
    fun j p t q => priced_bounds⟩
  · obtain ⟨t, effect, rows⟩ := loadZoneRow_rows loads zones short low high bounded admitted
    refine ⟨t, effect, fun k x => fare_of_held rows fun r member => ?_, fun m j other => fare_of_other rows other j⟩
    simpa using (List.mem_filter.1 member).2
  · exact ⟨_, _, _, _, exitBase_baseFare zones here.list_ne_nil img.originZones.list,
      bandRate_multiplier ready ranged tb img.chainStart, rfl, rfl, rfl⟩
  · exact ⟨_, _, _, dearestOrigin_missingBase zones here.list_ne_nil, bandRate_multiplier ready ranged tb tx, rfl, rfl⟩

end Sys2Proof.Machine
end

section
/-! What keeps a state good: the operations inside a command, updates of one block, requests and loads, and the judging
of the halt (R64, R97, R102, R124, R145, R152, R157 to R159, R169, R179, R186). -/

namespace Sys2Proof.Machine

variable {s t : State}

/-! ## Operations inside a command -/

/-- What an operation inside a command leads to is good. -/
theorem Inner.good (h : Inner s t) (g : Good s) : Good t where
  serials := Journal.serialsOk_grows h.journal g.serials
  halt := h.halt g.halt
  line := h.line g.line
  deny := h.deny g.deny
  sight := h.sight g.sight
  queue := h.queue g.queue
  rows := h.rows.trans g.rows
  occupants := h.occupants g.occupants
  notices := h.notices g.notices
  window := by simpa only [HostLink.windowOk, h.window] using g.window
  now := by simpa only [TimeBase.nowOk, h.time] using g.now

theorem Good.reply (tag : Byte) (kind : ReqKind) (body : ReplyBody) (g : Good s) : Good (s.reply tag kind body) :=
  (reply_inner _ _ _ (Inner.refl s)).good g

/-! ## Updates of one block -/

/-- Good states are told by neither the queue of commands nor the pins. -/
theorem Good.withQueue (q : List Instr) (g : Good s) : Good (s.withQueue q) := { g with }

theorem Good.onPins (f : Pins → Pins) (g : Good s) : Good (s.onPins f) := { g with }

theorem Good.onTime {f : TimeBase → TimeBase} (hf : (f s.time).nowOk) (g : Good s) : Good (s.onTime f) :=
  { g with now := hf }

/-- A change of the service block that leaves the parameters. -/
theorem Good.onService {f : Service → Service} (hf : (f s.service).params = s.service.params) (g : Good s) :
    Good (s.onService f) :=
  { g with halt := by simpa only [State.haltOk, State.onService_service, State.onService_journal, hf] using g.halt }

theorem Good.onHost {f : HostLink → HostLink} (hn : (f s.host).noticesOk) (hw : (f s.host).windowOk) (g : Good s) :
    Good (s.onHost f) :=
  { g with notices := hn, window := hw }

theorem Good.onPassage {f : Passage → Passage} (hf : (f s.passage).occupantsOk) (g : Good s) : Good (s.onPassage f) :=
  { g with occupants := hf }

/-- A millisecond with no command: at most the next frame of a turn is chosen. -/
theorem Good.idle (g : Good s) : Good s.idle := by
  obtain ⟨rows, queue⟩ := Link.beginTx_keeps s.link s.clock s.emergency.own
  exact
    { g with
      line := by simpa only [State.lineOk, State.lineJudged, State.idle_link, State.idle_emergency, rows] using g.line
      queue := queue g.queue
      rows := (congrArg List.length rows).trans g.rows }

/-! ## Requests (R179) -/

theorem good_endHostFrame (g : Good s) : Good s.endHostFrame := (endHostFrame_inner (Inner.refl s)).good g

/-- An admitted tag is neither 0 nor outstanding (R179). -/
theorem good_enter {tag : Byte} {kind : ReqKind} (admitted : s.admits tag kind) (g : Good s) :
    Good (s.endHostFrame.enter tag) := by
  obtain ⟨-, nonzero, fresh, -⟩ := (State.admits_iff s tag kind).1 admitted
  obtain ⟨distinct, zero⟩ := g.window
  refine (good_endHostFrame g).onHost g.notices ⟨?_, ?_⟩
  · exact List.nodup_append.2 ⟨distinct, List.nodup_singleton tag, fun a ha b hb e =>
      fresh (List.mem_singleton.1 hb ▸ e ▸ ha)⟩
  · rw [List.mem_append, List.mem_singleton]
    exact fun h => h.elim zero fun e => nonzero e.symm

theorem good_take (tag : Byte) (kind : ReqKind) {act : State → State} (ha : ∀ u, Good u → Good (act u)) (g : Good s) :
    Good (s.take tag kind act) := by
  unfold State.take
  split
  · exact good_endHostFrame g
  · exact (linkRefuse_inner _ _ _ (Inner.refl _)).good (good_endHostFrame g)
  · exact (linkRefuse_inner _ _ _ (Inner.refl _)).good (good_endHostFrame g)
  · rename_i admitted
    exact ha _ (good_enter admitted g)

theorem good_parsed {α : Type} (tag : Byte) (kind : ReqKind) (p : Parsed α) {act : α → State → State}
    (ha : ∀ a, p = .value a → Good (act a s)) (g : Good s) : Good (State.parsed tag kind p act s) := by
  cases p with
  | badLength => exact g.reply ..
  | range n => exact g.reply ..
  | value a => exact ha a rfl

/-! ## Results -/

/-- Every next state of a result is good. -/
def NextGood (r : Result) : Prop := ∀ t, r = .next t → Good t

theorem nextGood_done (g : Good t) : NextGood (done t) := by
  rintro _ ⟨⟩
  exact (pump_inner (Inner.refl t)).good g

/-- A command that is made of operations inside a command. -/
theorem Inner.nextGood (h : Inner s t) (g : Good s) : NextGood (done t) := nextGood_done (h.good g)

/-- A request whose owner's effect, for a body as read, leads from good states to good states. -/
theorem nextGood_request {α : Type} {tag : Byte} {kind : ReqKind} {p : Parsed α} {act : α → State → State}
    (ha : ∀ a u, p = .value a → Good u → Good (act a u)) (g : Good s) : NextGood (request tag kind p act s) :=
  nextGood_done (good_take tag kind (fun u gu => good_parsed tag kind p (fun a e => ha a u e gu) gu) g)

/-- A request whose owner's effect is made of operations inside a command. -/
theorem nextGood_innerRequest {α : Type} {tag : Byte} {kind : ReqKind} {p : Parsed α} {act : α → State → State}
    (ha : ∀ a u, Inner u (act a u)) (g : Good s) : NextGood (request tag kind p act s) :=
  nextGood_request (fun a u _ => (ha a u).good) g

/-! ## Loads (R169 to R174) -/

theorem loaded_inner (tag : Byte) (kind : ReqKind) (h : Inner s t) : Inner s (t.loaded tag kind) := by
  unfold State.loaded
  refine reply_inner _ _ _ ?_
  split
  · exact raise_inner _ (onService_inner _ ⟨rfl, rfl⟩ h)
  · exact h

theorem good_loadOf {α : Type} (tag : Byte) (kind : ReqKind) (p : Parsed α) {apply : α → State → State}
    (ha : ∀ a, p = .value a → Good (apply a s)) (g : Good s) : Good (State.loadOf tag kind p apply s) := by
  cases p with
  | badLength => exact g.reply ..
  | range n =>
    simp only [State.loadOf]
    split <;> exact g.reply ..
  | value a =>
    simp only [State.loadOf]
    split
    · exact (loaded_inner tag kind (Inner.refl _)).good (ha a rfl)
    · exact g.reply ..

/-- A load that leads from good states to good states when it is applied. -/
theorem nextGood_load {α : Type} {tag : Byte} {kind : ReqKind} {p : Parsed α} {apply : α → State → State}
    (ha : ∀ a u, p = .value a → Good u → Good (apply a u)) (g : Good s) : NextGood (loadRequest tag kind p apply s) :=
  nextGood_done (good_take tag kind (fun u gu => good_loadOf tag kind p (fun a e => ha a u e gu) gu) g)

theorem good_applyStation (a : StationLoad) (g : Good s) : Good (s.applyStation a) := by
  have settings : Good ((s.onService fun v => { v with station := some a.station }).onTime fun tb =>
      { tb with offset := a.offset, boundary := a.boundary }) := (g.onService rfl).onTime g.now
  simp only [State.applyStation]
  split
  · exact (restartLink_inner _ (Inner.refl _)).good settings
  · exact settings

/-! ## The journal's levels (R153, R157, R158) -/

theorem Good.raise (k : NoticeKind) (g : Good s) : Good (s.raise k) :=
  g.onHost (HostLink.raise_ok k g.notices) (by
    simpa only [HostLink.windowOk, (HostLink.raise_same k s.host).2.1] using g.window)

/-- The part with its journal halted: its halt level bounds nothing. -/
def State.halting (s : State) : State := s.onJournal fun j => { j with halted := true }

theorem Good.halting (g : Good s) : Good s.halting :=
  { g with halt := ⟨g.halt.1, fun running => Bool.noConfusion running⟩ }

/-- A part that would be good in a halt is good once the halt is below its level. -/
theorem Good.of_halting (g : Good s.halting) (halt : s.haltOk) : Good s := { g with halt := halt }

theorem Good.judgeHalt (g : Good s.halting) : Good s.judgeHalt := by
  unfold State.judgeHalt
  split
  · exact g.raise .journalHalt
  · rename_i below
    exact g.of_halting ⟨g.halt.1, fun running => by simpa [running] using below⟩

theorem Good.judgeResume (g : Good s) : Good s.judgeResume := by
  unfold State.judgeResume
  split
  · rename_i resumes
    obtain ⟨-, low⟩ := Bool.and_eq_true_iff.1 resumes
    obtain ⟨-, -, -, -, below⟩ := g.halt.1
    exact Good.raise .journalHalt { g with halt := ⟨g.halt.1, fun _ => (of_decide_eq_true low).trans_lt below⟩ }
  · exact g

theorem Good.judgeLoadedLevels (g : Good s.halting) : Good s.judgeLoadedLevels := by
  unfold State.judgeLoadedLevels
  split
  · rename_i halted
    exact (g.of_halting ⟨g.halt.1, fun running => absurd halted (by simp [running])⟩).judgeResume
  · exact g.judgeHalt

/-- Checks of a body that read a value all hold. -/
theorem checks_of_judged {α : Type} {checks : List Bool} {a b : α} (h : judged checks a = .value b) :
    b = a ∧ ∀ c ∈ checks, c = true := by
  unfold judged firstBad at h
  split at h
  · cases h
  · rename_i none
    cases h
    refine ⟨rfl, fun c hc => ?_⟩
    simpa using List.findIdx?_eq_none_iff.1 (Option.map_eq_none_iff.1 none) c hc

/-- Levels loaded are in their bounds (R153, R174). -/
theorem readParams_levelsOk {body : List Byte} {p : Params} (h : readParams body = .value p) : p.levelsOk := by
  unfold readParams at h
  split at h
  · obtain ⟨rfl, checks⟩ := checks_of_judged h
    simp only [List.forall_mem_cons, decide_eq_true_eq] at checks
    obtain ⟨-, -, -, -, -, -, -, -, -, -, -, notice, halt, resume, -⟩ := checks
    exact ⟨notice.1, notice.2, halt.1, halt.2, resume⟩
  · cases h

theorem good_applyParams {p : Params} (levels : p.levelsOk) (g : Good s) : Good (s.applyParams p) :=
  Good.judgeLoadedLevels { g.halting with halt := ⟨levels, fun running => Bool.noConfusion running⟩ }

/-- The oldest records leave: the serials of the others stay, and the count is no higher (R161). -/
theorem Journal.serialsOk_drop {j : Journal} (n : Nat) (ok : j.serialsOk) :
    ({ j with records := j.records.drop n } : Journal).serialsOk := by
  obtain ⟨serials, fewer⟩ := ok
  refine ⟨?_, by simp only [List.length_drop]; omega⟩
  simp only [List.map_drop, serials, List.drop_range', List.length_drop]
  obtain short | long := Nat.le_total n j.records.length
  · congr 1; omega
  · simp [Nat.sub_eq_zero_of_le long]

theorem good_journalDrop (tag : Byte) (a : Nat × Nat) (g : Good s) : Good (s.journalDrop tag a) := by
  unfold State.journalDrop
  split
  · have dropped : Good (s.onJournal fun j => { j with records := j.records.drop a.2 }) :=
      { g with
        serials := Journal.serialsOk_drop a.2 g.serials
        halt := ⟨g.halt.1, fun running => (List.drop_sublist ..).length_le.trans_lt (g.halt.2 running)⟩ }
    exact dropped.judgeResume.reply ..
  · exact g.reply ..

end Sys2Proof.Machine
end

section
/-! The owner's effect of each request that is made of operations inside a command, and of the passage's and the
readers' commands (R7 to R24, R95, R114, R122, R131 to R138, R160, R166 to R168). -/

namespace Sys2Proof.Machine

variable {s t : State}

/-! ## Suspend and resume (R164, R166 to R168) -/

theorem enterService_inner (st : ServiceState) (h : Inner s t) : Inner s (t.enterService st) :=
  raise_inner _ (onService_inner _ ⟨rfl, rfl⟩ h)

theorem retirePorts_inner (h : Inner s t) : Inner s t.retirePorts := onPort_inner _ _ (onPort_inner _ _ h)

theorem awaitDrain_inner (tag : Byte) (h : Inner s t) : Inner s (t.awaitDrain tag) := onService_inner _ ⟨rfl, rfl⟩ h

theorem suspend_inner (tag : Byte) (h : Inner s t) : Inner s (t.suspend tag) := by
  unfold State.suspend
  split
  · split
    · exact reply_inner _ _ _ (retirePorts_inner (enterService_inner _ h))
    · exact awaitDrain_inner _ (retirePorts_inner (enterService_inner _ h))
  · exact awaitDrain_inner _ h
  · exact reply_inner _ _ _ h
  · exact reply_inner _ _ _ h

theorem reviveSide_inner (side : Side) (h : Inner s t) : Inner s (t.reviveSide side) := by
  unfold State.reviveSide
  split
  · exact h
  · exact onPort_inner _ _ h

theorem enterInService_inner (h : Inner s t) : Inner s t.enterInService :=
  reviveSide_inner _ (reviveSide_inner _ (enterService_inner _ h))

theorem tryResume_inner (tag : Byte) (h : Inner s t) : Inner s (t.tryResume tag) := by
  unfold State.tryResume
  split
  · exact reply_inner _ _ _ h
  · exact reply_inner _ _ _ (enterInService_inner h)

theorem resume_inner (tag : Byte) (h : Inner s t) : Inner s (t.resume tag) := by
  unfold State.resume
  split
  · exact tryResume_inner _ h
  · exact tryResume_inner _ h
  · exact reply_inner _ _ _ h
  · exact answerSuspends_inner _ (reply_inner _ _ _ (enterInService_inner h))

/-! ## The deny list on request (R73, R95) -/

theorem insertCentral_denyOk {c : Screening} {e : DenyEntry} (n : Nat) (central : e.isLocal = false)
    (absent : ∀ x ∈ c.deny, x.card ≠ e.card) (room : c.deny.length < Config.denyCap) (ok : c.denyOk) :
    ({ c with deny := insertDeny e c.deny, order := n } : Screening).denyOk := by
  obtain ⟨sorted, locals, -⟩ := ok
  refine ⟨insertDeny_sorted sorted absent, ?_, ?_⟩
  · simpa only [Screening.localCount, (insertDeny_perm e c.deny).countP_eq,
      List.countP_cons_of_neg (ne_true_of_eq_false central)] using locals
  · exact (insertDeny_perm e c.deny).length_eq.trans_le room

theorem replaceCentral_denyOk {c : Screening} {e : DenyEntry} (n : Nat) (central : e.isLocal = false) (ok : c.denyOk) :
    ({ c with deny := replaceDeny e c.deny, order := n } : Screening).denyOk := by
  obtain ⟨sorted, locals, size⟩ := ok
  have card (x : DenyEntry) : (if x.card = e.card then e else x).card = x.card := by
    split
    · rename_i same; exact same.symm
    · rfl
  have local_ (x : DenyEntry) : (if x.card = e.card then e else x).isLocal = true → x.isLocal = true := by
    split
    · exact fun h => absurd h (ne_true_of_eq_false central)
    · exact id
  refine ⟨?_, ?_, ?_⟩
  · exact List.pairwise_map.2 (by simpa only [card] using sorted)
  · refine le_trans ?_ locals
    rw [Screening.localCount, replaceDeny, List.countP_map]
    exact List.countP_mono_left fun x _ => local_ x
  · simpa only [replaceDeny, List.length_map] using size

theorem filterDeny_denyOk {c : Screening} (keep : DenyEntry → Bool) (ok : c.denyOk) :
    ({ c with deny := c.deny.filter keep } : Screening).denyOk := by
  obtain ⟨sorted, locals, size⟩ := ok
  exact ⟨sorted.sublist List.filter_sublist, List.filter_sublist.countP_le.trans locals,
    List.filter_sublist.length_le.trans size⟩

theorem hostDeny_inner (tag : Byte) (a : CardNo × DenyAction) (h : Inner s t) : Inner s (t.hostDeny tag a) := by
  unfold State.hostDeny
  split
  · exact reply_inner _ _ _ (onScreening_inner _ (replaceCentral_denyOk _ rfl) id h)
  · rename_i absent
    split
    · rename_i room
      exact reply_inner _ _ _ (onScreening_inner _
        (insertCentral_denyOk _ rfl (Screening.denied_none (Bool.eq_false_of_not_eq_true absent)) room) id h)
    · exact reply_inner _ _ _ h

theorem denyRemove_inner (tag : Byte) (card : CardNo) (h : Inner s t) : Inner s (t.denyRemove tag card) := by
  unfold State.denyRemove
  split
  · exact reply_inner _ _ _ (onScreening_inner _ (filterDeny_denyOk _) id h)
  · exact reply_inner _ _ _ h

theorem denyClear_inner (tag : Byte) (h : Inner s t) : Inner s (t.denyClear tag) :=
  reply_inner _ _ _ (onScreening_inner _ (filterDeny_denyOk _) id h)

theorem denyQuery_inner (tag : Byte) (card : CardNo) (h : Inner s t) : Inner s (t.denyQuery tag card) := by
  unfold State.denyQuery
  split <;> exact reply_inner _ _ _ h

theorem sightingQuery_inner (tag : Byte) (card : CardNo) (h : Inner s t) : Inner s (t.sightingQuery tag card) := by
  unfold State.sightingQuery
  split <;> exact reply_inner _ _ _ h

/-! ## SYNC_LINE (R114) -/

theorem Link.markAll_keeps (tag : Byte) (l : Link) : l.Keeps (l.markAll tag) := by
  refine ⟨rfl, fun o => Link.queueOk_of o (by simp [Link.markAll]) ?_ rfl⟩
  simp only [Link.markAll, List.countP_map, Function.comp_def]
  exact le_rfl

theorem syncLine_inner (tag : Byte) (h : Inner s t) : Inner s (t.syncLine tag) := by
  unfold State.syncLine
  split
  · exact reply_inner _ _ _ h
  · split
    · exact reply_inner _ _ _ h
    · exact keeps_inner (Link.markAll_keeps tag _) h

/-! ## Staff requests (R132, R136 to R138) -/

theorem staffPass_inner (tag : Byte) (d : Direction) (h : Inner s t) : Inner s (t.staffPass tag d) := by
  unfold State.staffPass
  split
  · exact reply_inner _ _ _ h
  · split
    · split
      · exact reply_inner _ _ _ (append_inner _ (formCredit_inner _ _ _ (onClaim_inner _ h)))
      · exact reply_inner _ _ _ h
    · exact reply_inner _ _ _ h

theorem setHold_inner (hold : Bool) (h : Inner s t) : Inner s (t.setHold hold) := by
  unfold State.setHold
  split
  · exact h
  · exact settleLeaves_inner (onPassage_inner _ id h)

theorem holdOpen_inner (tag : Byte) (h : Inner s t) : Inner s (t.holdOpen tag) := by
  unfold State.holdOpen
  split
  · exact reply_inner _ _ _ h
  · exact reply_inner _ _ _ (setHold_inner _ h)

theorem holdRelease_inner (tag : Byte) (h : Inner s t) : Inner s (t.holdRelease tag) :=
  reply_inner _ _ _ (setHold_inner _ h)

theorem gateReset_inner (tag : Byte) (h : Inner s t) : Inner s (t.gateReset tag) := by
  unfold State.gateReset
  split
  · exact judgeWaiting_inner (onPassage_inner _ id h)
  · exact reply_inner _ _ _ h

theorem alarmClear_inner (tag : Byte) (named : Latches) (h : Inner s t) : Inner s (t.alarmClear tag named) :=
  reply_inner _ _ _ (onPassage_inner _ id h)

theorem setHostFlag_inner (tag : Byte) (kind : ReqKind) (flag : Bool) (h : Inner s t) :
    Inner s (t.setHostFlag tag kind flag) := reply_inner _ _ _ (changeOwn_inner _ _ rfl h)

/-! ## The passage's events and timers (R122, R126, R134) -/

theorem reopen_inner (h : Inner s t) : Inner s t.reopen := by
  unfold State.reopen
  split
  · exact travelTo_inner _ _ h
  · exact h

theorem opened_inner (h : Inner s t) : Inner s t.opened := by
  unfold State.opened
  split
  · exact settleLeaves_inner (judgeGateReset_inner (rest_inner _ h))
  · exact h

theorem closed_inner (h : Inner s t) : Inner s t.closed := by
  unfold State.closed
  split
  · exact judgeGateReset_inner (rest_inner _ h)
  · exact h

theorem expireCredit_inner (k : SlotId) (h : Inner s t) : Inner s (t.expireCredit k) := by
  unfold State.expireCredit
  split
  · exact settleLeaves_inner (lapseCredit_inner _ (append_inner _ (removeCredit_inner _ h)))
  · exact h

/-! ## The reader lines (R7 to R16) -/

theorem poll_inner (side : Side) (h : Inner s t) : Inner s (t.poll side) := by
  unfold State.poll
  split
  · exact onPort_inner _ _ h
  · exact h

theorem takeSummon_inner (side : Side) (card : CardNo) (collided : Bool) (h : Inner s t) :
    Inner s (t.takeSummon side card collided) := by
  unfold State.takeSummon
  split
  · exact h
  · split
    · exact summoned_inner _ _ _ h
    · exact wrongAnswer_inner _ h
    · exact wrongAnswer_inner _ h

theorem takeFetch_inner (side : Side) (area : Area) (content : List Byte) (h : Inner s t) :
    Inner s (t.takeFetch side area content) := by
  unfold State.takeFetch
  split
  · exact h
  · split
    · split
      · exact fetched_inner _ _ _ h
      · exact wrongAnswer_inner _ h
    · exact wrongAnswer_inner _ h
    · exact wrongAnswer_inner _ h

theorem takeStore_inner (side : Side) (area : Area) (h : Inner s t) : Inner s (t.takeStore side area) := by
  unfold State.takeStore
  split
  · exact h
  · split
    · split
      · exact stored_inner _ _ h
      · exact wrongAnswer_inner _ h
    · exact wrongAnswer_inner _ h
    · exact wrongAnswer_inner _ h

end Sys2Proof.Machine
end

section
/-! Good states lead to good states, whatever the command (O59): time, schemes, resets and the end of a host frame by
what each sets, every other command by the operations it is made of. -/

namespace Sys2Proof.Machine

variable {s t : State}

/-! ## Time (R64, R65) -/

theorem readTime_nowOk {body : List Byte} {n : Nat} (h : readTime body = .value n) : n ≤ Config.maxTime := by
  unfold readTime at h
  split at h
  · rename_i length
    cases h
    exact Nat.le_of_lt_succ (fieldAt_lt (off := 0) (len := 4) length.ge)
  · cases h

theorem good_setTime (tag : Byte) {n : Nat} (hn : n ≤ Config.maxTime) (g : Good s) : Good (s.setTime tag n) :=
  ((examine_inner (Inner.refl _)).good (g.onTime (f := fun tb => { tb with now := n, set := true }) hn)).reply ..

theorem good_tick (g : Good s) : Good s.tick := by
  unfold State.tick
  split
  · rename_i below
    exact (examine_inner (Inner.refl _)).good (g.onTime (f := fun tb => { tb with now := tb.now + 1 }) below)
  · exact g

/-! ## Schemes and RESET (R175, R184) -/

/-- A change of the schemes alone, with its reply. -/
theorem good_schemes (f : Schemes → Schemes) (tag : Byte) (kind : ReqKind) (g : Good s) :
    Good ((s.onService fun v => { v with schemes := f v.schemes }).replySchemes tag kind) :=
  (g.onService rfl).reply ..

theorem good_selectScheme (tag : Byte) (n : Nat) (g : Good s) : Good (s.selectScheme tag n) := by
  unfold State.selectScheme
  split
  · exact good_schemes (fun slots => slots.deselect.put n .current) _ _ g
  all_goals exact g.reply ..

theorem good_retireScheme (tag : Byte) (n : Nat) (g : Good s) : Good (s.retireScheme tag n) := by
  unfold State.retireScheme
  split
  · exact good_schemes (fun slots => slots.put n .retired) _ _ g
  all_goals exact g.reply ..

theorem good_takeReset (tag : Byte) (g : Good s) : Good (s.takeReset tag) := by
  have replied : Good (s.reply tag .reset .ok) := g.reply ..
  exact replied.onHost replied.notices replied.window

/-! ## Resets (R116, R140, R148, R149, R189) -/

/-- Of blank rows none contributes. -/
theorem any_contributes_blank {rows : List MemberRow} (blank : ∀ r ∈ rows, r = .blank) :
    rows.any MemberRow.contributes = false :=
  List.any_eq_false.2 fun r hr => by rw [blank r hr]; exact Bool.false_ne_true

theorem occupantsAtReset_length (p : Pins) : (occupantsAtReset p).length ≤ 3 := by
  unfold occupantsAtReset
  split <;> split <;> decide

theorem warmReset_queueOk (clock : Nat) (l : Link) (o : l.queueOk) : (l.warmReset clock).queueOk := by
  have rest := (Link.atRest_keeps l l.addr).queue o
  refine Link.queueOk_of rest (by simp [Link.warmReset, Link.restartSilence]) ?_ rfl
  simp only [Link.warmReset, Link.restartSilence, List.countP_map, Function.comp_def]
  exact le_rfl

/-- Link and Emergency Unit at a warm reset: with every row blank, the own contribution is what is judged. -/
theorem good_linkReset (clock : Nat) (fire : Bool) (g : Good s) :
    Good ((s.onLink (Link.warmReset clock)).onEmergency (Emergency.warmReset fire)) :=
  { g with
    line := by
      have quiet : (s.link.warmReset clock).rows.any MemberRow.contributes = false :=
        any_contributes_blank (by simp [Link.warmReset, Link.restartSilence])
      simp [State.lineOk, State.lineJudged, quiet, Emergency.warmReset, Emergency.own]
    queue := warmReset_queueOk clock s.link g.queue
    rows := (warmReset_rows s.link clock).trans g.rows }

theorem recordResetChange_inner (before after : Bool) (h : Inner s t) : Inner s (t.recordResetChange before after) := by
  unfold State.recordResetChange
  split
  · exact append_inner _ h
  · exact append_inner _ h
  · exact h
  · exact h

theorem clearAisle_inner (h : Inner s t) : Inner s t.clearAisle := clearCredits_inner _ (onClaim_inner _ h)

theorem serviceReset_inner (h : Inner s t) : Inner s t.serviceReset := raise_inner _ (onService_inner _ ⟨rfl, rfl⟩ h)

theorem good_restartLine (g : Good s) : Good s.restartLine :=
  (recordResetChange_inner _ _ (Inner.refl _)).good (good_linkReset s.clock s.pins.fire g)

theorem good_restartAisle (g : Good s) : Good s.restartAisle :=
  (settleLeaves_inner (Inner.refl _)).good
    (g.onPassage (f := fun a => Passage.atReset s.pins s.clock a.claim.lastGranted) (occupantsAtReset_length s.pins))

theorem good_restartHost (g : Good s) : Good s.restartHost :=
  (serviceReset_inner (Inner.refl _)).good
    (g.onHost (f := HostLink.warmReset (lineSpeed s.pins)) ⟨List.nodup_nil, Nat.zero_le _⟩
      ⟨List.nodup_nil, List.not_mem_nil⟩)

theorem good_warmReset (g : Good s) : Good s.warmReset := by
  have stages : s.warmReset = s.clearPorts.settlePending.clearAisle.restartLine.restartAisle.restartHost := rfl
  have aisle : Inner s s.clearPorts.settlePending.clearAisle :=
    clearAisle_inner (settlePending_inner (onPort_inner _ _ (onPort_inner _ _ (Inner.refl s))))
  rw [stages]
  exact good_restartHost (good_restartAisle (good_restartLine (aisle.good g)))

/-- The levels at power-on are in their bounds (R174). -/
theorem Params.default_levelsOk : Params.default.levelsOk := by
  unfold Params.levelsOk
  decide

/-- Every block at its power-on value. -/
theorem good_poweredUp (pins : Pins) (s : State) : Good (s.poweredUp pins) where
  serials := ⟨rfl, Nat.zero_lt_one⟩
  halt := ⟨Params.default_levelsOk, fun _ => Nat.zero_lt_succ 1919⟩
  line := by
    have quiet : (s.poweredUp pins).link.rows.any MemberRow.contributes = false :=
      any_contributes_blank fun _ => List.eq_of_mem_replicate
    rw [State.lineOk, State.lineJudged, quiet, Bool.or_false]
    exact (Bool.or_false pins.fire).symm
  deny := ⟨List.Pairwise.nil, Nat.zero_le _, Nat.zero_le _⟩
  sight := List.nodup_nil
  queue := ⟨Nat.zero_le _, Nat.zero_le _⟩
  rows := rfl
  occupants := occupantsAtReset_length pins
  notices := ⟨List.nodup_nil, Nat.zero_le _⟩
  window := ⟨List.nodup_nil, List.not_mem_nil⟩
  now := Nat.zero_le _

theorem announceFire_inner (h : Inner s t) : Inner s t.announceFire := by
  unfold State.announceFire
  split
  · exact raise_inner _ (append_inner _ h)
  · exact h

/-! ## The end of a host frame (R180, R184, R185) -/

theorem good_leave (r : Reply) (g : Good s) : Good (s.onHost (HostLink.leave r)) := by
  refine g.onHost g.notices ?_
  obtain ⟨distinct, nonzero⟩ := g.window
  simp only [HostLink.windowOk, HostLink.leave]
  split
  · exact ⟨distinct, nonzero⟩
  · exact ⟨distinct.erase _, fun zero => nonzero (List.mem_of_mem_erase zero)⟩

theorem good_hostFrameSent (g : Good s) : Good s.hostFrameSent := by
  unfold State.hostFrameSent
  split
  · exact g
  · exact g.onHost g.notices g.window
  · split
    · exact good_warmReset (good_leave _ g)
    · exact good_leave _ g

/-! ## Every command -/

theorem exec_nextGood (g : Good s) : ∀ c : Instr, NextGood (exec c s)
  | .powerOn pins =>
    (settleLeaves_inner (announceFire_inner (Inner.refl _))).nextGood (good_poweredUp pins s)
  | .warmReset _ => nextGood_done (good_warmReset (g.onPins _))
  | .fireInputChange _ => (changeOwn_inner _ _ rfl (Inner.refl _)).nextGood (g.onPins _)
  | .mouthOccupied _ => by
    show NextGood (execMouthOccupied _ s)
    unfold execMouthOccupied
    split
    · exact nextGood_done g
    · exact (enterMouth_inner _ (Inner.refl _)).nextGood (g.onPins _)
  | .leafOccupied => by
    show NextGood (execLeafOccupied s)
    unfold execLeafOccupied
    split
    · exact nextGood_done g
    · exact (enterLeaf_inner (reopen_inner (Inner.refl _))).nextGood (g.onPins _)
  | .leafClear => by
    show NextGood (execLeafClear s)
    unfold execLeafClear
    split
    · exact (settleLeaves_inner (forEachOccupant_inner _ (fun _ => settleLeafOne_inner) (Inner.refl _))).nextGood
        (g.onPins _)
    · exact nextGood_done g
  | .mouthClear _ => by
    show NextGood (execMouthClear _ s)
    unfold execMouthClear
    split
    · exact (forEachOccupant_inner _ (fun _ => leaveMouthOne_inner _)
        (forEachOccupant_inner _ (fun _ => complete_inner _) (Inner.refl _))).nextGood (g.onPins _)
    · exact nextGood_done g
  | .openSwitchReached => (opened_inner (Inner.refl _)).nextGood (g.onPins _)
  | .closedSwitchReached => (closed_inner (Inner.refl _)).nextGood (g.onPins _)
  | .pollTimer _ => (poll_inner _ (Inner.refl s)).nextGood g
  | .summonAnswer .. => (takeSummon_inner _ _ _ (Inner.refl s)).nextGood g
  | .fetchAnswer .. => (takeFetch_inner _ _ _ (Inner.refl s)).nextGood g
  | .storeAnswer .. => (takeStore_inner _ _ (Inner.refl s)).nextGood g
  | .answerWindowClose .. => (windowClosed_inner _ _ (Inner.refl s)).nextGood g
  | .dialogueDeadlineExpiry _ => by
    show NextGood (execDialogueDeadlineExpiry _ s)
    unfold execDialogueDeadlineExpiry
    split
    · exact (deadlineExpired_inner _ (Inner.refl s)).nextGood g
    · exact nextGood_done g
  | .aisleWaitExpiry _ => by
    show NextGood (execAisleWaitExpiry _ s)
    unfold execAisleWaitExpiry
    split
    · exact (refuse_inner _ _ (Inner.refl s)).nextGood g
    · exact nextGood_done g
  | .slotGrant => (judgeWaiting_inner (Inner.refl s)).nextGood g
  | .stopHoldExpiry _ => (onPort_inner _ _ (Inner.refl s)).nextGood g
  | .creditExpiry _ => (expireCredit_inner _ (Inner.refl s)).nextGood g
  | .travelTimeout => by
    show NextGood (execTravelTimeout s)
    unfold execTravelTimeout
    split
    · exact (leafFault_inner _ (Inner.refl s)).nextGood g
    · exact (leafFault_inner _ (Inner.refl s)).nextGood g
    all_goals exact nextGood_done g
  | .sounderExpiry => (onPassage_inner _ id (Inner.refl s)).nextGood g
  | .secondTick => nextGood_done (good_tick g)
  | .lapseMarkExpiry _ => (examineLapse_inner _ (Inner.refl s)).nextGood g
  | .sightingLifetimeExpiry _ => (examineLifetime_inner _ (Inner.refl s)).nextGood g
  | .inDoubtLifetimeExpiry _ => (examineInDoubt_inner _ (Inner.refl s)).nextGood g
  | .lineTransmissionStart _ => (lineStarts_inner _ (Inner.refl s)).nextGood g
  | .linkRxIdleTimeout => (idleFrame_inner (Inner.refl s)).nextGood g
  | .linkToken _ => (takeOther_inner _ _ (fun _ _ => takeToken_inner) (Inner.refl s)).nextGood g
  | .linkJoinInvite _ => (takeOther_inner _ _ (fun _ _ => answerInvite_inner _) (Inner.refl s)).nextGood g
  | .linkJoinReply _ => (takeFrame_inner _ _ (fun _ _ => joinReply_inner _) (Inner.refl s)).nextGood g
  | .linkSighting .. => (takeOther_inner _ _ (fun _ _ => inboundSighting_inner _ _ _ _) (Inner.refl s)).nextGood g
  | .linkLapse _ _ _ _ side => by
    show NextGood (execLinkLapse _ _ _ _ side s)
    unfold execLinkLapse
    split
    · exact (takeOther_inner _ _ (fun _ _ => inboundLapse_inner _ _ _) (Inner.refl s)).nextGood g
    · exact (discardFrame_inner (Inner.refl s)).nextGood g
  | .linkRegrant .. => (takeOther_inner _ _ (fun _ _ => inboundRegrant_inner _ _ _) (Inner.refl s)).nextGood g
  | .linkDenyAdd .. => (takeOther_inner _ _ (fun _ _ => inboundDeny_inner _ _) (Inner.refl s)).nextGood g
  | .linkEmergency _ code => by
    show NextGood (execLinkEmergency _ code s)
    unfold execLinkEmergency
    split
    · exact (takeOther_inner _ _ (fun _ _ => emergencyFrame_inner _ _) (Inner.refl s)).nextGood g
    · exact (discardFrame_inner (Inner.refl s)).nextGood g
  | .linkFrameDiscarded => (discardFrame_inner (Inner.refl s)).nextGood g
  | .linkFrameSent => (frameSent_inner (Inner.refl s)).nextGood g
  | .silenceTimeout => (silenceEnds_inner (Inner.refl s)).nextGood g
  | .passWindowExpiry => (passUnanswered_inner (Inner.refl s)).nextGood g
  | .inviteWindowExpiry => (inviteUnanswered_inner (Inner.refl s)).nextGood g
  | .loneHolderWaitEnd => (loneWaitEnds_inner (Inner.refl s)).nextGood g
  | .refreshDeadline _ => (refreshReached_inner _ (Inner.refl s)).nextGood g
  | .holdDeadline _ => (holdReached_inner _ (Inner.refl s)).nextGood g
  | .hostRxIdleTimeout => nextGood_done (good_endHostFrame g)
  | .hostFrameBadCrc => nextGood_done (good_endHostFrame g)
  | .unknownKind _ _ => by
    show NextGood (execUnknownKind _ _ s)
    unfold execUnknownKind
    split
    · exact nextGood_done (good_take _ _ (fun _ gu => gu.reply ..) g)
    · exact nextGood_done g
  | .hostFrameSent => nextGood_done (good_hostFrameSent g)
  | .drainComplete => (judgeDrain_inner (Inner.refl s)).nextGood g
  | .syncLineComplete => (judgeSyncs_inner (Inner.refl s)).nextGood g
  | .gateResetComplete => (judgeGateReset_inner (Inner.refl s)).nextGood g
  | .identify .. => nextGood_innerRequest (fun _ u => reply_inner _ _ _ (Inner.refl u)) g
  | .status .. => nextGood_innerRequest (fun _ u => reply_inner _ _ _ (Inner.refl u)) g
  | .setTime .. => nextGood_request (fun _ _ read => good_setTime _ (readTime_nowOk read)) g
  | .getTime .. => nextGood_innerRequest (fun _ u => reply_inner _ _ _ (Inner.refl u)) g
  | .suspend .. => nextGood_innerRequest (fun _ u => suspend_inner _ (Inner.refl u)) g
  | .resume .. => nextGood_innerRequest (fun _ u => resume_inner _ (Inner.refl u)) g
  | .reset .. => nextGood_request (fun _ _ _ => good_takeReset _) g
  | .setStation .. => nextGood_load (fun a _ _ => good_applyStation a) g
  | .setZoneCount .. => nextGood_load (fun _ _ _ u => u.onService rfl) g
  | .loadZoneRow .. => nextGood_load (fun _ _ _ u => u.onService rfl) g
  | .loadBandSet .. => nextGood_load (fun b _ _ u => u.onService (by cases b.1 <;> rfl)) g
  | .setClass .. => nextGood_load (fun _ _ _ u => u.onService rfl) g
  | .setParameters .. => nextGood_load (fun _ _ read => good_applyParams (readParams_levelsOk read)) g
  | .selectScheme .. => nextGood_request (fun n _ _ => good_selectScheme _ n) g
  | .retireScheme .. => nextGood_request (fun n _ _ => good_retireScheme _ n) g
  | .denyAdd .. => nextGood_innerRequest (fun _ u => hostDeny_inner _ _ (Inner.refl u)) g
  | .denyRemove .. => nextGood_innerRequest (fun _ u => denyRemove_inner _ _ (Inner.refl u)) g
  | .denyClear .. => nextGood_innerRequest (fun _ u => denyClear_inner _ (Inner.refl u)) g
  | .denyQuery .. => nextGood_innerRequest (fun _ u => denyQuery_inner _ _ (Inner.refl u)) g
  | .sightingQuery .. => nextGood_innerRequest (fun _ u => sightingQuery_inner _ _ (Inner.refl u)) g
  | .syncLine .. => nextGood_innerRequest (fun _ u => syncLine_inner _ (Inner.refl u)) g
  | .journalPeek .. => nextGood_innerRequest (fun _ u => reply_inner _ _ _ (Inner.refl u)) g
  | .journalDrop .. => nextGood_request (fun a _ _ => good_journalDrop _ a) g
  | .staffPass .. => nextGood_innerRequest (fun _ u => staffPass_inner _ _ (Inner.refl u)) g
  | .holdOpen .. => nextGood_innerRequest (fun _ u => holdOpen_inner _ (Inner.refl u)) g
  | .holdRelease .. => nextGood_innerRequest (fun _ u => holdRelease_inner _ (Inner.refl u)) g
  | .gateReset .. => nextGood_innerRequest (fun _ u => gateReset_inner _ (Inner.refl u)) g
  | .alarmClear .. => nextGood_innerRequest (fun _ u => alarmClear_inner _ _ (Inner.refl u)) g
  | .setEmergency .. => nextGood_innerRequest (fun _ u => setHostFlag_inner _ _ _ (Inner.refl u)) g
  | .clearEmergency .. => nextGood_innerRequest (fun _ u => setHostFlag_inner _ _ _ (Inner.refl u)) g
  | .hostFramingError => nextGood_done (good_endHostFrame g)
  | .linkFramingError => by
    refine nextGood_done ?_
    split
    · exact (discardFrame_inner (Inner.refl s)).good g
    · exact g
  | .switchLost _ => nextGood_done (g.onPins _)
  | .speedStrapChange _ _ => nextGood_done (g.onPins _)

/-- Settles O59: a step without a command chooses at most a frame, and every command keeps a good state good. -/
theorem stepKeepsGood : Obligations.StepKeepsGood := by
  intro s t g next
  unfold step at next
  split at next
  · cases next
    exact g.idle
  · exact exec_nextGood (g.withQueue _) _ t next

end Sys2Proof.Machine
end

section
/-! The examination of the sighting table (R77, R78): what it makes of one entry, and of the whole table entry by
entry. -/

namespace Sys2Proof.Machine

variable {s t u : State} {e : Sighting} {before after es : List Sighting} {xs ys : List RecBody}

/-! ## One entry -/

@[simp] theorem Sighting.unlapse_card (now : Nat) (e : Sighting) : (e.unlapse now).card = e.card := by
  unfold Sighting.unlapse
  split <;> rfl

/-- A lapse mark has no part in whether an entry is IN_DOUBT too long. -/
@[simp] theorem overdue_unlapse (now : Nat) (e : Sighting) : s.overdue (e.unlapse now) = s.overdue e := by
  unfold Sighting.unlapse
  split
  · rename_i committed
    simp [State.overdue, Sighting.isInDoubt, committed]
  · rename_i pending
    simp [State.overdue, Sighting.isInDoubt, pending]
  · rfl

/-- An entry IN_DOUBT has no lapse mark to lose. -/
theorem unlapse_of_overdue (now : Nat) (due : s.overdue e = true) : e.unlapse now = e := by
  unfold Sighting.unlapse
  split
  · rename_i committed
    simp [State.overdue, Sighting.isInDoubt, committed] at due
  · rename_i pending
    simp [State.overdue, Sighting.isInDoubt, pending] at due
  · rfl

/-- An entry goes as COMMITTED or as IN_DOUBT, not as both. -/
theorem not_overdue_of_outlived (old : s.outlived e = true) : s.overdue e = false := by
  unfold State.outlived at old
  split at old
  · rename_i committed
    simp [State.overdue, Sighting.isInDoubt, committed]
  · cases old
  · cases old

/-- What an examination leaves of one entry (R78). -/
def State.agedEntry (s : State) (e : Sighting) : List Sighting :=
  if s.outlived (e.unlapse s.time.now) || s.overdue e then [] else [e.unlapse s.time.now]

/-- The record that an examination makes of one entry (R77). -/
def State.agedRecord (s : State) (e : Sighting) : List RecBody := if s.overdue e then e.abandonRecord else []

theorem agedRecord_unlapse (now : Nat) (e : Sighting) : s.agedRecord (e.unlapse now) = s.agedRecord e := by
  unfold State.agedRecord
  rw [overdue_unlapse]
  split
  · rename_i due
    rw [unlapse_of_overdue now due]
  · rfl

theorem agedSightings_eq (s : State) : s.agedSightings = s.screening.sightings.flatMap s.agedEntry := by
  unfold State.agedSightings
  generalize s.screening.sightings = es
  induction es with
  | nil => rfl
  | cons e es ih =>
    rw [List.map_cons, List.flatMap_cons, List.filter_cons, ih]
    cases old : s.outlived (e.unlapse s.time.now) <;> cases due : s.overdue e <;>
      simp [State.agedEntry, old, due]

theorem agedRecords_eq (s : State) : s.agedRecords = s.screening.sightings.flatMap s.agedRecord := by
  unfold State.agedRecords
  generalize s.screening.sightings = es
  induction es with
  | nil => rfl
  | cons e es ih =>
    rw [List.flatMap_cons, List.filter_cons, ← ih]
    cases due : s.overdue e <;> simp [State.agedRecord, due]

/-! ## The table around an entry -/

/-- In a table that lists no card twice the entries around one have other cards (R75). -/
theorem card_ne_of_listed (ok : ((before ++ e :: after).map Sighting.card).Nodup) :
    ∀ y ∈ before ++ after, y.card ≠ e.card := by
  rw [List.map_append, List.map_cons, List.nodup_middle, ← List.map_append] at ok
  exact fun y hy same => (List.nodup_cons.1 ok).1 (same ▸ List.mem_map_of_mem hy)

theorem replaceSighting_listed {x : Sighting} (ok : ((before ++ e :: after).map Sighting.card).Nodup)
    (same : x.card = e.card) : replaceSighting x (before ++ e :: after) = before ++ x :: after := by
  have keep : ∀ ys : List Sighting, (∀ y ∈ ys, y ∈ before ++ after) → replaceSighting x ys = ys := fun ys within =>
    (List.map_congr_left fun y hy => if_neg (same ▸ card_ne_of_listed ok y (within y hy))).trans (List.map_id ys)
  have parts : replaceSighting x (before ++ e :: after) =
      replaceSighting x before ++ (if e.card = x.card then x else e) :: replaceSighting x after := by
    simp [replaceSighting]
  rw [parts, if_pos same.symm, keep before fun _ => List.mem_append_left _, keep after fun _ => List.mem_append_right _]

theorem removeSighting_listed (ok : ((before ++ e :: after).map Sighting.card).Nodup) :
    removeSighting e.card (before ++ e :: after) = before ++ after := by
  have parts : removeSighting e.card (before ++ e :: after) = removeSighting e.card (before ++ after) := by
    simp [removeSighting]
  rw [parts]
  exact List.filter_eq_self.2 fun y hy => by simpa using card_ne_of_listed ok y hy

/-! ## What an examination changes -/

/-- Nothing has changed but the sighting table, to this one, the journal, by these records, and the notices raised. -/
structure Examined (s t : State) (table : List Sighting) (records : List RecBody) : Prop where
  rest : t =
    { s with screening := { s.screening with sightings := table }, journal := t.journal, host := t.host }
  grown : s.journal.grownBy t.journal s.time.now records
  host : t.host = { s.host with notices := t.host.notices }

theorem Examined.refl (s : State) : Examined s s s.screening.sightings [] :=
  ⟨rfl, ⟨by simp [numbered], rfl⟩, rfl⟩

theorem Examined.trans {table table' : List Sighting} (h : Examined s t table xs) (k : Examined t u table' ys) :
    Examined s u table' (xs ++ ys) where
  rest := by rw [k.rest, h.rest]
  grown := by
    have now : t.time.now = s.time.now := by rw [h.rest]
    obtain ⟨records, next⟩ := h.grown
    obtain ⟨records', next'⟩ := k.grown
    refine ⟨?_, by rw [next', next, List.length_append, Nat.add_assoc]⟩
    rw [records', records, next, now, numbered_append, List.append_assoc]
  host := by rw [k.host, h.host]

theorem Examined.of_table (s : State) (f : List Sighting → List Sighting) :
    Examined s (s.onScreening fun c => { c with sightings := f c.sightings }) (f s.screening.sightings) [] :=
  ⟨rfl, ⟨by simp [numbered], rfl⟩, rfl⟩

/-- A record of class REVENUE is taken whether or not the journal is halted (R152, R156). -/
theorem Examined.of_append {b : RecBody} (revenue : b.kind.cls = .revenue) (s : State) :
    Examined s (s.append b) s.screening.sightings [b] where
  rest := by
    conv_lhs => rw [(Queued.of_append s b).rest]
    simp
  grown := State.append_records s b (by simp [revenue])
  host := (Queued.of_append s b).host.trans (by rw [State.append_host_replies])

variable {table : List Sighting}

theorem Examined.sightings (h : Examined s t table xs) : t.screening.sightings = table := by rw [h.rest]

theorem Examined.time (h : Examined s t table xs) : t.time = s.time := by rw [h.rest]

/-- Ages are judged by time and parameters, which an examination leaves. -/
theorem Examined.outlived (h : Examined s t table xs) : t.outlived = s.outlived := by
  rw [h.rest]
  rfl

theorem Examined.overdue (h : Examined s t table xs) : t.overdue = s.overdue := by
  rw [h.rest]
  rfl

theorem Examined.agedEntry (h : Examined s t table xs) : t.agedEntry = s.agedEntry := by
  funext e
  simp only [State.agedEntry, h.outlived, h.overdue, h.time]

theorem Examined.agedRecord (h : Examined s t table xs) : t.agedRecord = s.agedRecord := by
  funext e
  simp only [State.agedRecord, h.overdue]

/-! ## The three parts of an examination, for a listed card -/

theorem dropSighting_listed (listed : s.screening.sightings = before ++ e :: after) (ok : s.screening.sightOk) :
    Examined s (s.dropSighting e.card) (before ++ after) [] := by
  have changed := Examined.of_table s (removeSighting e.card)
  rwa [listed, removeSighting_listed (listed ▸ ok)] at changed

theorem sighted_listed (listed : s.screening.sightings = before ++ e :: after) (ok : s.screening.sightOk) :
    s.screening.sighted e.card = some e := sighted_of_mem ok (by simp [listed])

theorem examineLapse_listed (listed : s.screening.sightings = before ++ e :: after) (ok : s.screening.sightOk) :
    Examined s (s.examineLapse e.card) (before ++ e.unlapse s.time.now :: after) [] := by
  have changed := Examined.of_table s (replaceSighting (e.unlapse s.time.now))
  rw [listed, replaceSighting_listed (listed ▸ ok) (e.unlapse_card _)] at changed
  rw [State.examineLapse, sighted_listed listed ok]
  exact changed

theorem examineLifetime_stays (listed : s.screening.sightings = before ++ e :: after) (ok : s.screening.sightOk)
    (young : s.outlived e = false) : s.examineLifetime e.card = s := by
  simp [State.examineLifetime, sighted_listed listed ok, young]

theorem examineLifetime_drops (listed : s.screening.sightings = before ++ e :: after) (ok : s.screening.sightOk)
    (old : s.outlived e = true) : s.examineLifetime e.card = s.dropSighting e.card := by
  simp [State.examineLifetime, sighted_listed listed ok, old]

theorem examineInDoubt_listed (listed : s.screening.sightings = before ++ e :: after) (ok : s.screening.sightOk) :
    Examined s (s.examineInDoubt e.card) (before ++ (if s.overdue e then [] else [e]) ++ after) (s.agedRecord e) := by
  have known := sighted_listed listed ok
  cases due : s.overdue e with
  | false =>
    have stays : s.examineInDoubt e.card = s := by simp [State.examineInDoubt, known, due]
    have same := Examined.refl s
    rw [listed] at same
    simpa [stays, State.agedRecord, due] using same
  | true =>
    have abandons : s.examineInDoubt e.card = s.abandon e := by simp [State.examineInDoubt, known, due]
    obtain ⟨stored, serial, state⟩ : ∃ stored serial, e.state = .inDoubt stored serial := by
      unfold State.overdue Sighting.isInDoubt at due
      cases state : e.state <;> simp_all
    have recorded := Examined.of_append (b := resolvedRecord e.card serial stored .abandoned none none) rfl s
    have dropped := dropSighting_listed (recorded.sightings.trans listed) (by rwa [State.append_screening])
    simpa [abandons, State.abandon, State.agedRecord, Sighting.abandonRecord, state, due] using recorded.trans dropped

/-! ## One card, and the whole table -/

/-- An examination of one listed card acts on its entry alone. -/
theorem examineOne_listed (listed : s.screening.sightings = before ++ e :: after) (ok : s.screening.sightOk) :
    Examined s (s.examineOne e.card) (before ++ s.agedEntry e ++ after) (s.agedRecord e) := by
  have unlapsed := examineLapse_listed listed ok
  have ok' := (examineLapse_inner e.card (Inner.refl s)).sight ok
  have young := unlapsed.outlived
  have doubt := unlapsed.overdue
  have record := unlapsed.agedRecord
  unfold State.examineOne
  generalize s.examineLapse e.card = u at *
  rw [← e.unlapse_card s.time.now]
  cases old : s.outlived (e.unlapse s.time.now) with
  | true =>
    have fresh := not_overdue_of_outlived old
    have gone := dropSighting_listed unlapsed.sightings ok'
    have none_left : (u.dropSighting (e.unlapse s.time.now).card).examineInDoubt (e.unlapse s.time.now).card =
        u.dropSighting (e.unlapse s.time.now).card := by
      rw [State.examineInDoubt, dropSighting_sighted]
    rw [examineLifetime_drops unlapsed.sightings ok' (young ▸ old), none_left]
    rw [overdue_unlapse] at fresh
    simpa [State.agedEntry, State.agedRecord, old, fresh] using unlapsed.trans gone
  | false =>
    have judged := examineInDoubt_listed unlapsed.sightings ok'
    rw [examineLifetime_stays unlapsed.sightings ok' (young ▸ old)]
    rw [doubt, record, overdue_unlapse, agedRecord_unlapse] at judged
    simpa [State.agedEntry, old] using unlapsed.trans judged

theorem examineAll_listed (ok : s.screening.sightOk) (listed : s.screening.sightings = before ++ es) :
    Examined s ((es.map Sighting.card).foldl State.examineOne s) (before ++ es.flatMap s.agedEntry)
      (es.flatMap s.agedRecord) := by
  induction es generalizing s before with
  | nil =>
    have same := Examined.refl s
    rw [listed] at same
    simpa using same
  | cons e es ih =>
    have one := examineOne_listed listed ok
    have ok' := (examineOne_inner e.card (Inner.refl s)).sight ok
    have rest := ih ok' one.sightings
    rw [one.agedEntry, one.agedRecord] at rest
    simpa using one.trans rest

/-- The examination of a table that lists no card twice (R75, R77, R78). -/
theorem examine_examined (ok : s.screening.sightOk) : Examined s s.examine s.agedSightings s.agedRecords := by
  rw [agedSightings_eq, agedRecords_eq]
  exact examineAll_listed (before := []) ok rfl

/-! ## Beside the examination -/

/-- An examination leaves what the host link has answered, and what it is sending. -/
theorem Examined.formed {records : List RecBody} (h : Examined s t table records) : t.formed = s.formed := by
  rw [State.formed, h.host, State.formed]

/-- What a request or a tick leaves beside time, table, journal and host link, when its examination is followed by
changes of the host link alone. -/
theorem Examined.rest_of_time {now : TimeBase} {records : List RecBody} {host : HostLink}
    (h : Examined ({ s with time := now, host := host }) t table records) (hu : u = { t with host := u.host }) :
    u.time = now ∧ u = { s with time := u.time, screening := u.screening, journal := u.journal, host := u.host } ∧
      u.screening = { s.screening with sightings := table } ∧ s.journal.grownBy u.journal now.now records := by
  obtain ⟨rest, grown, -⟩ := h
  have journal : u.journal = t.journal := by rw [hu]
  refine ⟨by rw [hu, rest], by rw [hu, rest], by rw [hu, rest], ?_⟩
  rw [journal]
  exact grown

end Sys2Proof.Machine
end

section
/-! The Time Base by its requests and its second (R64 to R66, R78), and local time from the counter (R68, R69). -/

namespace Sys2Proof.Machine

variable {s : State} {tag : Byte} {n : Nat}

/-! ## SET_TIME (R65, R78) -/

/-- The part with its counter loaded and its time SET (R65). -/
def State.withCounter (n : Nat) (s : State) : State := s.onTime fun tb => { tb with now := n, set := true }

theorem readTime_be (fits : n < 4294967296) : readTime (be 4 n) = .value n := by
  rw [readTime, if_pos (be_length 4 n), fieldAt_whole fits]

theorem exec_setTime (fits : n < 4294967296) (admitted : s.admits tag .setTime) :
    exec (.setTime tag (be 4 n)) s =
      .next (((s.endHostFrame.enter tag).withCounter n).examine.reply tag .setTime (.setTime s.time.now n)).pump := by
  show request tag .setTime (readTime (be 4 n)) (State.setTime tag) s = _
  rw [readTime_be fits, request_value n _ admitted]
  rfl

/-- Settles O10: the counter is loaded, the table examined against it, and the reply formed last. -/
theorem setTimeLoadsTheCounterAndAges : Obligations.SetTimeLoadsTheCounterAndAges := by
  intro s tag n fits ok admitted
  obtain ⟨running, -⟩ := (State.admits_iff s tag .setTime).1 admitted
  have aged := examine_examined (s := (s.endHostFrame.enter tag).withCounter n) ok
  obtain ⟨time, rest, screening, grown⟩ := aged.rest_of_time (s := s) (reply_pump_rest _ tag .setTime
    (.setTime s.time.now n))
  refine ⟨_, exec_setTime fits admitted, time, ?_, rest, ?_, ?_⟩
  · have host := aged.host
    refine Answered.of_reply _ running ?_ aged.formed ?_ ?_ ?_ ?_ ⟨?_, ?_⟩ ?_ ?_ <;> rw [host] <;> rfl
  · rw [screening, time]
    rfl
  · rw [time]
    exact grown

/-! ## The second (R64, R78) -/

/-- The part with its counter advanced by one (R64). -/
def State.secondLater (s : State) : State := s.onTime fun tb => { tb with now := tb.now + 1 }

theorem tick_of_lt (below : s.time.now < 4294967295) : s.tick = s.secondLater.examine := if_pos below

theorem tick_of_le (held : 4294967295 ≤ s.time.now) : s.tick = s := if_neg (Nat.not_lt.2 held)

/-- Settles O11: below the maximum the counter advances and the table is examined; at it the tick does nothing. -/
theorem secondTickAdvancesAndAges : Obligations.SecondTickAdvancesAndAges := by
  intro s
  refine ⟨fun ok below => ?_, fun held => ⟨s.pump, congrArg done (tick_of_le held), Told.of_host rfl, s.pump_rest⟩⟩
  have aged := examine_examined (s := s.secondLater) ok
  obtain ⟨time, rest, screening, grown⟩ := aged.rest_of_time (s := s) (State.pump_rest _)
  refine ⟨_, congrArg done (tick_of_lt below), time, ?_, rest, ?_, ?_⟩
  · have host := aged.host
    refine Silent.of_pump ?_ aged.formed ?_ ?_ ?_ ?_ ⟨?_, ?_⟩ ?_ ?_ <;> rw [host] <;> rfl
  · rw [screening, time]
    rfl
  · rw [time]
    exact grown

/-! ## GET_TIME (R66) -/

/-- Settles O9: the reply is made of the Time Base as it stands. -/
theorem getTimeRepliesOneSnapshot : Obligations.GetTimeRepliesOneSnapshot := by
  intro s tag admitted
  exact ⟨_, request_value () (fun _ => State.getTime tag) admitted, OnlyAnswered.of_reply _ admitted⟩

/-! ## Local time (R68, R69) -/

theorem minuteOfDay_lt (tb : TimeBase) (t : Nat) : tb.minuteOfDay t < 1440 := by
  unfold TimeBase.minuteOfDay
  omega

/-- The local seconds of a time lie within the minute of its day (R68). -/
theorem minuteOfDay_spec (tb : TimeBase) (t : Nat) :
    86400 * (tb.localSeconds t / 86400) + 60 * (tb.minuteOfDay t : Int) ≤ tb.localSeconds t ∧
      tb.localSeconds t < 86400 * (tb.localSeconds t / 86400) + 60 * (tb.minuteOfDay t : Int) + 60 := by
  unfold TimeBase.minuteOfDay
  omega

theorem serviceDay_eq_zero {tb : TimeBase} {t : Nat} (early : tb.localSeconds t - 60 * (tb.boundary : Int) < 0) :
    tb.serviceDay t = 0 := by
  unfold TimeBase.serviceDay
  omega

/-- From the first boundary on, a service day lasts from one boundary to the next (R69). -/
theorem serviceDay_spec {tb : TimeBase} {t : Nat} (late : 0 ≤ tb.localSeconds t - 60 * (tb.boundary : Int)) :
    86400 * (tb.serviceDay t : Int) ≤ tb.localSeconds t - 60 * (tb.boundary : Int) ∧
      tb.localSeconds t - 60 * (tb.boundary : Int) < 86400 * ((tb.serviceDay t : Int) + 1) := by
  unfold TimeBase.serviceDay
  omega

theorem dayOfWeek_succ (n : Nat) : dayOfWeek (n + 1) = (dayOfWeek n + 1) % 7 := by
  unfold dayOfWeek
  omega

/-- Settles O51: minute of day and service day by division with floor, days of the week one after another. -/
theorem localTimeAndServiceDay : Obligations.LocalTimeAndServiceDay := by
  intro tb t n
  refine ⟨⟨_, minuteOfDay_spec tb t⟩, Nat.le_of_lt_succ (minuteOfDay_lt tb t), fun _ _ => by omega, serviceDay_eq_zero,
    serviceDay_spec, Nat.mod_lt _ (by decide), dayOfWeek_succ n, rfl⟩

end Sys2Proof.Machine
end

section
/-! Requests that only read (R95, R160, R183), and the host's edits of the deny list as the next lookup finds them
(R72, R73). -/

namespace Sys2Proof.Machine

variable {s : State} {tag : Byte} {kind : ReqKind} {card o : CardNo} {e : DenyEntry} {xs : List DenyEntry}

/-! ## Bodies that carry a card or a count (R190) -/

theorem card_fits (card : CardNo) : card.toNat < 256 ^ 4 := card.isLt

theorem readCard_be (card : CardNo) : readCard (be 4 card.toNat) = .value card := by
  rw [readCard, if_pos (be_length 4 card.toNat), fieldAt_whole (card_fits card), BitVec.ofNat_toNat, BitVec.setWidth_eq]

theorem readPeek_be {k : Nat} (fits : k < 65536) :
    readPeek (be 2 k) = if 1 ≤ k ∧ k ≤ 8 then .value k else .range 1 := by
  rw [readPeek, if_pos (be_length 2 k), fieldAt_whole fits]
  by_cases within : 1 ≤ k ∧ k ≤ 8
  · rw [if_pos within, decide_eq_true within]
    rfl
  · rw [if_neg within, decide_eq_false within]
    rfl

/-- A DENY_ADD body gives its card, which is to be an issued one, and its action (R73). -/
theorem readDenyAdd_be (card : CardNo) (action : DenyAction) :
    readDenyAdd (be 4 card.toNat ++ be 1 action.code) =
      if issued card = true then .value (card, action) else .range 1 := by
  have length : (be 4 card.toNat ++ be 1 action.code).length = 5 := by simp
  have code : action.code < 256 ^ 1 := by cases action <;> decide
  have second : fieldAt (be 4 card.toNat ++ be 1 action.code) 4 1 = action.code :=
    (fieldAt_past 4 card.toNat (be 1 action.code) 0 1).trans (fieldAt_whole code)
  have known : DenyAction.ofCode action.code = some action := by cases action <;> rfl
  simp only [readDenyAdd, if_pos length, fieldAt_zero _ (card_fits card), second, known, BitVec.ofNat_toNat,
    BitVec.setWidth_eq]
  cases issued card <;> rfl

theorem issued_eq_false (h : card = 0 ∨ card = BitVec.allOnes 32) : issued card = false := by
  obtain rfl | rfl := h <;> decide

theorem issued_eq_true (zero : card ≠ 0) (ones : card ≠ BitVec.allOnes 32) : issued card = true := by
  rw [issued, bne_iff_ne.2 zero, bne_iff_ne.2 ones]
  rfl

theorem isLocal_eq (e : DenyEntry) : e.isLocal = (e.origin != .central) := by
  unfold DenyEntry.isLocal
  cases e.origin <;> rfl

theorem localCount_eq (c : Screening) : c.localCount = c.deny.countP fun x => x.origin != .central :=
  congrArg (c.deny.countP ·) (funext isLocal_eq)

/-! ## Requests that only read -/

/-- A request whose owner does nothing but reply. -/
theorem request_replies {α : Type} {p : Parsed α} {a : α} {act : α → State → State} {body : ReplyBody}
    (admitted : s.admits tag kind) (read : p = .value a)
    (replies : act a (s.endHostFrame.enter tag) = (s.endHostFrame.enter tag).reply tag kind body) :
    ∃ t, request tag kind p act s = .next t ∧ OnlyAnswered s t tag kind body :=
  ⟨_, by rw [read, request_value a act admitted, replies], .of_reply body admitted⟩

/-- A request whose body is out of range. -/
theorem request_ranges {α : Type} {p : Parsed α} {n : Nat} (act : α → State → State) (admitted : s.admits tag kind)
    (read : p = .range n) : ∃ t, request tag kind p act s = .next t ∧ OnlyAnswered s t tag kind (.range n) :=
  ⟨_, by rw [read, request_range n act admitted], .of_reply _ admitted⟩

/-- A STATUS counts itself among the outstanding requests (R183). -/
theorem statusBody_entered (s : State) (tag : Byte) :
    (s.endHostFrame.enter tag).statusBody = { s.statusBody with outstanding := s.host.window.length + 1 } := by
  have window : (s.endHostFrame.enter tag).host.window.length = s.host.window.length + 1 := List.length_append
  rw [← window]
  rfl

/-- Settles O5: each of the five is its owner's reply, made of the blocks that no entry into the window touches. -/
theorem requestsThatOnlyReadChangeNothing : Obligations.RequestsThatOnlyReadChangeNothing := by
  intro s tag card
  refine ⟨fun admitted => request_replies admitted rfl rfl, fun admitted => ?_, fun admitted => ?_, fun admitted => ?_,
    fun k fits admitted => ?_⟩
  · rw [← statusBody_entered s tag]
    exact request_replies admitted rfl rfl
  · refine request_replies admitted (readCard_be card) ?_
    show State.denyQuery tag card _ = _
    unfold State.denyQuery
    cases found : s.screening.denied card <;>
      simp only [State.enter_screening, State.endHostFrame_screening, found, localCount_eq]
  · refine request_replies admitted (readCard_be card) ?_
    show State.sightingQuery tag card _ = _
    unfold State.sightingQuery
    cases found : s.screening.sighted card <;>
      simp only [State.enter_screening, State.endHostFrame_screening, found]
  · have read := readPeek_be fits
    by_cases within : 1 ≤ k ∧ k ≤ 8
    · rw [if_pos within] at read ⊢
      exact request_replies admitted read rfl
    · rw [if_neg within] at read ⊢
      exact request_ranges _ admitted read

/-! ## Lookups in an edited deny list (R72) -/

/-- The lookup of a card in a deny list. -/
def findDeny (card : CardNo) (xs : List DenyEntry) : Option DenyEntry := xs.find? fun x => x.card == card

theorem denied_eq (c : Screening) (card : CardNo) : c.denied card = findDeny card c.deny := rfl

theorem findDeny_cons (o : CardNo) (x : DenyEntry) (xs : List DenyEntry) :
    findDeny o (x :: xs) = if x.card = o then some x else findDeny o xs := by
  rw [findDeny, List.find?_cons]
  by_cases mine : x.card = o
  · rw [if_pos mine, beq_iff_eq.2 mine]
  · rw [if_neg mine, beq_eq_false_iff_ne.2 mine]
    rfl

/-- An entry inserted for a card that is not listed is found, and no other lookup changes. -/
theorem findDeny_insert (absent : ∀ x ∈ xs, x.card ≠ e.card) (o : CardNo) :
    findDeny o (insertDeny e xs) = if e.card = o then some e else findDeny o xs := by
  induction xs with
  | nil => exact findDeny_cons o e []
  | cons x xs ih =>
    have other : x.card ≠ e.card := absent x List.mem_cons_self
    rw [insertDeny]
    split
    · exact findDeny_cons o e (x :: xs)
    · rw [findDeny_cons, findDeny_cons, ih fun y hy => absent y (List.mem_cons_of_mem x hy)]
      by_cases mine : x.card = o
      · rw [if_pos mine, if_pos mine, if_neg fun same : e.card = o => other (mine.trans same.symm)]
      · rw [if_neg mine, if_neg mine]

/-- An entry replaced in its place is found. -/
theorem findDeny_replace (e : DenyEntry) (xs : List DenyEntry) (o : CardNo) :
    findDeny o (replaceDeny e xs) = if e.card = o then (findDeny o xs).map fun _ => e else findDeny o xs := by
  induction xs with
  | nil => exact (ite_self _).symm
  | cons x xs ih =>
    rw [replaceDeny, List.map_cons, findDeny_cons, findDeny_cons, ← replaceDeny, ih]
    by_cases same : x.card = e.card
    · rw [if_pos same, same]
      split <;> rfl
    · rw [if_neg same]
      by_cases mine : x.card = o
      · rw [if_pos mine, if_pos mine, if_neg fun also : e.card = o => same (mine.trans also.symm)]
      · rw [if_neg mine, if_neg mine]

/-- A card removed is not found, and no other lookup changes. -/
theorem findDeny_remove (card : CardNo) (xs : List DenyEntry) (o : CardNo) :
    findDeny o (removeDeny card xs) = if o = card then none else findDeny o xs := by
  rw [findDeny, removeDeny, List.find?_filter]
  split
  · rename_i same
    rw [List.find?_eq_none]
    simp [same]
  · rename_i other
    refine congrArg (List.find? · xs) (funext fun x => ?_)
    by_cases mine : x.card = o <;> simp [mine, other]

theorem findDeny_some (found : findDeny card xs = some e) : e ∈ xs ∧ e.card = card :=
  ⟨List.mem_of_find?_eq_some found, by simpa using List.find?_some found⟩

theorem insertDeny_length (e : DenyEntry) (xs : List DenyEntry) : (insertDeny e xs).length = xs.length + 1 :=
  (insertDeny_perm e xs).length_eq

/-- In an ordered list a card stands once: its removal takes one entry away (R72). -/
theorem removeDeny_perm (sorted : xs.Pairwise fun a b => a.card.toNat < b.card.toNat) (mem : e ∈ xs) :
    (e :: removeDeny e.card xs).Perm xs := by
  induction xs with
  | nil => cases mem
  | cons x xs ih =>
    obtain ⟨first, rest⟩ := List.pairwise_cons.1 sorted
    obtain rfl | later := List.mem_cons.1 mem
    · have others : removeDeny e.card xs = xs := List.filter_eq_self.2 fun y hy => by
        simpa using fun same : y.card = e.card => Nat.lt_irrefl _ (same ▸ first y hy)
      have gone : removeDeny e.card (e :: xs) = removeDeny e.card xs := List.filter_cons_of_neg (by simp)
      rw [gone, others]
    · have other : x.card ≠ e.card := fun same => Nat.lt_irrefl _ (same ▸ first e later)
      have kept : removeDeny e.card (x :: xs) = x :: removeDeny e.card xs := by simp [removeDeny, other]
      rw [kept]
      exact (List.Perm.swap x e _).trans ((ih rest later).cons x)

/-! ## The host's edits (R73) -/

/-- An edit of the deny list on request is answered and changes nothing else. -/
theorem request_edits {f : Screening → Screening} {t : State} (admitted : s.admits tag kind) (body : ReplyBody)
    (edited : t = (((s.endHostFrame.enter tag).onScreening f).reply tag kind body).pump) :
    Answered s t tag kind body ∧ t.host.notices = s.host.notices ∧
      t = { s with screening := t.screening, host := t.host } ∧ t.screening = f s.screening := by
  subst edited
  have open_ := ((State.admits_iff s tag kind).1 admitted).1
  refine ⟨.of_reply body open_ rfl rfl rfl rfl rfl rfl ⟨rfl, rfl⟩ rfl rfl, State.reply_pump_notices body open_, ?_, ?_⟩
  · rw [State.pump_rest]
    unfold State.reply
    split <;> rfl
  · simp

/-- The deny list after a host addition that has room: the entry is replaced in its place or inserted (R73). -/
def Screening.withCentral (card : CardNo) (action : DenyAction) (now : Nat) (c : Screening) : Screening :=
  { c with
    deny :=
      if (c.denied card).isSome = true then replaceDeny (c.central card action now) c.deny
      else insertDeny (c.central card action now) c.deny,
    order := c.order + 1 }

theorem hostDeny_roomy {action : DenyAction}
    (room : (s.screening.denied card).isSome = true ∨ s.screening.deny.length < 16384) :
    s.hostDeny tag (card, action) =
      (s.onScreening (Screening.withCentral card action s.time.now)).replyDenyCounts tag .denyAdd := by
  unfold State.hostDeny
  cases listed : (s.screening.denied card).isSome with
  | true => simp only [if_true, State.onScreening, Screening.withCentral, listed]
  | false =>
    have free : s.screening.deny.length < Config.denyCap := room.resolve_left (by simp [listed])
    simp only [Bool.false_eq_true, if_false, if_pos free, State.onScreening, Screening.withCentral, listed]

theorem hostDeny_full {action : DenyAction} (absent : s.screening.denied card = none)
    (full : 16384 ≤ s.screening.deny.length) :
    s.hostDeny tag (card, action) = s.reply tag .denyAdd (.refused .tableFull) := by
  unfold State.hostDeny
  rw [absent]
  exact if_neg (Nat.not_lt.2 full)

theorem withCentral_denied (card : CardNo) (action : DenyAction) (now : Nat) (c : Screening) (o : CardNo) :
    (c.withCentral card action now).denied o = if card = o then some (c.central card action now) else c.denied o := by
  cases listed : (c.denied card).isSome with
  | true =>
    rw [denied_eq, Screening.withCentral, if_pos listed]
    refine (findDeny_replace (c.central card action now) c.deny o).trans ?_
    split
    · rename_i mine
      obtain rfl : card = o := mine
      obtain ⟨x, found⟩ := Option.isSome_iff_exists.1 listed
      rw [← denied_eq, found, if_pos rfl]
      rfl
    · rename_i other
      exact (if_neg other).symm
  | false =>
    rw [denied_eq, Screening.withCentral, if_neg (by simp [listed])]
    exact findDeny_insert (Screening.denied_none listed) o

theorem withCentral_length (card : CardNo) (action : DenyAction) (now : Nat) (c : Screening) :
    (c.withCentral card action now).deny.length =
      c.deny.length + if (c.denied card).isSome = true then 0 else 1 := by
  unfold Screening.withCentral
  split
  · exact List.length_map _
  · exact insertDeny_length _ _

theorem withCentral_denyOk {action : DenyAction} {now : Nat} {c : Screening}
    (room : (c.denied card).isSome = true ∨ c.deny.length < 16384) (ok : c.denyOk) :
    (c.withCentral card action now).denyOk := by
  unfold Screening.withCentral
  split
  · exact replaceCentral_denyOk _ rfl ok
  · rename_i absent
    exact insertCentral_denyOk _ rfl (Screening.denied_none (Bool.eq_false_of_not_eq_true absent))
      (room.resolve_left absent) ok

/-- The deny list after a DENY_CLEAR: the LOCAL and PEER entries (R73). -/
def Screening.cleared (c : Screening) : Screening := { c with deny := c.deny.filter DenyEntry.isLocal }

theorem cleared_localCount (c : Screening) : c.cleared.localCount = c.cleared.deny.length :=
  List.countP_eq_length.2 fun _ mem => (List.mem_filter.1 mem).2

/-- What clearing takes away is CENTRAL (R73). -/
theorem length_sub_cleared (c : Screening) :
    c.deny.length - c.cleared.deny.length = c.deny.countP fun e => e.origin == .central := by
  have central : (fun e : DenyEntry => e.origin == .central) = fun e => decide ¬e.isLocal = true := funext fun e => by
    rw [isLocal_eq, bne]
    cases e.origin == .central <;> rfl
  have parts := List.length_eq_countP_add_countP DenyEntry.isLocal (l := c.deny)
  rw [central, Screening.cleared, ← List.countP_eq_length_filter]
  omega

section Edits

variable (s tag card)

theorem denyAdd_answers (action : DenyAction) (admitted : s.admits tag .denyAdd) :
    ∃ t, exec (.denyAdd tag (be 4 card.toNat ++ be 1 action.code)) s = .next t ∧
      (card = 0 ∨ card = BitVec.allOnes 32 → OnlyAnswered s t tag .denyAdd (.range 1)) ∧
      (card ≠ 0 → card ≠ BitVec.allOnes 32 → s.screening.denied card = none → 16384 ≤ s.screening.deny.length →
        OnlyAnswered s t tag .denyAdd (.refused .tableFull)) ∧
      (card ≠ 0 → card ≠ BitVec.allOnes 32 →
        (s.screening.denied card).isSome = true ∨ s.screening.deny.length < 16384 →
        Answered s t tag .denyAdd (.denyCounts t.screening.deny.length t.screening.localCount) ∧
          t.host.notices = s.host.notices ∧ t = { s with screening := t.screening, host := t.host } ∧
          t.screening = s.screening.withCentral card action s.time.now) := by
  have read := readDenyAdd_be card action
  by_cases unissued : card = 0 ∨ card = BitVec.allOnes 32
  · rw [issued_eq_false unissued, if_neg Bool.false_ne_true] at read
    obtain ⟨t, run, only⟩ := request_ranges (State.hostDeny tag) admitted read
    exact ⟨t, run, fun _ => only, fun zero ones => absurd unissued (not_or.2 ⟨zero, ones⟩),
      fun zero ones => absurd unissued (not_or.2 ⟨zero, ones⟩)⟩
  · obtain ⟨zero, ones⟩ := not_or.1 unissued
    rw [issued_eq_true zero ones, if_pos rfl] at read
    refine ⟨_, (congrArg (request tag .denyAdd · (State.hostDeny tag) s) read).trans
      (request_value _ _ admitted), fun h => absurd h unissued, fun _ _ absent full => ?_, fun _ _ room => ?_⟩
    · rw [hostDeny_full (s := s.endHostFrame.enter tag) absent full]
      exact .of_reply _ admitted
    · obtain ⟨answered, notices, rest, screening⟩ := request_edits admitted _
        (congrArg State.pump (hostDeny_roomy (s := s.endHostFrame.enter tag) (action := action) room))
      exact ⟨by rw [screening]; exact answered, notices, rest, screening⟩

theorem denyRemove_answers (admitted : s.admits tag .denyRemove) :
    ∃ t, exec (.denyRemove tag (be 4 card.toNat)) s = .next t ∧
      (s.screening.denied card = none → OnlyAnswered s t tag .denyRemove (.refused .notFound)) ∧
      ∀ e, s.screening.denied card = some e →
        Answered s t tag .denyRemove (.denyRemoved e.origin t.screening.deny.length t.screening.localCount) ∧
          t.host.notices = s.host.notices ∧ t = { s with screening := t.screening, host := t.host } ∧
          t.screening = { s.screening with deny := removeDeny card s.screening.deny } := by
  refine ⟨_, (congrArg (request tag .denyRemove · (State.denyRemove tag) s) (readCard_be card)).trans
    (request_value _ _ admitted), fun absent => ?_, fun e found => ?_⟩
  · have path : State.denyRemove tag card (s.endHostFrame.enter tag) =
        (s.endHostFrame.enter tag).reply tag .denyRemove (.refused .notFound) := by
      unfold State.denyRemove
      simp only [State.enter_screening, State.endHostFrame_screening, absent]
    rw [path]
    exact .of_reply _ admitted
  · obtain ⟨answered, notices, rest, screening⟩ :=
      request_edits (f := fun c => { c with deny := removeDeny card c.deny }) admitted
        (.denyRemoved e.origin (removeDeny card s.screening.deny).length
          ((removeDeny card s.screening.deny).countP DenyEntry.isLocal))
        (t := (State.denyRemove tag card (s.endHostFrame.enter tag)).pump)
        (congrArg State.pump (by
          unfold State.denyRemove
          simp only [State.enter_screening, State.endHostFrame_screening, found]
          rfl))
    exact ⟨by rw [screening]; exact answered, notices, rest, screening⟩

theorem denyClear_answers (admitted : s.admits tag .denyClear) :
    ∃ t, exec (.denyClear tag []) s = .next t ∧
      Answered s t tag .denyClear
          (.denyCleared (s.screening.deny.countP fun e => e.origin == .central) t.screening.deny.length
            t.screening.deny.length) ∧
        t.host.notices = s.host.notices ∧ t = { s with screening := t.screening, host := t.host } ∧
        t.screening = { s.screening with deny := s.screening.deny.filter fun e => e.origin != .central } := by
  have path : State.denyClear tag (s.endHostFrame.enter tag) =
      ((s.endHostFrame.enter tag).onScreening Screening.cleared).reply tag .denyClear
        (.denyCleared (s.screening.deny.countP fun e => e.origin == .central) s.screening.cleared.deny.length
          s.screening.cleared.deny.length) :=
    calc State.denyClear tag (s.endHostFrame.enter tag)
      _ = ((s.endHostFrame.enter tag).onScreening Screening.cleared).reply tag .denyClear
            (.denyCleared (s.screening.deny.length - s.screening.cleared.deny.length) s.screening.cleared.deny.length
              s.screening.cleared.localCount) := rfl
      _ = _ := by rw [length_sub_cleared, cleared_localCount]
  obtain ⟨answered, notices, rest, screening⟩ := request_edits admitted _ (congrArg State.pump path)
  refine ⟨_, request_value () (fun _ => State.denyClear tag) admitted, ?_, notices, rest, ?_⟩
  · rw [screening]
    exact answered
  · rw [screening, Screening.cleared, show DenyEntry.isLocal = _ from funext isLocal_eq]

end Edits

/-- Settles O20: each edit by what it makes of the list, and lookups in the list so made. -/
theorem denyEditsTakeEffectFromTheNextLookup : Obligations.DenyEditsTakeEffectFromTheNextLookup := by
  intro s tag card ok
  refine ⟨fun action admitted => ?_, fun admitted => ?_, denyClear_answers s tag⟩
  · obtain ⟨t, run, unissued, full, room⟩ := denyAdd_answers s tag card action admitted
    refine ⟨t, run, unissued, full, fun zero ones free => ?_⟩
    obtain ⟨answered, notices, rest, screening⟩ := room zero ones free
    refine ⟨answered, notices, rest, ?_, ?_, ?_, fun c => ?_⟩ <;> rw [screening]
    · rfl
    · exact withCentral_denyOk free ok
    · exact withCentral_length card action s.time.now s.screening
    · rw [withCentral_denied]
      simp only [eq_comm]
      rfl
  · obtain ⟨t, run, absent, found⟩ := denyRemove_answers s tag card admitted
    refine ⟨t, run, absent, fun e listed => ?_⟩
    obtain ⟨answered, notices, rest, screening⟩ := found e listed
    obtain ⟨mem, mine⟩ := findDeny_some listed
    refine ⟨answered, notices, rest, ?_, ?_, ?_, fun c => ?_⟩ <;> rw [screening]
    · exact filterDeny_denyOk _ ok
    · rw [← mine]
      exact (removeDeny_perm ok.1 mem).length_eq
    · exact findDeny_remove card s.screening.deny c

end Sys2Proof.Machine
end

section
/-! The three parts of an examination, each for one card (R77, R78). -/

namespace Sys2Proof.Machine

variable {s b t : State} {card : CardNo} {e x : Sighting}

/-- A change of the Screening Unit alone, in a part whose host link is that of `s`, tells the host nothing. -/
theorem onScreening_told (same : b.host = s.host) (f : Screening → Screening) (changed : t = (b.onScreening f).pump) :
    Told s t [] ∧ t = { b with screening := t.screening, host := t.host } ∧ t.screening = f b.screening := by
  subst changed
  exact ⟨.of_host same, by rw [State.pump_screening]; exact State.pump_rest _, State.pump_screening _⟩

/-- The table with the entry of a card replaced in its place. -/
theorem putSighting_told (same : b.host = s.host) (mine : x.card = card) (changed : t = (b.putSighting x).pump) :
    Told s t [] ∧ t = { b with screening := t.screening, host := t.host } ∧
      t.screening =
        { b.screening with sightings := b.screening.sightings.map fun y => if y.card = card then x else y } := by
  subst mine
  exact onScreening_told same _ changed

/-- An expired mark goes, whatever the state that carries it (R78). -/
theorem lapseMarkExpiry_told (known : s.screening.sighted card = some e) (unmarked : e.unlapse s.time.now = x) :
    ∃ t, exec (.lapseMarkExpiry card) s = .next t ∧ Told s t [] ∧
      t = { s with screening := t.screening, host := t.host } ∧
      t.screening =
        { s.screening with sightings := s.screening.sightings.map fun y => if y.card = card then x else y } := by
  have path : s.examineLapse card = s.putSighting x := by
    unfold State.examineLapse
    simp only [known, unmarked]
  have mine : x.card = card := by rw [← unmarked, Sighting.unlapse_card, (Screening.sighted_some known).2]
  exact ⟨_, congrArg done path, putSighting_told rfl mine rfl⟩

theorem Standing.unlapse_expired {st : Standing} {m : LapseMark} {now : Nat} (mark : st.lapse = some m)
    (past : m.deadline < now) : st.unlapse now = { st with lapse := none } := by
  unfold Standing.unlapse
  simp [mark, LapseMark.live, Nat.not_le.2 past]

/-- An overdue IN_DOUBT entry is recorded ABANDONED and leaves the table (R77, R78). -/
theorem examineInDoubt_overdue {stored : SImage} {serial : Nat} (known : s.screening.sighted card = some e)
    (state : e.state = .inDoubt stored serial) (late : s.service.params.inDoubtLifetime < s.time.now - e.updated) :
    s.examineInDoubt card =
      (s.append (resolvedRecord card serial stored .abandoned none none)).dropSighting card := by
  have due : s.overdue e = true := by
    simp only [State.overdue, Sighting.isInDoubt, state, Sighting.age, late, decide_true, Bool.and_self]
  unfold State.examineInDoubt State.abandon
  simp only [known, due, if_true, state, (Screening.sighted_some known).2]

/-- Settles O12: the entry examined is the only one an expiry looks at, and each part acts by its state. -/
theorem agingActsOnEachEntryByItsState : Obligations.AgingActsOnEachEntryByItsState := by
  intro s card e known
  refine ⟨fun st m state mark past => ?_, fun p st m state prior mark past => ?_, fun st state unmarked old => ?_,
    fun stored serial state late => ?_⟩
  · refine lapseMarkExpiry_told known ?_
    rw [Sighting.unlapse, state, ← Standing.unlapse_expired mark past]
  · refine lapseMarkExpiry_told known ?_
    rw [Sighting.unlapse, state, ← Standing.unlapse_expired mark past]
    simp only [prior, Option.map_some]
  · have outlived : s.outlived e = true := by
      simp only [State.outlived, state, unmarked, Option.isNone_none, Sighting.age, old, decide_true, Bool.and_self]
    have path : s.examineLifetime card = s.dropSighting card := by
      unfold State.examineLifetime
      simp only [known, outlived, if_true]
    exact ⟨_, congrArg done path, onScreening_told rfl _ rfl⟩
  · have recorded := Examined.of_append (b := resolvedRecord card serial stored .abandoned none none) rfl s
    have examined : Examined s ((s.append (resolvedRecord card serial stored .abandoned none none)).dropSighting card)
        (removeSighting card s.screening.sightings) [resolvedRecord card serial stored .abandoned none none] := by
      rw [← recorded.sightings]
      exact recorded.trans (.of_table _ (removeSighting card))
    refine ⟨_, congrArg done (examineInDoubt_overdue known state late), ?_⟩
    generalize (s.append _).dropSighting card = u at examined
    obtain ⟨rest, grown, host⟩ := examined
    refine ⟨?_, ?_, ?_, ?_⟩
    · refine Silent.of_pump ?_ (Examined.formed ⟨rest, grown, host⟩) ?_ ?_ ?_ ?_ ⟨?_, ?_⟩ ?_ ?_ <;> rw [host]
    · rw [State.pump_screening, State.pump_journal]
      refine (State.pump_rest u).trans ?_
      generalize u.pump.host = line
      rw [rest]
    · rw [State.pump_screening, rest]
      rfl
    · rw [State.pump_journal]
      exact grown

end Sys2Proof.Machine
end

section
/-! Credits that a leaf fault clears, and one that expires: records, lapse marks and LAPSE frames (R89, R112 to R114,
R120, R122, R123, R135, R136). -/

namespace Sys2Proof.Machine

variable {s t u v : State} {k : SlotId} {c : Credit} {travel : Travel}

/-! ## The aisle in leaf FAULT (R118, R120, R123) -/

/-- In leaf FAULT no request is granted (R118). -/
theorem judgeWaiting_fault (fault : s.passage.leaf = .fault) : s.judgeWaiting = s :=
  State.judgeWaiting_none fun d h => by simp [State.grantable, fault] at h

theorem removeCredit_fault (k : SlotId) (fault : s.passage.leaf = .fault) :
    s.removeCredit k = s.onPassage fun g => g.uncredit k :=
  judgeWaiting_fault fault

/-- A credit that a fault clears leaves the aisle; the rest is its record and its lapse request (R123). -/
theorem clearCredit_fault (c : Credit) (fault : s.passage.leaf = .fault) :
    s.clearCredit .fault c =
      { s with
        screening := (s.clearCredit .fault c).screening, link := (s.clearCredit .fault c).link,
        passage := s.passage.uncredit c.slot, journal := (s.clearCredit .fault c).journal,
        host := (s.clearCredit .fault c).host } := by
  have path : s.clearCredit .fault c =
      ((s.onPassage fun g => g.uncredit c.slot).append (c.unusedRecord .gateFault)).lapseCredit c := by
    rw [← removeCredit_fault c.slot fault]
    rfl
  rw [path]
  exact ((Screened.of_append _ _).trans (lapseCredit_spec c _).1).rest

theorem foldl_clearCredit_fault (cs : List Credit) (fault : s.passage.leaf = .fault) :
    let t := cs.foldl (State.clearCredit .fault) s
    t = { s with
      screening := t.screening, link := t.link, passage := s.passage.uncreditAll cs, journal := t.journal,
      host := t.host } := by
  induction cs generalizing s with
  | nil => rfl
  | cons c cs ih =>
    have one := clearCredit_fault c fault
    have passage : (s.clearCredit .fault c).passage = s.passage.uncredit c.slot := by rw [one]
    have later := ih (s := s.clearCredit .fault c) (by rw [passage]; exact fault)
    simp only [List.foldl_cons] at later ⊢
    generalize cs.foldl (State.clearCredit .fault) (s.clearCredit .fault c) = t at later ⊢
    rw [later, one]
    rfl

/-! ## A GATE_RESET that ends in FAULT (R136) -/

/-- The replies with which a leaf fault ends an outstanding GATE_RESET: none once a RESET is taken (R136, R184). -/
def State.resetAnswers (s : State) : List Reply :=
  if s.host.resetTaken = true then []
  else s.passage.gateReset.toList.map fun tag => Reply.inWindow tag .gateReset .fault

/-- In FAULT an outstanding GATE_RESET is answered, and the host is told nothing (R136). -/
theorem judgeGateReset_fault (fault : s.passage.leaf = .fault) :
    s.judgeGateReset =
        { s with passage := { s.passage with gateReset := none }, host := s.judgeGateReset.host } ∧
      s.judgeGateReset.formed = s.formed ++ s.resetAnswers ∧
      ∀ k, s.judgeGateReset.tells k = s.tells k := by
  unfold State.judgeGateReset State.resetAnswers
  rw [fault]
  cases waiting : s.passage.gateReset with
  | none => simp [← waiting]
  | some tag =>
    cases taken : s.host.resetTaken <;>
      simp [LeafState.resetReply, State.reply, State.onPassage, State.onHost, State.formed, State.tells, Reply.inWindow,
        taken]

/-! ## A leaf fault (R135) -/

/-- The part as its leaves enter FAULT, before anything follows from it. -/
def State.inFault (travel : Travel) (s : State) : State :=
  s.onPassage fun g => { g.rest .fault with lastFault := some travel }

/-- The record of a leaf fault (R135). -/
def Travel.faultRecord (travel : Travel) : RecBody :=
  { kind := .gateFault,
    reason := some (match travel with
      | .opening => Reason.opening
      | .closing => Reason.closing) }

/-- The aisle after a leaf fault: its credits gone, their slots free, no GATE_RESET outstanding (R123, R135, R136). -/
def State.faultedAisle (travel : Travel) (s : State) : Passage :=
  { (s.inFault travel).passage.uncreditAll s.passage.credits with gateReset := none }

/-- What a leaf fault does, to the aisle and beside it. -/
structure LeafFaulted (s t : State) (travel : Travel) : Prop where
  rest : t =
    { s with
      screening := t.screening, link := t.link, passage := s.faultedAisle travel, journal := t.journal, host := t.host }
  told : t.tells .gateFault = true
  records : Journals s t (s.faultRecords s.link s.passage.credits ++ [travel.faultRecord])
  lapsed : Lapsed s t s.passage.credits
  link : t.link = s.link.withFrames (s.passage.credits.flatMap s.lapseFrames)
  formed : t.formed = s.formed ++ s.syncAnswers (s.passage.credits.flatMap s.lapseFrames) ++ s.resetAnswers
  alone : s.passage.credits = [] → t.screening = s.screening

/-- What follows the clearing at a leaf fault: record, notice and the end of a GATE_RESET (R135, R136). -/
theorem faultNoted (fault : v.passage.leaf = .fault) (b : RecBody) :
    let t := ((v.append b).raise .gateFault).judgeGateReset
    t = { v with passage := { v.passage with gateReset := none }, journal := t.journal, host := t.host } ∧
      t.tells .gateFault = true ∧ Journals v t [b] ∧ t.formed = v.formed ++ v.resetAnswers := by
  have noted := (Queued.of_append v b).trans (.of_raise _ .gateFault)
  have raised : ((v.append b).raise .gateFault).tells .gateFault = true := State.raise_tells _ _
  have silent : ((v.append b).raise .gateFault).formed = v.formed := by simp
  generalize (v.append b).raise .gateFault = w at *
  have passage : w.passage = v.passage := by rw [noted.rest]
  have link : w.link = v.link := noted.link
  have answers : w.resetAnswers = v.resetAnswers := by
    rw [State.resetAnswers, State.resetAnswers, passage, noted.host]
  obtain ⟨ended, answered, tells⟩ := judgeGateReset_fault (s := w) (by rw [passage, fault])
  have journal : w.judgeGateReset.journal = w.journal := by rw [ended]
  refine ⟨?_, (tells _).trans raised, noted.records.congr journal, by rw [answered, silent, answers]⟩
  have frame := noted.rest
  rw [link] at frame
  rw [journal]
  refine ended.trans ?_
  rw [passage]
  generalize w.judgeGateReset.host = host
  generalize w.journal = journal at frame ⊢
  rw [frame]

/-- The credits of a leaf fault are cleared once the leaves are in FAULT; so the part before sees it (R89, R123). -/
theorem clearCredits_inFault (travel : Travel) (s : State) :
    let t := (s.inFault travel).clearCredits .fault
    t = { s with
        screening := t.screening, link := t.link,
        passage := (s.inFault travel).passage.uncreditAll s.passage.credits, journal := t.journal, host := t.host } ∧
      t.link = s.link.withFrames (s.passage.credits.flatMap s.lapseFrames) ∧
      t.formed = s.formed ++ s.syncAnswers (s.passage.credits.flatMap s.lapseFrames) ∧
      t.host.resetTaken = s.host.resetTaken ∧ Journals s t (s.faultRecords s.link s.passage.credits) ∧
      Lapsed s t s.passage.credits ∧ (s.passage.credits = [] → t.screening = s.screening) := by
  obtain ⟨-, -, link, formed, taken, records, lapsed⟩ := clearCredits_fault_spec s.passage.credits (s.inFault travel)
  rw [faultRecords_congr (s := s) (t := s.inFault travel) s.passage.credits (fun _ => rfl)] at records
  exact ⟨foldl_clearCredit_fault (s := s.inFault travel) s.passage.credits rfl, link, formed, taken,
    ⟨records.grown, records.halted⟩, ⟨lapsed.rest, lapsed.cards, lapsed.entries⟩, fun none_ => by
      show (s.passage.credits.foldl (State.clearCredit .fault) (s.inFault travel)).screening = _
      rw [none_]
      rfl⟩

theorem leafFault_faulted (travel : Travel) (s : State) : LeafFaulted s (s.leafFault travel) travel := by
  obtain ⟨cleared, link, formed, taken, records, lapsed, alone⟩ := clearCredits_inFault travel s
  have path : s.leafFault travel =
      ((((s.inFault travel).clearCredits .fault).append travel.faultRecord).raise .gateFault).judgeGateReset := rfl
  rw [path]
  generalize (s.inFault travel).clearCredits .fault = v at *
  have uncredited := uncreditAll_uncredited s.passage.credits (s.inFault travel).passage
  have passage : v.passage = (s.inFault travel).passage.uncreditAll s.passage.credits := by rw [cleared]
  have answers : v.resetAnswers = s.resetAnswers := by
    rw [State.resetAnswers, State.resetAnswers, taken, passage, uncredited.rest]
    rfl
  obtain ⟨rest, told, noted, answered⟩ := faultNoted (v := v) (by rw [passage, uncredited.rest]; rfl) travel.faultRecord
  generalize ((v.append travel.faultRecord).raise .gateFault).judgeGateReset = t at *
  have screening : t.screening = v.screening := by rw [rest]
  have line : t.link = v.link := by rw [rest]
  exact
    { rest := by rw [screening, line, State.faultedAisle, ← passage, rest, cleared]
      told := told
      records := records.append noted (by rw [cleared]) (by rw [cleared])
      lapsed := ⟨by rw [screening]; exact lapsed.rest, by rw [screening]; exact lapsed.cards,
        by rw [screening]; exact lapsed.entries⟩
      link := line.trans link
      formed := by rw [answered, formed, answers]
      alone := fun none_ => screening.trans (alone none_) }

theorem exec_travelTimeout (moving : s.passage.leaf =
      (match travel with
        | .opening => LeafState.opening
        | .closing => LeafState.closing)) : exec .travelTimeout s = .next (s.leafFault travel).pump := by
  show execTravelTimeout s = _
  unfold execTravelTimeout
  cases travel <;> rw [moving] <;> rfl

theorem exec_travelTimeout_still (opening : s.passage.leaf ≠ .opening) (closing : s.passage.leaf ≠ .closing) :
    exec .travelTimeout s = .next s.pump := by
  show execTravelTimeout s = _
  unfold execTravelTimeout
  cases leaf : s.passage.leaf with
  | opening => exact absurd leaf opening
  | closing => exact absurd leaf closing
  | closed | opened | heldOpen | fault => rfl

theorem faultedAisle_rest (travel : Travel) (s : State) :
    s.faultedAisle travel =
      { s.passage with
        leaf := .fault, travel := none, lastFault := some travel, gateReset := none, credits := [],
        claim := (s.faultedAisle travel).claim, occupants := (s.faultedAisle travel).occupants } := by
  have none_ : (s.faultedAisle travel).credits = [] := uncreditAll_none (s.inFault travel).passage
  have uncredited := uncreditAll_uncredited s.passage.credits (s.inFault travel).passage
  rw [← none_, State.faultedAisle]
  generalize (s.inFault travel).passage.uncreditAll s.passage.credits = g at uncredited
  rw [uncredited.rest]
  rfl

/-- Settles O35: a leaf fault is the clearing of the credits, its record and notice, and the end of a GATE_RESET. -/
theorem travelTimeoutIsALeafFault : Obligations.TravelTimeoutIsALeafFault := by
  intro s
  refine ⟨fun opening closing => ⟨_, exec_travelTimeout_still opening closing, .of_host rfl, s.pump_rest⟩,
    fun travel moving => ⟨_, exec_travelTimeout moving, ?_⟩⟩
  have faulted := leafFault_faulted travel s
  generalize s.leafFault travel = u at faulted
  obtain ⟨rest, told, records, lapsed, link, formed, alone⟩ := faulted
  have whole : u.pump =
      { s with
        screening := u.screening, link := u.link, passage := s.faultedAisle travel, journal := u.journal,
        host := u.pump.host } := by
    refine u.pump_rest.trans ?_
    generalize u.pump.host = host
    rw [rest]
  have aisle : u.pump.passage = s.faultedAisle travel := by rw [whole]
  have uncredited := uncreditAll_uncredited s.passage.credits (s.inFault travel).passage
  have freed : ∀ c ∈ s.passage.credits, (s.faultedAisle travel).claim.slot c.slot = none := fun c mem =>
    (uncredited.slot c.slot).trans (if_pos ⟨c, mem, rfl⟩)
  have emptied : s.passage.credits = [] → u.link = s.link ∧ s.faultedAisle travel =
      { (s.inFault travel).passage with gateReset := none } := fun none_ => by
    rw [link, State.faultedAisle, none_]
    exact ⟨rfl, rfl⟩
  rw [whole, faultedAisle_rest]
  refine ⟨rfl, rfl, rfl, freed, rfl, rfl, rfl, rfl, State.pump_tells u _ told, rfl, rfl, rfl, rfl, rfl, rfl,
    fun none_ => ⟨?_, ?_, ?_⟩, ⟨records.grown, records.halted⟩, ⟨lapsed.rest, lapsed.cards, lapsed.entries⟩, link,
    (State.pump_formed u).trans formed⟩
  · rw [alone none_, (emptied none_).1]
  · rw [(emptied none_).2]
    rfl
  · rw [(emptied none_).2]
    rfl

end Sys2Proof.Machine
end

section
/-! A credit that expires: its record, and the lapse mark and frame of its entry (R89, R112 to R114, R120, R122). -/

namespace Sys2Proof.Machine

variable {s t r : State} {k : SlotId} {c : Credit} {g : Passage} {before after : List Credit} {card : CardNo}
  {serial : Nat} {e : Sighting} {st : Standing}

/-! ## The credit of a slot (R122) -/

theorem unassignedOn_eq_some (credits : g.credits = before ++ c :: after) (mine : c.slot = k)
    (waiting : c.state ≠ .assigned) (others : ∀ x ∈ before ++ after, x.slot ≠ k) : g.unassignedOn k = some c := by
  have passed : before.find? (fun x => x.slot == k && x.state != .assigned) = none := by
    refine List.find?_eq_none.2 fun x mem => ?_
    show ¬(x.slot == k && _) = true
    rw [beq_eq_false_iff_ne.2 (others x (List.mem_append_left after mem))]
    exact Bool.false_ne_true
  have here : (c.slot == k && c.state != .assigned) = true := by
    rw [beq_iff_eq.2 mine, bne_iff_ne.2 waiting]
    rfl
  rw [Passage.unassignedOn, credits, List.find?_append, passed, Option.none_or]
  exact List.find?_cons_of_pos (p := fun x : Credit => x.slot == k && x.state != .assigned) here

theorem unassignedOn_eq_none (assigned : ∀ c ∈ g.credits, c.slot = k → c.state = .assigned) : g.unassignedOn k = none :=
  List.find?_eq_none.2 fun c mem => by
    by_cases mine : c.slot = k
    · simp [assigned c mem mine]
    · simp [beq_eq_false_iff_ne.2 mine]

theorem filter_slot_ne (mine : c.slot = k) (others : ∀ x ∈ before ++ after, x.slot ≠ k) :
    (before ++ c :: after).filter (fun x => x.slot != k) = before ++ after := by
  have kept : (before ++ after).filter (fun x => x.slot != k) = before ++ after :=
    List.filter_eq_self.2 fun x mem => bne_iff_ne.2 (others x mem)
  rw [List.filter_append, List.filter_cons_of_neg (by simp [mine]), ← List.filter_append, kept]

/-! ## Its LAPSE frame (R89) -/

theorem lapseFrames_own (origin : c.origin = .tap serial card) (known : s.screening.sighted card = some e)
    (state : e.state = .committed st) (own : st.origin = .own) :
    s.lapseFrames c = [.lapse card e.baseline (sideOf c.direction)] := by
  simp only [State.lapseFrames, origin, known, Option.elim_some, Sighting.lapseFrames, state, own, if_true,
    (Screening.sighted_some known).2]

/-- A credit has no COMMITTED entry of this gate's own image to lapse: it is no TAP credit, its card has no entry, or
the entry is PENDING_LOCAL, IN_DOUBT or a peer's (R89). -/
def State.lapsesNothing (s : State) (c : Credit) : Prop :=
  ∀ serial card e st, c.origin = .tap serial card → s.screening.sighted card = some e → e.state = .committed st →
    st.origin ≠ .own

theorem lapseCredit_without (without : s.lapsesNothing c) : s.lapseCredit c = s ∧ s.lapseFrames c = [] := by
  unfold State.lapseCredit State.lapseFrames CreditOrigin.tapCard
  cases origin : c.origin with
  | grace | regrant | recovered | staff => exact ⟨rfl, rfl⟩
  | tap serial card =>
    simp only [State.lapseRequest]
    cases known : s.screening.sighted card with
    | none => exact ⟨rfl, rfl⟩
    | some e =>
      simp only [Option.elim_some, Sighting.lapseFrames]
      cases state : e.state with
      | pendingLocal _ | inDoubt _ _ => exact ⟨rfl, rfl⟩
      | committed st =>
        have other := without serial card e st origin known state
        cases from_ : st.origin with
        | own => exact absurd from_ other
        | peer a => simp [from_]

theorem lapsedBy_own (deadline : Nat) (origin : c.origin = .tap serial e.card) (state : e.state = .committed st)
    (own : st.origin = .own) :
    e.lapsedBy [c] deadline =
      { e with
        state := .committed { st with lapse := some { side := sideOf c.direction, deadline := deadline } } } := by
  simp [Sighting.lapsedBy, state, own, origin, CreditOrigin.tapCard]

/-! ## The expiry (R122) -/

/-- Records count from a part with the same journal, time and parameters. -/
theorem Journals.of_eq {xs : List RecBody} (h : Journals r t xs) (journal : r.journal = s.journal)
    (time : r.time = s.time) (service : r.service = s.service) : Journals s t xs := by
  obtain ⟨grown, halted⟩ := h
  rw [State.taken, journal, service, time] at grown
  rw [State.taken, journal, service] at halted
  exact ⟨grown, halted⟩

/-- What the expiry of a credit does: to the aisle as the removal of the credit leaves it, then beside it. -/
structure CreditExpired (s t : State) (k : SlotId) (c : Credit) : Prop where
  rest : t =
    { s with
      portU := (s.removeCredit k).portU, portP := (s.removeCredit k).portP, screening := t.screening, link := t.link,
      passage := { (s.removeCredit k).passage with leaf := t.passage.leaf, travel := t.passage.travel },
      journal := t.journal, host := t.host }
  records : Journals s t (c.unused .expired :: s.link.dropRecords (s.lapseFrames c))
  lapsed : Lapsed s t [c]
  link : t.link = s.link.withFrames (s.lapseFrames c)
  formed : t.formed = s.formed ++ s.syncAnswers (s.lapseFrames c)
  quiet : s.lapsesNothing c → t.screening = s.screening

theorem expireCredit_expired (found : s.passage.unassignedOn k = some c) : CreditExpired s (s.expireCredit k) k c := by
  have removed := removeCredit_rest k s
  have path : s.expireCredit k =
      (((s.removeCredit k).append (c.unused .expired)).lapseCredit c).settleLeaves := by
    rw [State.expireCredit, found]
    rfl
  rw [path]
  generalize removal : s.removeCredit k = r at *
  have recorded := Screened.of_append r (c.unused .expired)
  have screening : (r.append (c.unused .expired)).screening = s.screening := by rw [append_sightings, removed]
  have quiet : s.lapsesNothing c → ((r.append (c.unused .expired)).lapseCredit c).screening = s.screening :=
    fun nothing => by
      rw [(lapseCredit_without (by rw [State.lapsesNothing, screening]; exact nothing)).1, screening]
  obtain ⟨requested, lapsed⟩ := lapseCredit_spec c (r.append (c.unused .expired))
  have frames : (r.append (c.unused .expired)).lapseFrames c = s.lapseFrames c :=
    lapseFrames_congr fun o => by rw [screening]
  have link : (r.append (c.unused .expired)).link = s.link := recorded.link.trans (by rw [removed]; rfl)
  have time : (r.append (c.unused .expired)).time = s.time := by rw [State.append_time, removed]
  have service : (r.append (c.unused .expired)).service = s.service := by rw [State.append_service, removed]
  rw [frames, link] at requested
  have both := recorded.trans requested
  generalize (r.append (c.unused .expired)) = a at *
  generalize a.lapseCredit c = b at *
  rw [settleLeaves_rest]
  exact
    { rest := by
        rw [show b.passage = r.passage by rw [both.rest]]
        generalize b.settleLeaves.passage.leaf = leaf, b.settleLeaves.passage.travel = travel
        rw [both.rest, removal, removed]
      records := Journals.congr (both.records.of_eq (by rw [removed]) (by rw [removed]) (by rw [removed])) rfl
      lapsed := by
        obtain ⟨rest, cards, entries⟩ := lapsed
        rw [screening] at rest cards entries
        rw [time, service] at entries
        exact ⟨rest, cards, entries⟩
      link := both.link.trans (by rw [removed]; rfl)
      formed := both.formed.trans (by rw [removed]; rfl)
      quiet := quiet }

/-- Settles O36: the credit that expires is the one that stands UNASSIGNED on the slot. -/
theorem creditExpiryRecordsAndLapses : Obligations.CreditExpiryRecordsAndLapses := by
  intro s k
  refine ⟨fun assigned => ?_, fun before c after credits mine waiting others => ?_⟩
  · have path : s.expireCredit k = s := by rw [State.expireCredit, unassignedOn_eq_none assigned]
    exact ⟨_, congrArg done path, .of_host rfl, s.pump_rest⟩
  have expired := expireCredit_expired (unassignedOn_eq_some credits mine waiting others)
  have taken : exec (.creditExpiry k) s = .next (s.expireCredit k).pump := rfl
  generalize s.expireCredit k = u at expired taken
  obtain ⟨rest, records, lapsed, link, formed, quiet⟩ := expired
  obtain ⟨r, removed, regranted, left⟩ := removeCredit_regranted k s
  have freed : s.passage.claim.waitU = false → s.passage.claim.waitP = false → r.passage.claim.slot k = none :=
    fun u p => by
      rw [← removed]
      exact freeSlot_slot (s := s.onPassage (Passage.dropCredit k)) k fun d => by cases d <;> assumption
  rw [credits, filter_slot_ne mine others] at left
  rw [removed] at rest
  have whole : u.pump =
      { s with
        portU := r.portU, portP := r.portP, screening := u.screening, link := u.link,
        passage := { r.passage with leaf := u.passage.leaf, travel := u.passage.travel }, journal := u.journal,
        host := u.pump.host } := by
    refine u.pump_rest.trans ?_
    generalize u.pump.host = host
    rw [rest]
  have aisle := regranted.passage
  refine ⟨_, taken, ?_⟩
  rw [whole]
  refine ⟨left, rfl, rfl, rfl, rfl, by rw [aisle]; rfl, ?_, fun u p => ⟨freed u p, ?_, ?_⟩,
    ⟨records.grown, records.halted⟩, ⟨lapsed.rest, lapsed.cards, lapsed.entries⟩, link,
    (State.pump_formed u).trans formed, fun nothing => ?_, fun serial card e st origin known state own => ?_⟩
  · rw [aisle]
    show List.map _ (List.map _ s.passage.occupants) = _
    rw [List.map_map]
    refine List.map_congr_left fun o _ => ?_
    simp only [Function.comp]
    split <;> rfl
  · exact regranted.kept .U u
  · exact regranted.kept .P p
  · have none_ := (lapseCredit_without nothing).2
    rw [none_] at records link formed
    refine ⟨quiet nothing, link, (State.pump_formed u).trans (formed.trans ?_), ⟨records.grown, records.halted⟩⟩
    simp [State.syncAnswers, Link.dropReplies]
  · have frames := lapseFrames_own origin known state own
    have mine := (Screening.sighted_some known).2
    rw [frames] at link
    refine ⟨?_, link, ?_⟩
    · refine (lapsed.entries card).trans ?_
      rw [known, Option.map_some, lapsedBy_own _ (by rw [origin, mine]) state own]
    · rw [show u.link = s.link.withFrame (.lapse card e.baseline (sideOf c.direction)) from link]
      exact withFrame_queued _ _

end Sys2Proof.Machine
end

section
/-! The oldest entry of a list, and what a full deny list or a full sighting table gives up (R74, R76). -/

namespace Sys2Proof.Machine

variable {c : Screening} {xs : List Sighting} {card : CardNo} {origin : DenyOrigin} {now : Nat}

/-! ## The oldest of a list -/

/-- Of the oldest entry so far and one more, the older; the earlier of the list where neither is. -/
def keepOlder {α : Type} (older : α → α → Bool) (best : Option α) (e : α) : Option α :=
  best.elim (some e) fun b => if older e b then some e else some b

/-- An entry older than every other of a list is kept to its end. -/
theorem foldl_keepOlder_stays {α : Type} {older : α → α → Bool} {o : α} {ys : List α}
    (least : ∀ y ∈ ys, y ≠ o → older y o = false) : ys.foldl (keepOlder older) (some o) = some o := by
  induction ys with
  | nil => rfl
  | cons y ys ih =>
    have step : keepOlder older (some o) y = some o := by
      by_cases same : y = o
      · rw [same, keepOlder, Option.elim_some, ite_self]
      · rw [keepOlder, Option.elim_some, if_neg (by rw [least y List.mem_cons_self same]; exact Bool.false_ne_true)]
    rw [List.foldl_cons, step]
    exact ih fun z mem => least z (List.mem_cons_of_mem y mem)

/-- An entry older than every other of a list is the oldest. -/
theorem foldl_keepOlder_eq {α : Type} {older : α → α → Bool} {o : α} {ys : List α} {best : Option α} (mem : o ∈ ys)
    (least : ∀ y ∈ ys, y ≠ o → older o y = true ∧ older y o = false)
    (start : ∀ b, best = some b → b ≠ o → older o b = true) : ys.foldl (keepOlder older) best = some o := by
  induction ys generalizing best with
  | nil => cases mem
  | cons y ys ih =>
    rw [List.foldl_cons]
    by_cases same : y = o
    · subst same
      have step : keepOlder older best y = some y := by
        cases best with
        | none => rfl
        | some b =>
          by_cases equal : b = y
          · rw [equal, keepOlder, Option.elim_some, ite_self]
          · rw [keepOlder, Option.elim_some, if_pos (start b rfl equal)]
      rw [step]
      exact foldl_keepOlder_stays fun z later other => (least z (List.mem_cons_of_mem y later) other).2
    · refine ih (List.mem_of_ne_of_mem (Ne.symm same) mem) (fun z later => least z (List.mem_cons_of_mem y later))
        fun b kept other => ?_
      cases best with
      | none =>
        obtain rfl : y = b := Option.some.inj kept
        exact (least y List.mem_cons_self other).1
      | some a =>
        rw [keepOlder, Option.elim_some] at kept
        split at kept
        · obtain rfl : y = b := Option.some.inj kept
          exact (least y List.mem_cons_self other).1
        · obtain rfl : a = b := Option.some.inj kept
          exact start a rfl other

theorem foldl_keepOlder_isSome {α : Type} (older : α → α → Bool) (ys : List α) {best : Option α}
    (start : ys ≠ [] ∨ best.isSome = true) : (ys.foldl (keepOlder older) best).isSome = true := by
  induction ys generalizing best with
  | nil => exact start.resolve_left (fun h => h rfl)
  | cons y ys ih =>
    refine ih (.inr ?_)
    cases best with
    | none => rfl
    | some b =>
      rw [keepOlder, Option.elim_some]
      split <;> rfl

/-! ## The oldest LOCAL or PEER entry of the deny list (R74) -/

theorem oldestLocal_eq_foldl (xs : List DenyEntry) :
    oldestLocal xs = (xs.filter DenyEntry.isLocal).foldl (keepOlder DenyEntry.older) none := by
  rw [oldestLocal]
  congr 1
  funext best e
  cases best <;> rfl

theorem DenyEntry.older_iff (a b : DenyEntry) :
    a.older b = true ↔ a.added < b.added ∨ (a.added = b.added ∧ a.made < b.made) := by
  simp [DenyEntry.older]

theorem isLocal_iff (e : DenyEntry) : e.isLocal = true ↔ e.origin ≠ .central := by
  rw [isLocal_eq, bne_iff_ne]

theorem oldestLocal_eq_some {xs : List DenyEntry} {o : DenyEntry} (mem : o ∈ xs) (mine : o.origin ≠ .central)
    (least : ∀ x ∈ xs, x.origin ≠ .central → x ≠ o → o.added < x.added ∨ (o.added = x.added ∧ o.made < x.made)) :
    oldestLocal xs = some o := by
  rw [oldestLocal_eq_foldl]
  refine foldl_keepOlder_eq (List.mem_filter.2 ⟨mem, (isLocal_iff o).2 mine⟩) (fun x found other => ?_) nofun
  obtain ⟨listed, local_⟩ := List.mem_filter.1 found
  have first := least x listed ((isLocal_iff x).1 local_) other
  refine ⟨(DenyEntry.older_iff o x).2 first, Bool.eq_false_iff.2 fun later => ?_⟩
  have second := (DenyEntry.older_iff x o).1 later
  omega

theorem exists_oldestLocal (some_ : 0 < c.localCount) : ∃ o, oldestLocal c.deny = some o := by
  rw [oldestLocal_eq_foldl]
  refine Option.isSome_iff_exists.1 (foldl_keepOlder_isSome _ _ (.inl fun none_ => ?_))
  rw [Screening.localCount, List.countP_eq_length_filter, none_] at some_
  exact Nat.lt_irrefl 0 some_

/-! ## A local or peer addition (R74) -/

/-- A peer or local addition in a list with room, at a local count below the limit. -/
theorem addLocal_roomy (few : c.localCount < 512) (room : c.deny.length < 16384) :
    c.addLocal card origin now =
      { c with deny := insertDeny (c.newLocal card origin now) c.deny, order := c.order + 1 } := by
  have below : ¬(Config.localCap ≤ c.localCount ∨ (Config.denyCap ≤ c.deny.length ∧ 0 < c.localCount)) := by
    simp only [Config.localCap, Config.denyCap]
    omega
  exact (if_neg below).trans (if_neg (Nat.not_le.2 room))

/-- At the local limit, or in a full list with an entry to give up, the oldest LOCAL or PEER entry goes. -/
theorem addLocal_swaps {o : DenyEntry} (full : 512 ≤ c.localCount ∨ (16384 ≤ c.deny.length ∧ 0 < c.localCount))
    (oldest : oldestLocal c.deny = some o) :
    c.addLocal card origin now =
      { c with
        deny := insertDeny (c.newLocal card origin now) (removeDeny o.card c.deny), order := c.order + 1 } := by
  refine (if_pos (show Config.localCap ≤ c.localCount ∨ (Config.denyCap ≤ c.deny.length ∧ 0 < c.localCount) from
    full)).trans ?_
  rw [oldest]

/-- A list full of CENTRAL entries takes no other. -/
theorem addLocal_full (full : 16384 ≤ c.deny.length) (none_ : c.localCount = 0) :
    c.addLocal card origin now = c := by
  have below : ¬(Config.localCap ≤ c.localCount ∨ (Config.denyCap ≤ c.deny.length ∧ 0 < c.localCount)) := by
    simp only [Config.localCap]
    omega
  exact (if_neg below).trans (if_pos full)

/-! ## The COMMITTED entry of the oldest update (R76) -/

theorem oldestCommitted_eq_foldl (xs : List Sighting) :
    oldestCommitted xs = (xs.filter Sighting.isCommitted).foldl (keepOlder Sighting.older) none := by
  rw [oldestCommitted]
  congr 1
  funext best e
  cases best <;> rfl

theorem Sighting.older_iff (a b : Sighting) :
    a.older b = true ↔ a.updated < b.updated ∨ (a.updated = b.updated ∧ a.touched < b.touched) := by
  simp [Sighting.older]

theorem isCommitted_iff (e : Sighting) : e.isCommitted = true ↔ ∃ st, e.state = .committed st := by
  unfold Sighting.isCommitted
  cases e.state <;> simp

theorem oldestCommitted_eq_some {o : Sighting} {st : Standing} (mem : o ∈ xs) (mine : o.state = .committed st)
    (least : ∀ x ∈ xs, x ≠ o → (∃ other, x.state = .committed other) →
      o.updated < x.updated ∨ (o.updated = x.updated ∧ o.touched < x.touched)) :
    oldestCommitted xs = some o := by
  rw [oldestCommitted_eq_foldl]
  refine foldl_keepOlder_eq (List.mem_filter.2 ⟨mem, (isCommitted_iff o).2 ⟨st, mine⟩⟩) (fun x found other => ?_) nofun
  obtain ⟨listed, committed⟩ := List.mem_filter.1 found
  have first := least x listed other ((isCommitted_iff x).1 committed)
  refine ⟨(Sighting.older_iff o x).2 first, Bool.eq_false_iff.2 fun later => ?_⟩
  have second := (Sighting.older_iff x o).1 later
  omega

theorem evict_roomy (room : xs.length < 1024) : evict xs = xs := if_neg (Nat.not_le.2 room)

theorem evict_full {o : Sighting} (full : 1024 ≤ xs.length) (oldest : oldestCommitted xs = some o) :
    evict xs = removeSighting o.card xs := by
  refine (if_pos (show Config.sightingCap ≤ xs.length from full)).trans ?_
  rw [oldest]

end Sys2Proof.Machine
end

section
/-! An inbound SIGHTING from a gate that is PRESENT, against each state of the entry of its card (R74, R76, R92,
R93). -/

namespace Sys2Proof.Machine

variable {s b t u : State} {src : Byte} {a : Nat} {card : CardNo} {read written : SImage} {e : Sighting} {st : Standing}
  {p : PendingTap} {stored : SImage} {serial : Nat} {origin : DenyOrigin}

/-! ## A frame from a gate that is PRESENT (R99, R102) -/

theorem takeOther_heard (meets : s.meets src) (known : (s.link.row src.toNat).present = true)
    (act : Nat → State → State) : s.takeOther src act = act src.toNat (s.heardFrom src) := by
  rw [← met_eq_heardFrom meets known]
  obtain ⟨online, low, high, other, -, -⟩ := meets
  exact takeOther_met online low high other act

/-- A frame that has no effect is heard alone. -/
theorem heardFrom_told (s : State) (src : Byte) :
    Told s (s.heardFrom src).pump [] ∧
      (s.heardFrom src).pump = { s.heardFrom src with host := (s.heardFrom src).pump.host } :=
  ⟨.of_host rfl, State.pump_rest _⟩

/-! ## What an inbound SIGHTING comes to (R92, R93) -/

section Valid

variable (zero : card ≠ 0) (ones : card ≠ BitVec.allOnes 32) (next : written.txc = read.txc + 1)

theorem inboundSighting_void (void : card = 0 ∨ card = BitVec.allOnes 32 ∨ written.txc ≠ read.txc + 1) :
    s.inboundSighting a card read written = s := if_pos ((inbound_guard card read written).2 void)

include zero ones next

theorem inbound_valid : ¬(!issued card || written.txc != read.txc + 1) = true := fun void => by
  obtain h | h | h := (inbound_guard card read written).1 void
  · exact zero h
  · exact ones h
  · exact h next

theorem inboundSighting_absent (absent : s.screening.sighted card = none) :
    s.inboundSighting a card read written =
      s.insertSighting card written (.committed { origin := .peer a, lapse := none, regranted := false }) := by
  rw [State.inboundSighting, if_neg (inbound_valid zero ones next), absent]

theorem inboundSighting_committed (listed : s.screening.sighted card = some e) (state : e.state = .committed st) :
    s.inboundSighting a card read written = s.sightCommitted a read written e := by
  rw [State.inboundSighting, if_neg (inbound_valid zero ones next), listed]
  simp only [state]

theorem inboundSighting_pending (listed : s.screening.sighted card = some e) (state : e.state = .pendingLocal p) :
    s.inboundSighting a card read written = s.sightPending a read written e p := by
  rw [State.inboundSighting, if_neg (inbound_valid zero ones next), listed]
  simp only [state]

theorem inboundSighting_inDoubt (listed : s.screening.sighted card = some e)
    (state : e.state = .inDoubt stored serial) :
    s.inboundSighting a card read written = s.sightInDoubt a read written e stored serial := by
  rw [State.inboundSighting, if_neg (inbound_valid zero ones next), listed]
  simp only [state]

end Valid

theorem sightCommitted_same (same : e.baseline = written) : s.sightCommitted a read written e = s := if_pos same.symm

theorem sightCommitted_adopts (differs : e.baseline ≠ written)
    (follows : e.baseline = read ∨ e.baseline.txc < read.txc) :
    s.sightCommitted a read written e = s.touchSighting (e.adopt a written) :=
  (if_neg (Ne.symm differs)).trans (if_pos (follows.imp_left Eq.symm))

theorem sightCommitted_late (differs : e.baseline ≠ written) (apart : e.baseline ≠ read)
    (behind : read.txc ≤ e.baseline.txc) : s.sightCommitted a read written e = s.cloneLate e.card a :=
  (if_neg (Ne.symm differs)).trans (if_neg (not_or.2 ⟨Ne.symm apart, Nat.not_lt.2 behind⟩))

/-! ## The CLONE_LATE finding (R74, R92, R188) -/

/-- A finding leaves a deny list that has the card, or that is full of CENTRAL entries, as it is (R74). -/
theorem denyFinding_stays (stays : (s.screening.denied card).isSome = true ∨
      (16384 ≤ s.screening.deny.length ∧ s.screening.localCount = 0)) :
    (s.denyFinding card origin).screening = s.screening := by
  show (if (s.screening.denied card).isSome = true then _ else _) = _
  split
  · rfl
  · rename_i absent
    obtain ⟨full, none_⟩ := stays.resolve_left absent
    exact addLocal_full full none_

/-- What a late clone does in the part that has heard its frame, the transmitter's choice included. -/
structure FoundLate (s b t : State) (card : CardNo) (a : Nat) : Prop where
  sightings : t.screening.sightings = s.screening.sightings
  told : t.tells .cloneDetected = true
  finding : t.host.finding = some { card := card, kind := .cloneLate }
  findings : s.host.tx.isSome = true → t.host.findings = min 65535 (s.host.findings + 1)
  listed : s.screening.deny.length < 16384 ∨ 0 < s.screening.localCount → (t.screening.denied card).isSome = true
  stays : (s.screening.denied card).isSome = true ∨ (16384 ≤ s.screening.deny.length ∧ s.screening.localCount = 0) →
    t.screening.deny = s.screening.deny
  rest : t =
    { b with
      screening := t.screening, link := b.link.withFrame (.denyAdd card), journal := t.journal, host := t.host }
  formed : t.formed = s.formed ++ b.syncAnswers [.denyAdd card]
  queued : ∃ q ∈ t.link.queue, q.msg = .denyAdd card
  records : Journals s t
    (b.link.dropRecords [.denyAdd card] ++ [{ kind := .cloneLate, card := some card, peer := some a }])

theorem cloneLate_foundLate (s : State) (src : Byte) (card : CardNo) (a : Nat) :
    FoundLate s (s.heardFrom src) ((s.heardFrom src).cloneLate card a).pump card a := by
  obtain ⟨screened, same, finding, findings, told, -, -, queued, listed⟩ := cloneLate_spec card a (s.heardFrom src)
  have screening := cloneLate_screening (s.heardFrom src) card a
  generalize (s.heardFrom src).cloneLate card a = u at *
  have tx : u.host.tx = s.host.tx := by rw [screened.host]; rfl
  have link : u.link = (s.heardFrom src).link.withFrame (.denyAdd card) := screened.link
  refine
    { sightings := by rw [State.pump_screening]; exact same
      told := State.pump_tells u _ told
      finding := by rw [State.pump_host_finding, finding]
      findings := fun sending => ?_
      listed := fun room => ?_
      stays := fun h => ?_
      rest := ?_
      formed := by rw [State.pump_formed]; exact screened.formed
      queued := by rw [State.pump_link]; exact queued
      records := Journals.congr ⟨screened.records.grown, screened.records.halted⟩ (State.pump_journal u) }
  · rw [(State.pump_replying (.inr (by rw [tx]; exact sending))).2, findings]
    rfl
  · rw [State.pump_screening]
    exact listed (.inr room)
  · rw [State.pump_screening, screening, denyFinding_stays (s := s.heardFrom src) h]
    rfl
  · rw [State.pump_screening, State.pump_journal, ← link]
    refine (State.pump_rest u).trans ?_
    generalize u.pump.host = host
    rw [screened.rest]

/-! ## An IN_DOUBT entry that a SIGHTING resolves (R77, R93) -/

/-- The entry with the image a peer wrote, its update now, in a part with the same Screening Unit and time. -/
theorem touch_adopt_sighted (listed : s.screening.sighted card = some e) (screening : b.screening = s.screening)
    (time : b.time = s.time) :
    (b.touchSighting (e.adopt a written)).screening.sighted card =
      some
        { e with
          baseline := written, updated := s.time.now, touched := s.screening.order,
          state := .committed { origin := .peer a, lapse := none, regranted := false } } := by
  have mine : (e.adopt a written).card = card := (Screening.sighted_some listed).2
  have found := touchSighting_self (e := e.adopt a written) (x := e) (s := b) (by rw [mine, screening, listed])
  rw [mine, screening, time] at found
  rw [found, ← mine]
  rfl

/-- A SIGHTING that tells the image of an entry IN_DOUBT resolves it, with its record (R93). -/
theorem sightInDoubt_resolves (mine : e.card = card)
    (tells : stored = read ∨ e.baseline = read ∨ stored.txc = read.txc) :
    s.sightInDoubt a read written e stored serial =
      (s.append (resolvedRecord card serial stored (if stored = read then .committed else .voided) none
        (some a))).touchSighting (e.adopt a written) := by
  unfold State.sightInDoubt
  rw [mine]
  by_cases stands : stored = read
  · rw [if_pos stands.symm, if_pos stands]
  · rw [if_neg (Ne.symm stands), if_neg stands,
      if_pos ((tells.resolve_left stands).imp Eq.symm Eq.symm)]

theorem sightInDoubt_passes (silent : ¬(stored = read ∨ e.baseline = read ∨ stored.txc = read.txc)) :
    s.sightInDoubt a read written e stored serial = s := by
  obtain ⟨stored_, baseline, txc⟩ := not_or.1 silent |>.imp_right not_or.1
  rw [State.sightInDoubt, if_neg (Ne.symm stored_), if_neg (not_or.2 ⟨Ne.symm baseline, Ne.symm txc⟩)]

/-! ## A PENDING_LOCAL entry that keeps a SIGHTING (R93) -/

theorem sightPending_sighted (listed : s.screening.sighted card = some e) :
    (s.sightPending a read written e p).screening.sighted card =
      some
        { e with
          state :=
            .pendingLocal
              { p with
                cloneMark := p.cloneMark || decide (e.baseline = read),
                held :=
                  some { src := a, read := read, written := written, marking := decide (e.baseline = read) } } } := by
  obtain ⟨-, rfl⟩ := Screening.sighted_some listed
  have marks : (read == e.baseline) = decide (e.baseline = read) := by
    rw [Bool.eq_iff_iff, beq_iff_eq, decide_eq_true_iff, eq_comm]
  rw [State.sightPending, marks]
  exact putSighting_self (x := e) listed

/-! ## The statement -/

/-- Settles O46: an inbound SIGHTING state by state of the entry, each a change the part makes once it has heard it. -/
theorem sightingFramesFollowTheTable : Obligations.SightingFramesFollowTheTable := by
  intro s src card rt wt rs ws meets known
  have run : exec (.linkSighting src card rt rs wt ws) s = .next ((s.heardFrom src).inboundSighting src.toNat card
      { txc := rt.toNat, stamp := rs } { txc := wt.toNat, stamp := ws }).pump :=
    congrArg done (takeOther_heard meets known _)
  refine ⟨_, run, fun void => ?_, fun zero ones next => ⟨fun absent room => ?_,
    fun absent full old st mem state least => ?_, fun e listed => ⟨fun st state => ⟨fun same => ?_, fun differs follows => ?_, fun differs apart behind => ?_⟩,
      fun p state => ?_, fun stored serial state => ⟨fun tells => ?_, fun silent => ?_⟩⟩⟩⟩
  · rw [inboundSighting_void (s := s.heardFrom src) void]
    exact heardFrom_told s src
  · rw [inboundSighting_absent (s := s.heardFrom src) zero ones next absent]
    obtain ⟨told, rest, screening⟩ := onScreening_told (s := s) (b := s.heardFrom src) rfl _ rfl
    refine ⟨told, rest, ?_, ?_⟩ <;> rw [State.insertSighting, screening]
    · rfl
    · show evict s.screening.sightings ++ _ = _
      rw [evict_roomy room]
      rfl
  · rw [inboundSighting_absent (s := s.heardFrom src) zero ones next absent]
    obtain ⟨told, rest, screening⟩ := onScreening_told (s := s) (b := s.heardFrom src) rfl _ rfl
    refine ⟨told, rest, ?_, ?_⟩ <;> rw [State.insertSighting, screening]
    · rfl
    · show evict s.screening.sightings ++ _ = _
      rw [evict_full full (oldestCommitted_eq_some mem state least)]
      rfl
  · rw [inboundSighting_committed (s := s.heardFrom src) zero ones next listed state, sightCommitted_same same]
    exact heardFrom_told s src
  · rw [inboundSighting_committed (s := s.heardFrom src) zero ones next listed state,
      sightCommitted_adopts differs follows]
    obtain ⟨told, rest, screening⟩ := onScreening_told (s := s) (b := s.heardFrom src) rfl _ rfl
    refine ⟨told, rest, by rw [State.touchSighting, screening]; rfl, ?_⟩
    rw [State.pump_screening]
    exact touch_adopt_sighted (s := s) listed rfl rfl
  · rw [inboundSighting_committed (s := s.heardFrom src) zero ones next listed state,
      sightCommitted_late differs apart behind, (Screening.sighted_some listed).2]
    have found := cloneLate_foundLate s src card src.toNat
    exact ⟨found.sightings, found.told, found.finding, found.findings, found.listed, found.stays, found.rest,
      found.formed, found.queued, found.records⟩
  · rw [inboundSighting_pending (s := s.heardFrom src) zero ones next listed state]
    obtain ⟨told, rest, screening⟩ := onScreening_told (s := s) (b := s.heardFrom src) rfl _ rfl
    refine ⟨told, rest, by rw [State.sightPending, State.putSighting, screening]; rfl, ?_⟩
    rw [State.pump_screening]
    exact sightPending_sighted (s := s.heardFrom src) listed
  · rw [inboundSighting_inDoubt (s := s.heardFrom src) zero ones next listed state,
      sightInDoubt_resolves (Screening.sighted_some listed).2 tells]
    refine ⟨?_, ?_⟩
    · rw [State.pump_screening]
      exact touch_adopt_sighted (s := s) listed (append_sightings _ _) (State.append_time _ _)
    · rw [State.pump_journal]
      exact (Examined.of_append rfl (s.heardFrom src)).grown
  · rw [inboundSighting_inDoubt (s := s.heardFrom src) zero ones next listed state, sightInDoubt_passes silent]
    exact heardFrom_told s src

end Sys2Proof.Machine
end

section
/-! What a data frame does to the tables depends neither on whether its source was PRESENT nor on the token (R90 to R94,
R99, R102). -/

namespace Sys2Proof.Machine

variable {s t u v : State} {src : Byte} {card : CardNo} {a : Nat}

/-! ## Two parts with the same tables -/

/-- Two parts with the same Screening Unit, time, parameters and findings. -/
structure SameTables (u v : State) : Prop where
  screening : v.screening = u.screening
  time : v.time = u.time
  service : v.service = u.service
  finding : v.host.finding = u.host.finding
  findings : v.host.findings = u.host.findings

theorem SameTables.onScreening {f g : Screening → Screening} (h : SameTables u v)
    (same : g u.screening = f u.screening) : SameTables (u.onScreening f) (v.onScreening g) where
  screening := (congrArg g h.screening).trans same
  time := h.time
  service := h.service
  finding := h.finding
  findings := h.findings

theorem SameTables.putSighting (h : SameTables u v) (e : Sighting) : SameTables (u.putSighting e) (v.putSighting e) :=
  h.onScreening rfl

theorem SameTables.touchSighting (h : SameTables u v) (e : Sighting) :
    SameTables (u.touchSighting e) (v.touchSighting e) :=
  h.onScreening (by rw [h.time])

theorem SameTables.insertSighting (h : SameTables u v) (card : CardNo) (baseline : SImage) (st : SightState) :
    SameTables (u.insertSighting card baseline st) (v.insertSighting card baseline st) :=
  h.onScreening (by rw [h.time])

theorem SameTables.denyFinding (h : SameTables u v) (card : CardNo) (origin : DenyOrigin) :
    SameTables (u.denyFinding card origin) (v.denyFinding card origin) :=
  h.onScreening (by rw [h.time])

/-- Frames queued and records offered leave the tables as they are. -/
theorem SameTables.of_queued {ms ns : List LinkMsg} {xs ys : List RecBody} (h : SameTables u v)
    (one : Queued u s ms xs) (other : Queued v t ns ys) : SameTables s t where
  screening := by rw [one.rest, other.rest]; exact h.screening
  time := by rw [one.rest, other.rest]; exact h.time
  service := by rw [one.rest, other.rest]; exact h.service
  finding := by rw [one.host, other.host]; exact h.finding
  findings := by rw [one.host, other.host]; exact h.findings

theorem SameTables.append (h : SameTables u v) (b : RecBody) : SameTables (u.append b) (v.append b) :=
  h.of_queued (.of_append u b) (.of_append v b)

theorem SameTables.enqueue (h : SameTables u v) (m : LinkMsg) : SameTables (u.enqueue m) (v.enqueue m) :=
  h.of_queued (enqueue_queued u m) (enqueue_queued v m)

theorem SameTables.noteFinding (h : SameTables u v) (card : CardNo) (kind : FindingKind) :
    SameTables (u.noteFinding card kind) (v.noteFinding card kind) where
  screening := h.screening
  time := h.time
  service := h.service
  finding := by rw [noteFinding_host u, noteFinding_host v]
  findings := by rw [noteFinding_host u, noteFinding_host v, h.findings]

/-! ## What a data frame does (R90 to R94) -/

/-- An effect that reads and changes the tables, and beside them queues frames and offers records alone. -/
structure TableAct (act : Nat → State → State) : Prop where
  screened : ∀ a u, ∃ ms xs, Screened u (act a u) ms xs
  same : ∀ a u v, SameTables u v → SameTables (act a u) (act a v)

theorem SameTables.inboundSighting (h : SameTables u v) (a : Nat) (card : CardNo) (read written : SImage) :
    SameTables (u.inboundSighting a card read written) (v.inboundSighting a card read written) := by
  unfold State.inboundSighting
  rw [h.screening]
  split
  · exact h
  · split
    · exact h.insertSighting card written _
    · rename_i e _
      split
      · unfold State.sightCommitted
        split_ifs
        · exact h
        · exact h.touchSighting _
        · exact ((((h.denyFinding e.card .own).enqueue _).append _).noteFinding e.card .cloneLate)
      · exact h.putSighting _
      · unfold State.sightInDoubt
        split_ifs
        · exact (h.append _).touchSighting _
        · exact (h.append _).touchSighting _
        · exact h

theorem tableAct_sighting (card : CardNo) (read written : SImage) :
    TableAct fun a => State.inboundSighting a card read written where
  screened a u := by
    obtain ⟨ms, xs, screened, -⟩ := (inboundSighting_work u a card read written).screened
    exact ⟨ms, xs, screened⟩
  same a _ _ h := h.inboundSighting a card read written

/-- An inbound LAPSE marks the entry of its card, or does nothing (R90). -/
theorem inboundLapse_puts (s : State) (card : CardNo) (img : SImage) (side : Side) :
    s.inboundLapse card img side = s ∨
      ∃ x : Sighting, x.card = card ∧ s.inboundLapse card img side = s.putSighting x := by
  unfold State.inboundLapse
  split
  · exact .inl rfl
  · cases listed : s.screening.sighted card with
    | none => exact .inl rfl
    | some e =>
      have mine := (Screening.sighted_some listed).2
      simp only
      cases e.state with
      | pendingLocal p => exact .inl rfl
      | inDoubt stored serial => exact .inl rfl
      | committed st =>
        simp only
        split
        · refine .inr ⟨_, ?_, rfl⟩
          exact mine
        · exact .inl rfl

theorem tableAct_lapse (card : CardNo) (img : SImage) (side : Side) :
    TableAct fun _ => State.inboundLapse card img side where
  screened _ u := by
    obtain none_ | ⟨x, -, marked⟩ := inboundLapse_puts u card img side
    · exact ⟨_, _, by rw [none_]; exact .refl u⟩
    · exact ⟨_, _, by rw [marked]; exact .of_screening u _⟩
  same _ u v h := by
    unfold State.inboundLapse
    rw [h.screening, h.time, h.service]
    split
    · exact h
    · split
      · exact h
      · split
        · split
          · exact h.putSighting _
          · exact h
        · exact h
        · exact h

theorem doubleRegrant_screened (s : State) (card : CardNo) (a : Nat) (regranted : Bool) :
    Screened s (s.doubleRegrant card a regranted) []
      (if regranted = true then [{ kind := .doubleRegrant, card := some card, peer := some a }] else []) := by
  unfold State.doubleRegrant
  cases regranted with
  | true => exact (Screened.of_append s _).trans (.of_noteFinding _ card .doubleRegrant)
  | false => exact .refl s

theorem tableAct_regrant (card : CardNo) (img : SImage) : TableAct fun a => State.inboundRegrant a card img where
  screened a u := by
    unfold State.inboundRegrant
    split
    · exact ⟨_, _, .refl u⟩
    · split
      · exact ⟨_, _, .refl u⟩
      · split
        · split
          · exact ⟨_, _, (doubleRegrant_screened u card a _).trans (.of_screening _ _)⟩
          · exact ⟨_, _, .refl u⟩
        · exact ⟨_, _, .refl u⟩
        · exact ⟨_, _, .refl u⟩
  same a u v h := by
    unfold State.inboundRegrant State.doubleRegrant
    rw [h.screening, h.time]
    split
    · exact h
    · split
      · exact h
      · split
        · split
          · refine SameTables.putSighting ?_ _
            split
            · exact (h.append _).noteFinding card .doubleRegrant
            · exact h
          · exact h
        · exact h
        · exact h

theorem tableAct_deny (card : CardNo) : TableAct fun a => State.inboundDeny a card where
  screened a u := by
    unfold State.inboundDeny
    split
    · exact ⟨_, _, .of_screening u _⟩
    · exact ⟨_, _, .refl u⟩
  same a u v h := by
    unfold State.inboundDeny
    split
    · exact h.denyFinding card _
    · exact h

/-! ## The frames that carry them -/

theorem exec_linkLapse (card : CardNo) (txc : BitVec 16) (stamp : Stamp) (side : Side) (s : State) :
    exec (.linkLapse src card txc stamp (match side with | .U => 1 | .P => 2)) s =
      done (s.takeOther src fun _ => State.inboundLapse card { txc := txc.toNat, stamp := stamp } side) := by
  cases side <;> rfl

/-- Each of the four data frames acts on the tables of the part that has taken it. -/
theorem exec_dataFrame {rt wt : BitVec 16} {rs ws : Stamp} {side : Side} {c : Instr}
    (carried : c ∈ [Instr.linkSighting src card rt rs wt ws,
      .linkLapse src card rt rs (match side with | .U => 1 | .P => 2), .linkRegrant src card rt rs,
      .linkDenyAdd src card]) :
    ∃ act, TableAct act ∧ ∀ s, exec c s = done (s.takeOther src act) := by
  simp only [List.mem_cons, List.not_mem_nil, or_false] at carried
  obtain rfl | rfl | rfl | rfl := carried
  · exact ⟨_, tableAct_sighting card _ _, fun _ => rfl⟩
  · exact ⟨_, tableAct_lapse card _ side, exec_linkLapse card rt rs side⟩
  · exact ⟨_, tableAct_regrant card _, fun _ => rfl⟩
  · exact ⟨_, tableAct_deny card, fun _ => rfl⟩

/-! ## The two parts -/

/-- Hearing a frame leaves the host link but for notices and replies. -/
theorem met_host (src : Byte) (s : State) :
    (s.met src).host =
      { s.host with replies := (s.met src).host.replies, notices := (s.met src).host.notices } := by
  obtain ⟨rest, -, -⟩ := meetFrame_endReception s
  unfold State.met
  have host : s.endReception.meetFrame.host = s.host := by rw [rest]
  generalize s.endReception.meetFrame = b at *
  cases present : (b.link.row src.toNat).present with
  | true => rw [heard_known present, State.onLink_host, host]
  | false =>
    rw [heard_new present]
    have queued := (Queued.of_append (b.onLink fun l => l.setRow src.toNat
      { b.link.row src.toNat with present := true, lastHeard := some b.time.now })
      (membershipRecord src.toNat .heard)).trans (.of_raise _ .membershipChange)
    rw [← host]
    exact queued.host

theorem sameTables_met (src : Byte) (low : 1 ≤ src.toNat) (high : src.toNat ≤ s.link.rows.length) :
    SameTables (s.met src) ((s.asMet src).met src) := by
  have alike := (alike_met low high).rest
  have host := met_host src s
  have host' := met_host src (s.asMet src)
  refine ⟨?_, ?_, ?_, ?_, ?_⟩
  · rw [alike]
  · rw [alike]
  · rw [alike]
  · rw [host, host']
    rfl
  · rw [host, host']
    rfl

/-- What a frame's effect leaves of the part that has met it, for every effect on the tables (R99, R102). -/
structure FrameActed (s t : State) (src : Byte) : Prop where
  rows : t.link.rows = (s.met src).link.rows
  sending : t.host.tx = s.host.tx
  absent : (s.link.row src.toNat).present = false →
    t.tells .membershipChange = true ∧
      (s.journal.halted = false → ∃ more,
        s.journal.grownBy t.journal s.time.now (membershipRecord src.toNat .heard :: more))

theorem TableAct.acted {act : Nat → State → State} (h : TableAct act) (src : Byte) (s : State) :
    FrameActed s (act src.toNat (s.met src)) src := by
  obtain ⟨ms, xs, screened⟩ := h.screened src.toNat (s.met src)
  have met := met_spec src s
  refine ⟨?_, ?_, fun absent => ?_⟩
  · rw [screened.link, Link.withFrames_rows]
  · rw [screened.host, met_host]
  · obtain ⟨told, records⟩ := met.absent absent
    exact ⟨screened.told _ told, (records.append screened.records (by rw [met.rest]) (by rw [met.rest])).first⟩

/-- What the transmitter's choice leaves of it. -/
theorem FrameActed.pump (h : FrameActed s t src) :
    t.pump.link.rows = (s.met src).link.rows ∧
      (s.host.tx.isSome = true → t.pump.host.findings = t.host.findings) ∧
      ((s.link.row src.toNat).present = false →
        t.pump.tells .membershipChange = true ∧
          (s.journal.halted = false → ∃ more,
            s.journal.grownBy t.pump.journal s.time.now (membershipRecord src.toNat .heard :: more))) := by
  refine ⟨by rw [State.pump_link, h.rows], fun sending => ?_, fun absent => ?_⟩
  · exact (State.pump_replying (.inr (by rw [h.sending]; exact sending))).2
  · obtain ⟨told, grown⟩ := h.absent absent
    rw [State.pump_journal]
    exact ⟨State.pump_tells t _ told, grown⟩

/-- A data frame does to the tables of a part what it does to those of the part that knows its source and holds no
token. -/
theorem dataFrame_asMet {rt wt : BitVec 16} {rs ws : Stamp} {side : Side} {c : Instr}
    (online : ∀ reason, s.link.state ≠ .offline reason) (low : 1 ≤ src.toNat) (high : src.toNat ≤ 16)
    (other : src.toNat ≠ s.link.addr) (rows : s.link.rows.length = 16)
    (carried : c ∈ [Instr.linkSighting src card rt rs wt ws,
      .linkLapse src card rt rs (match side with | .U => 1 | .P => 2), .linkRegrant src card rt rs,
      .linkDenyAdd src card]) :
    ∃ t u, exec c s = .next t ∧ exec c (s.asMet src) = .next u ∧ t.screening = u.screening ∧
      t.host.finding = u.host.finding ∧ (s.host.tx.isSome = true → t.host.findings = u.host.findings) ∧
      t.link.rows.map MemberRow.view = u.link.rows.map MemberRow.view ∧
      ((s.link.row src.toNat).present = false →
        t.tells .membershipChange = true ∧
        (s.journal.halted = false → ∃ more,
          s.journal.grownBy t.journal s.time.now
            ({ kind := .membership, peer := some src.toNat, reason := some .heard } :: more))) := by
  obtain ⟨act, acts, run⟩ := exec_dataFrame carried
  have high' : src.toNat ≤ s.link.rows.length := rows ▸ high
  have same := acts.same src.toNat _ _ (sameTables_met src low high')
  have state : (s.asMet src).link.state = s.link.state ∧ (s.asMet src).link.addr = s.link.addr := by
    rw [State.asMet, Link.setRow_rest]
    exact ⟨rfl, rfl⟩
  have here : exec c s = .next (act src.toNat (s.met src)).pump := by
    rw [run, takeOther_met online low high other]
    rfl
  have there : exec c (s.asMet src) = .next (act src.toNat ((s.asMet src).met src)).pump := by
    rw [run, takeOther_met (by rw [state.1]; exact online) low high (by rw [state.2]; exact other)]
    rfl
  obtain ⟨rows_, findings, absent⟩ := (acts.acted src s).pump
  obtain ⟨rows', findings', -⟩ := (acts.acted src (s.asMet src)).pump
  refine ⟨_, _, here, there, ?_, ?_, fun sending => ?_, ?_, absent⟩
  · rw [State.pump_screening, State.pump_screening, same.screening]
  · rw [State.pump_host_finding, State.pump_host_finding, same.finding]
  · rw [findings sending, findings' sending, same.findings]
  · rw [rows_, rows', (alike_met low high').rows]

end Sys2Proof.Machine
end

section
/-! Inbound LAPSE, REGRANT and DENY_ADD frames from a gate that is PRESENT, and a deny list at its limits (R74, R90 to
R92, R94, R188). -/

namespace Sys2Proof.Machine

variable {s b t u : State} {src : Byte} {card : CardNo} {a : Nat} {img : SImage} {side : Side} {e : Sighting}
  {st : Standing} {c : Screening} {origin : DenyOrigin} {now : Nat} {o : DenyEntry}

/-! ## LAPSE (R90) -/

/-- A LAPSE or REGRANT has no effect: the card is no issued one, or has no COMMITTED entry with the image (R90, R91). -/
def State.passesBy (s : State) (card : CardNo) (img : SImage) : Prop :=
  card = 0 ∨ card = BitVec.allOnes 32 ∨
    ∀ e st, s.screening.sighted card = some e → e.state = .committed st → e.baseline ≠ img

theorem State.passesBy.cases (void : s.passesBy card img) :
    issued card = false ∨
      ∀ e st, s.screening.sighted card = some e → e.state = .committed st → e.baseline ≠ img := by
  obtain zero | ones | differs := void
  · exact .inl (issued_eq_false (.inl zero))
  · exact .inl (issued_eq_false (.inr ones))
  · exact .inr differs

theorem inboundLapse_void (void : s.passesBy card img) : s.inboundLapse card img side = s := by
  unfold State.inboundLapse
  obtain unissued | differs := void.cases
  · rw [unissued]
    rfl
  · split
    · rfl
    · cases listed : s.screening.sighted card with
      | none => rfl
      | some e =>
        cases state : e.state with
        | pendingLocal _ | inDoubt _ _ => simp only [state]
        | committed st => simp only [state, if_neg (differs e st listed state)]

theorem inboundLapse_marks (zero : card ≠ 0) (ones : card ≠ BitVec.allOnes 32)
    (listed : s.screening.sighted card = some e) (state : e.state = .committed st) (same : e.baseline = img) :
    s.inboundLapse card img side =
      s.putSighting
        { e with
          state :=
            .committed
              { st with
                lapse := some { side := side, deadline := s.time.now + s.service.params.regrantWindow } } } := by
  unfold State.inboundLapse
  simp only [issued_eq_true zero ones, listed, state, same, Bool.not_true, Bool.false_eq_true, if_false, if_true]

theorem lapseFrame_acts (meets : s.meets src) (known : (s.link.row src.toNat).present = true) (card : CardNo)
    (txc : BitVec 16) (stamp : Stamp) (side : Side) :
    ∃ t, exec (.linkLapse src card txc stamp (match side with | .U => 1 | .P => 2)) s = .next t ∧ Told s t [] ∧
      t = { s.heardFrom src with screening := t.screening, host := t.host } ∧
      t.screening = { s.screening with sightings := t.screening.sightings } ∧
      (∀ c, c ≠ card → t.screening.sighted c = s.screening.sighted c) ∧
      (∀ e st, card ≠ 0 → card ≠ BitVec.allOnes 32 → s.screening.sighted card = some e →
        e.state = .committed st → e.baseline = { txc := txc.toNat, stamp := stamp } →
        t.screening.sighted card =
          some
            { e with
              state :=
                .committed
                  { st with
                    lapse :=
                      some { side := side, deadline := s.time.now + s.service.params.regrantWindow } } }) ∧
      (s.passesBy card { txc := txc.toNat, stamp := stamp } → t.screening = s.screening) := by
  have run : exec (.linkLapse src card txc stamp (match side with | .U => 1 | .P => 2)) s =
      .next ((s.heardFrom src).inboundLapse card { txc := txc.toNat, stamp := stamp } side).pump :=
    (exec_linkLapse card txc stamp side s).trans (congrArg done (takeOther_heard meets known _))
  refine ⟨_, run, ?_⟩
  rw [← and_assoc, ← and_assoc, ← and_assoc]
  refine ⟨?_, fun e st zero ones listed state same => ?_, fun void => ?_⟩
  · obtain none_ | ⟨x, mine, marked⟩ :=
      inboundLapse_puts (s.heardFrom src) card { txc := txc.toNat, stamp := stamp } side
    · rw [none_, State.pump_screening]
      obtain ⟨told, rest⟩ := heardFrom_told s src
      exact ⟨⟨⟨told, rest⟩, rfl⟩, fun _ _ => rfl⟩
    · rw [marked]
      obtain ⟨told, rest, screening⟩ := putSighting_told (s := s) (b := s.heardFrom src) rfl mine rfl
      refine ⟨⟨⟨told, rest⟩, by rw [screening]; rfl⟩, fun o other => ?_⟩
      rw [State.pump_screening]
      exact putSighting_other x (s.heardFrom src) (by rw [mine]; exact other)
  · obtain ⟨-, rfl⟩ := Screening.sighted_some listed
    rw [State.pump_screening, inboundLapse_marks (s := s.heardFrom src) zero ones listed state same]
    exact putSighting_self (x := e) listed
  · rw [State.pump_screening, inboundLapse_void (s := s.heardFrom src) void]
    rfl

/-! ## REGRANT (R91, R188) -/

theorem inboundRegrant_void (void : s.passesBy card img) : s.inboundRegrant a card img = s := by
  unfold State.inboundRegrant
  obtain unissued | differs := void.cases
  · rw [unissued]
    rfl
  · split
    · rfl
    · cases listed : s.screening.sighted card with
      | none => rfl
      | some e =>
        cases state : e.state with
        | pendingLocal _ | inDoubt _ _ => simp only [state]
        | committed st => simp only [state, if_neg (differs e st listed state)]

theorem dropLive_eq (st : Standing) (now : Nat) :
    st.dropLive now = { st with lapse := st.lapse.filter fun m => decide (m.deadline < now) } := by
  obtain ⟨origin, lapse, regranted⟩ := st
  cases lapse with
  | none => rfl
  | some m =>
    by_cases live : now ≤ m.deadline
    · simp [Standing.dropLive, LapseMark.live, live, Option.filter]
    · simp [Standing.dropLive, LapseMark.live, live, Option.filter, Nat.not_le.1 live]

/-- The entry of a COMMITTED image without its live mark (R91). -/
def Sighting.unmarked (e : Sighting) (st : Standing) (now : Nat) : Sighting :=
  { e with state := .committed { st with lapse := st.lapse.filter fun m => decide (m.deadline < now) } }

theorem inboundRegrant_acts (zero : card ≠ 0) (ones : card ≠ BitVec.allOnes 32)
    (listed : s.screening.sighted card = some e) (state : e.state = .committed st) (same : e.baseline = img) :
    s.inboundRegrant a card img = (s.doubleRegrant card a st.regranted).putSighting (e.unmarked st s.time.now) := by
  unfold State.inboundRegrant
  simp only [issued_eq_true zero ones, listed, state, same, Bool.not_true, Bool.false_eq_true, if_false, if_true,
    dropLive_eq, Sighting.unmarked]

/-- Either a REGRANT passes by or it meets a COMMITTED entry with its image (R91). -/
theorem passesBy_or (s : State) (card : CardNo) (img : SImage) :
    s.passesBy card img ∨ (card ≠ 0 ∧ card ≠ BitVec.allOnes 32 ∧
      ∃ e st, s.screening.sighted card = some e ∧ e.state = .committed st ∧ e.baseline = img) := by
  by_cases void : s.passesBy card img
  · exact .inl void
  · obtain ⟨zero, rest⟩ := not_or.1 void
    obtain ⟨ones, meets⟩ := not_or.1 rest
    push Not at meets
    exact .inr ⟨zero, ones, meets⟩

/-- Beside the entry, a REGRANT makes the finding of an image this gate has regranted itself, or nothing (R91, R188). -/
structure Regranting (s t : State) (card : CardNo) (a : Nat) (regranted : Bool) : Prop where
  screening : t.screening = s.screening
  found : regranted = true →
    t.tells .cloneDetected = true ∧ t.host.finding = some { card := card, kind := .doubleRegrant } ∧
      t.host.findings = min 65535 (s.host.findings + 1) ∧
      s.journal.grownBy t.journal s.time.now
        (if s.journal.halted = true then [] else [{ kind := .doubleRegrant, card := some card, peer := some a }])
  quiet : regranted = false → t = s

theorem doubleRegrant_regranting (s : State) (card : CardNo) (a : Nat) (regranted : Bool) :
    Regranting s (s.doubleRegrant card a regranted) card a regranted := by
  unfold State.doubleRegrant
  cases regranted with
  | false => exact ⟨rfl, nofun, fun _ => rfl⟩
  | true =>
    have recorded := Journals.of_append s { kind := .doubleRegrant, card := some card, peer := some a }
    refine ⟨State.append_screening _ _, fun _ => ⟨noteFinding_told _ _ _, ?_, ?_, recorded.of_event rfl⟩, nofun⟩
    · show (State.noteFinding card .doubleRegrant _).host.finding = _
      rw [noteFinding_host]
    · show (State.noteFinding card .doubleRegrant _).host.findings = _
      rw [noteFinding_host, State.append_host_findings]

theorem regrantFrame_acts (meets : s.meets src) (known : (s.link.row src.toNat).present = true) (card : CardNo)
    (txc : BitVec 16) (stamp : Stamp) :
    ∃ t, exec (.linkRegrant src card txc stamp) s = .next t ∧
      t = { s.heardFrom src with screening := t.screening, journal := t.journal, host := t.host } ∧
      t.screening = { s.screening with sightings := t.screening.sightings } ∧
      (∀ e st, card ≠ 0 → card ≠ BitVec.allOnes 32 → s.screening.sighted card = some e → e.state = .committed st →
        e.baseline = { txc := txc.toNat, stamp := stamp } →
        t.screening.sighted card = some (e.unmarked st s.time.now) ∧
          (st.regranted = true →
            t.tells .cloneDetected = true ∧ t.host.finding = some { card := card, kind := .doubleRegrant } ∧
            (s.host.tx.isSome = true → t.host.findings = min 65535 (s.host.findings + 1)) ∧
            s.journal.grownBy t.journal s.time.now
              (if s.journal.halted = true then []
              else [{ kind := .doubleRegrant, card := some card, peer := some src.toNat }])) ∧
          (st.regranted = false → Told s t [] ∧ t.journal = s.journal)) ∧
      (s.passesBy card { txc := txc.toNat, stamp := stamp } →
        Told s t [] ∧ t.screening = s.screening ∧ t.journal = s.journal) := by
  have run : exec (.linkRegrant src card txc stamp) s =
      .next ((s.heardFrom src).inboundRegrant src.toNat card { txc := txc.toNat, stamp := stamp }).pump :=
    congrArg done (takeOther_heard meets known _)
  refine ⟨_, run, ?_⟩
  obtain void | ⟨zero, ones, e, st, listed, state, same⟩ := passesBy_or s card { txc := txc.toNat, stamp := stamp }
  · rw [inboundRegrant_void (s := s.heardFrom src) void]
    obtain ⟨told, rest⟩ := heardFrom_told s src
    refine ⟨?_, ?_, fun e st zero ones listed state same => ?_, fun _ => ⟨told, ?_, ?_⟩⟩
    · rw [State.pump_screening, State.pump_journal]
      exact rest
    · rw [State.pump_screening]
      rfl
    · obtain h | h | h := void
      · exact absurd h zero
      · exact absurd h ones
      · exact absurd same (h e st listed state)
    · rw [State.pump_screening]
      rfl
    · rw [State.pump_journal]
      rfl
  · have beside := doubleRegrant_regranting (s.heardFrom src) card src.toNat st.regranted
    have screened := doubleRegrant_screened (s.heardFrom src) card src.toNat st.regranted
    rw [inboundRegrant_acts (s := s.heardFrom src) zero ones listed state same]
    generalize (s.heardFrom src).doubleRegrant card src.toNat st.regranted = u at *
    obtain ⟨screening, found, quiet⟩ := beside
    have tx : u.host.tx = s.host.tx := by rw [screened.host]; rfl
    have link : u.link = (s.heardFrom src).link := screened.link
    refine ⟨?_, ?_, fun e' st' _ _ listed' state' _ => ?_, fun void => ?_⟩
    · rw [State.pump_screening, State.pump_journal]
      refine (State.pump_rest _).trans ?_
      have frame := screened.rest
      rw [link] at frame
      have put (tables : Screening) (host : HostLink) : ({ u with screening := tables, host := host } : State) =
          { s.heardFrom src with screening := tables, journal := u.journal, host := host } := by
        generalize u.journal = journal at frame ⊢
        rw [frame]
      exact put _ _
    · have put : (u.putSighting (e.unmarked st (s.heardFrom src).time.now)).screening =
          { u.screening with
            sightings := replaceSighting (e.unmarked st (s.heardFrom src).time.now) u.screening.sightings } := rfl
      rw [State.pump_screening, put, screening]
      rfl
    · obtain rfl : e = e' := Option.some.inj (listed.symm.trans listed')
      obtain rfl : st = st' := SightState.committed.inj (state.symm.trans state')
      obtain ⟨-, rfl⟩ := Screening.sighted_some listed
      refine ⟨?_, fun again => ?_, fun first => ?_⟩
      · rw [State.pump_screening]
        exact putSighting_self (x := e) (by show u.screening.sighted e.card = _; rw [screening]; exact listed)
      · obtain ⟨told, finding, findings, grown⟩ := found again
        rw [State.pump_host_finding, State.pump_journal]
        refine ⟨State.pump_tells _ _ told, finding, fun sending => ?_, grown⟩
        exact (State.pump_replying (.inr (by show u.host.tx.isSome = true; rw [tx]; exact sending))).2.trans findings
      · rw [quiet first, State.pump_journal]
        exact ⟨.of_host rfl, rfl⟩
    · obtain h | h | h := void
      · exact absurd h zero
      · exact absurd h ones
      · exact absurd same (h e st listed state)

/-! ## DENY_ADD (R74, R94) -/

theorem localCount_insert (c : Screening) {x : DenyEntry} (mine : x.isLocal = true) (xs : List DenyEntry) (n : Nat) :
    ({ c with deny := insertDeny x xs, order := n } : Screening).localCount = xs.countP DenyEntry.isLocal + 1 :=
  ((insertDeny_perm x xs).countP_eq _).trans (List.countP_cons_of_pos mine)

/-- An addition that gives up the oldest LOCAL or PEER entry keeps both counts, and changes two lookups (R74). -/
theorem addLocal_gives_up (ok : c.denyOk) (absent : (c.denied card).isSome = false) (peer : origin ≠ .central)
    (full : 512 ≤ c.localCount ∨ (16384 ≤ c.deny.length ∧ 0 < c.localCount)) (oldest : oldestLocal c.deny = some o) :
    (c.addLocal card origin now).localCount = c.localCount ∧
      (c.addLocal card origin now).deny.length = c.deny.length ∧
      ∀ x, (c.addLocal card origin now).denied x =
        if card = x then some (c.newLocal card origin now) else if x = o.card then none else c.denied x := by
  obtain ⟨mem, mine⟩ := oldestLocal_mem oldest
  have kept := removeDeny_perm ok.1 mem
  have count := kept.countP_eq DenyEntry.isLocal
  rw [List.countP_cons_of_pos mine] at count
  rw [addLocal_swaps full oldest]
  refine ⟨?_, ?_, fun x => ?_⟩
  · rw [localCount_insert c ((isLocal_iff _).2 peer), count]
    rfl
  · exact (insertDeny_length _ _).trans kept.length_eq
  · have others : ∀ y ∈ removeDeny o.card c.deny, y.card ≠ card := fun y later =>
      Screening.denied_none absent y (List.mem_filter.1 later).1
    refine (findDeny_insert (e := c.newLocal card origin now) others x).trans ?_
    rw [findDeny_remove]
    rfl

theorem addLocal_joins (absent : (c.denied card).isSome = false) (peer : origin ≠ .central) (few : c.localCount < 512)
    (room : c.deny.length < 16384) :
    (c.addLocal card origin now).localCount = c.localCount + 1 ∧
      (c.addLocal card origin now).deny.length = c.deny.length + 1 ∧
      ∀ x, (c.addLocal card origin now).denied x =
        if card = x then some (c.newLocal card origin now) else c.denied x := by
  rw [addLocal_roomy few room]
  exact ⟨localCount_insert c ((isLocal_iff _).2 peer) _ _, insertDeny_length _ _,
    findDeny_insert (Screening.denied_none absent)⟩

/-- Wherever the list can take the card, the addition's entry is found (R74). -/
theorem addLocal_denied (ok : c.denyOk) (absent : (c.denied card).isSome = false) (peer : origin ≠ .central)
    (room : c.deny.length < 16384 ∨ 0 < c.localCount) :
    (c.addLocal card origin now).denied card = some (c.newLocal card origin now) := by
  by_cases full : 512 ≤ c.localCount ∨ (16384 ≤ c.deny.length ∧ 0 < c.localCount)
  · obtain ⟨o, oldest⟩ := exists_oldestLocal (c := c) (by omega)
    rw [(addLocal_gives_up ok absent peer full oldest).2.2, if_pos rfl]
  · obtain ⟨-, -, found⟩ := addLocal_joins (now := now) absent peer (by omega) (by omega)
    rw [found, if_pos rfl]

theorem denyFrame_acts (meets : s.meets src) (known : (s.link.row src.toNat).present = true) (card : CardNo) :
    ∃ t, exec (.linkDenyAdd src card) s = .next t ∧ Told s t [] ∧
      t = { s.heardFrom src with screening := t.screening, host := t.host } ∧
      t.screening.sightings = s.screening.sightings ∧
      (card = 0 ∨ card = BitVec.allOnes 32 ∨ (s.screening.denied card).isSome = true → t.screening = s.screening) ∧
      (card ≠ 0 → card ≠ BitVec.allOnes 32 → s.screening.denied card = none →
        t.screening = s.screening.addLocal card (.peer src.toNat) s.time.now) := by
  have run : exec (.linkDenyAdd src card) s = .next ((s.heardFrom src).inboundDeny src.toNat card).pump :=
    congrArg done (takeOther_heard meets known _)
  refine ⟨_, run, ?_⟩
  by_cases unissued : card = 0 ∨ card = BitVec.allOnes 32
  · rw [State.inboundDeny, issued_eq_false unissued, if_neg Bool.false_ne_true, State.pump_screening]
    obtain ⟨told, rest⟩ := heardFrom_told s src
    exact ⟨told, rest, rfl, fun _ => rfl, fun zero ones => absurd unissued (not_or.2 ⟨zero, ones⟩)⟩
  · obtain ⟨zero, ones⟩ := not_or.1 unissued
    rw [State.inboundDeny, issued_eq_true zero ones, if_pos rfl]
    obtain ⟨told, rest, screening⟩ := onScreening_told (s := s) (b := s.heardFrom src) rfl _ rfl
    refine ⟨told, rest, ?_, fun stays => ?_, fun _ _ absent => ?_⟩
    · rw [State.pump_screening, denyFinding_sightings]
      rfl
    · have denied := (or_assoc.2 stays).resolve_left unissued
      rw [State.pump_screening, denyFinding_stays (s := s.heardFrom src) (.inl denied)]
      rfl
    · rw [State.denyFinding, screening]
      exact if_neg (by simp [State.heardFrom, absent])

/-- Settles O47: what each frame does does not depend on how the part stands to its source, and each acts as its rule
says on a part that knows it. -/
theorem lapseRegrantAndDenyFramesAct : Obligations.LapseRegrantAndDenyFramesAct := by
  refine ⟨fun s src card rt wt rs ws side c online low high other rows carried =>
      dataFrame_asMet online low high other rows carried,
    fun s src card txc stamp meets known => ⟨lapseFrame_acts meets known card txc stamp,
      regrantFrame_acts meets known card txc stamp, ?_⟩⟩
  obtain ⟨t, run, told, rest, sightings, stays, adds⟩ := denyFrame_acts meets known card
  refine ⟨t, run, told, rest, sightings, stays, fun zero ones absent ok => ?_⟩
  have unlisted : (s.screening.denied card).isSome = false := by rw [absent]; rfl
  have peer : DenyOrigin.peer src.toNat ≠ .central := nofun
  rw [adds zero ones absent]
  refine ⟨Screening.addLocal_denyOk _ _ unlisted ok, addLocal_full, addLocal_denied ok unlisted peer,
    fun room few => ?_, fun full old mem mine least => ?_⟩
  · obtain ⟨count, length, found⟩ := addLocal_joins (now := s.time.now) unlisted peer few room
    exact ⟨count, length, fun c differs => (found c).trans (if_neg (Ne.symm differs))⟩
  · obtain ⟨count, length, found⟩ := addLocal_gives_up (now := s.time.now) ok unlisted peer (by omega)
      (oldestLocal_eq_some mem mine least)
    refine ⟨count, length, ?_, fun c differs apart => ?_⟩
    · rw [found, if_neg fun same => Screening.denied_none unlisted old mem same.symm, if_pos rfl]
    · rw [found, if_neg (Ne.symm differs), if_neg apart]

end Sys2Proof.Machine
end

section
/-! A turn of the aisle link: the queued frame that goes next, the frame a holder sends, and how a turn goes on (R97,
R103 to R106, R112). -/

namespace Sys2Proof.Machine

variable {l : Link} {own : Bool} {clock a : Nat} {cards : List CardNo} {queue ys before after : List QItem}
  {q x : QItem}

/-! ## One step (log 1, 19) -/

/-- Settles O1: an empty queue lets a first bit go out, and with nothing to choose that bit is all that changes. -/
theorem stepRunsTheFrontCommand : Obligations.StepRunsTheFrontCommand := by
  refine ⟨fun s c rest queued => ?_, fun s empty => ⟨s.idle, ?_, ?_, rfl, fun still => ?_⟩⟩
  · rw [step, queued]
    rfl
  · rw [step, empty]
  · rw [State.driveEnable, State.idle_link, Link.beginTx_driving]
    rfl
  · rw [State.idle_link, Link.beginTx_not_due _ _ still]

/-! ## The queued frame that goes next (R104, R112) -/

/-- One frame of a queue is marked as the one in transmission. -/
structure Sends (queue ys before : List QItem) (q : QItem) (after : List QItem) : Prop where
  found : queue = before ++ q :: after
  sent : ys = before ++ q.send :: after

theorem Sends.cons (h : Sends queue ys before q after) (x : QItem) :
    Sends (x :: queue) (x :: ys) (x :: before) q after :=
  ⟨by rw [h.found, List.cons_append], by rw [h.sent, List.cons_append]⟩

theorem chooseFirst_none {p : QItem → Bool} (h : chooseFirst p queue = none) : ∀ x ∈ queue, p x = false := by
  intro x member
  by_contra accepted
  rw [chooseFirst, if_pos (List.any_eq_true.2 ⟨x, member, eq_true_of_ne_false accepted⟩)] at h
  cases h

theorem changeFirst_sends {p : QItem → Bool} (h : queue.any p = true) :
    ∃ before q after, Sends queue (changeFirst p QItem.send queue) before q after ∧ p q = true ∧
      ∀ x ∈ before, p x = false := by
  induction queue with
  | nil => cases h
  | cons x queue ih =>
    cases accepted : p x with
    | true => exact ⟨[], x, queue, ⟨rfl, by rw [changeFirst, if_pos accepted, List.nil_append]⟩, accepted, nofun⟩
    | false =>
      rw [List.any_cons, accepted, Bool.false_or] at h
      obtain ⟨before, q, after, sends, chosen, earlier⟩ := ih h
      rw [changeFirst, accepted, if_neg Bool.false_ne_true]
      exact ⟨x :: before, q, after, sends.cons x, chosen, List.forall_mem_cons.2 ⟨accepted, earlier⟩⟩

theorem chooseFirst_some {p : QItem → Bool} (h : chooseFirst p queue = some ys) :
    ∃ before q after, Sends queue ys before q after ∧ p q = true ∧ ∀ x ∈ before, p x = false := by
  unfold chooseFirst at h
  split at h
  · obtain rfl := Option.some.inj h
    exact changeFirst_sends ‹_›
  · cases h

/-- A LAPSE or REGRANT is eligible behind these frames and the SIGHTINGs of these cards (R112). -/
def QItem.EligibleBehind (q : QItem) (cards : List CardNo) (ahead : List QItem) : Prop :=
  q.Eligible ahead ∧ q.msg.card ∉ cards

/-- The cards of the SIGHTINGs passed once a frame has been passed. -/
def QItem.passing (q : QItem) (cards : List CardNo) : List CardNo :=
  if q.msg.kind = .sighting then q.msg.card :: cards else cards

theorem eligibleBehind_none : q.EligibleBehind [] before ↔ q.Eligible before :=
  and_iff_left List.not_mem_nil

theorem eligibleBehind_cons :
    q.EligibleBehind cards (x :: before) ↔ q.EligibleBehind (x.passing cards) before := by
  unfold QItem.EligibleBehind QItem.Eligible QItem.passing
  rw [List.forall_mem_cons]
  by_cases sighting : x.msg.kind = .sighting
  · rw [if_pos sighting, List.mem_cons]
    have : x.msg.card = q.msg.card ↔ q.msg.card = x.msg.card := eq_comm
    tauto
  · rw [if_neg sighting]
    tauto

theorem eligibleBehind_nil :
    q.EligibleBehind cards [] ↔ (q.msg.kind = .lapse ∨ q.msg.kind = .regrant) ∧ q.msg.card ∉ cards := by
  simp [QItem.EligibleBehind, QItem.Eligible]

theorem chooseEligible_here (h : q.EligibleBehind cards []) :
    chooseEligible cards (q :: queue) = some (q.send :: queue) := by
  obtain ⟨kind, card⟩ := eligibleBehind_nil.1 h
  obtain kind | kind := kind <;> simp [chooseEligible, kind, card]

theorem chooseEligible_later (h : ¬q.EligibleBehind cards []) :
    chooseEligible cards (q :: queue) = (chooseEligible (q.passing cards) queue).map (q :: ·) := by
  rw [eligibleBehind_nil] at h
  cases kind : q.msg.kind <;> simp_all [chooseEligible, QItem.passing]

theorem chooseEligible_some (h : chooseEligible cards queue = some ys) :
    ∃ before q after, Sends queue ys before q after ∧ q.EligibleBehind cards before ∧
      ∀ ahead x later, before = ahead ++ x :: later → ¬x.EligibleBehind cards ahead := by
  induction queue generalizing cards ys with
  | nil => cases h
  | cons x queue ih =>
    by_cases here : x.EligibleBehind cards []
    · obtain rfl := Option.some.inj ((chooseEligible_here here).symm.trans h)
      exact ⟨[], x, queue, ⟨rfl, rfl⟩, here, fun ahead _ _ e => absurd e.symm (by simp)⟩
    · rw [chooseEligible_later here] at h
      obtain ⟨zs, later, rfl⟩ := Option.map_eq_some_iff.1 h
      obtain ⟨before, q, after, sends, chosen, earlier⟩ := ih later
      refine ⟨x :: before, q, after, sends.cons x, eligibleBehind_cons.2 chosen, fun ahead y rest e => ?_⟩
      obtain _ | ⟨z, ahead⟩ := ahead
      · obtain ⟨rfl, -⟩ := List.cons.inj e
        exact here
      · obtain ⟨rfl, tail⟩ := List.cons.inj e
        rw [eligibleBehind_cons]
        exact earlier ahead y rest tail

theorem chooseEligible_none (h : chooseEligible cards queue = none) :
    ∀ ahead x later, queue = ahead ++ x :: later → ¬x.EligibleBehind cards ahead := by
  induction queue generalizing cards with
  | nil => exact fun ahead _ _ e => absurd e.symm (by simp)
  | cons x queue ih =>
    by_cases here : x.EligibleBehind cards []
    · exact absurd ((chooseEligible_here here).symm.trans h) nofun
    · rw [chooseEligible_later here] at h
      intro ahead y rest e
      obtain _ | ⟨z, ahead⟩ := ahead
      · obtain ⟨rfl, -⟩ := List.cons.inj e
        exact here
      · obtain ⟨rfl, tail⟩ := List.cons.inj e
        rw [eligibleBehind_cons]
        exact ih (Option.map_eq_none_iff.1 h) ahead y rest tail

/-- The frame chosen from a queue: DENY_ADD before an eligible LAPSE or REGRANT before SIGHTING, the oldest of its kind
(R104). -/
structure Chooses (queue before : List QItem) (q : QItem) : Prop where
  deny : q.msg.kind = .denyAdd → ∀ x ∈ before, x.msg.kind ≠ .denyAdd
  denied : q.msg.kind ≠ .denyAdd → ∀ x ∈ queue, x.msg.kind ≠ .denyAdd
  eligible : q.msg.kind = .lapse ∨ q.msg.kind = .regrant →
    q.Eligible before ∧ ∀ ahead x later, before = ahead ++ x :: later → ¬x.Eligible ahead
  sighting : q.msg.kind = .sighting →
    (∀ x ∈ before, x.msg.kind ≠ .sighting) ∧ ∀ ahead x later, queue = ahead ++ x :: later → ¬x.Eligible ahead

theorem chooseData_some (h : chooseData queue = some ys) :
    ∃ before q after, Sends queue ys before q after ∧ Chooses queue before q := by
  unfold chooseData at h
  obtain h | ⟨nodeny, h⟩ := Option.or_eq_some_iff.1 h
  · obtain h | ⟨nodeny, h⟩ := Option.or_eq_some_iff.1 h
    · obtain ⟨before, q, after, sends, chosen, earlier⟩ := chooseFirst_some h
      have kind : q.msg.kind = .denyAdd := beq_iff_eq.1 chosen
      exact ⟨before, q, after, sends, fun _ x member => by simpa using earlier x member, fun other => absurd kind other,
        fun other => by simp [kind] at other, fun other => by simp [kind] at other⟩
    · obtain ⟨before, q, after, sends, chosen, earlier⟩ := chooseEligible_some h
      rw [eligibleBehind_none] at chosen
      have kind := chosen.1
      refine ⟨before, q, after, sends, fun other => by simp [other] at kind,
        fun _ x member => by simpa using chooseFirst_none nodeny x member, fun _ => ⟨chosen, fun ahead x later e => ?_⟩,
        fun other => by simp [other] at kind⟩
      exact fun early => earlier ahead x later e (eligibleBehind_none.2 early)
  · obtain ⟨nodeny, noeligible⟩ := Option.or_eq_none_iff.1 nodeny
    obtain ⟨before, q, after, sends, chosen, earlier⟩ := chooseFirst_some h
    have kind : q.msg.kind = .sighting := beq_iff_eq.1 chosen
    refine ⟨before, q, after, sends, fun other => by simp [kind] at other,
      fun _ x member => by simpa using chooseFirst_none nodeny x member, fun other => by simp [kind] at other,
      fun _ => ⟨fun x member => by simpa using earlier x member, fun ahead x later e early => ?_⟩⟩
    exact chooseEligible_none noeligible ahead x later e (eligibleBehind_none.2 early)

/-- A queue that is not empty has a frame to send: its first is eligible where no DENY_ADD and no SIGHTING is queued. -/
theorem chooseData_ne_none (h : queue ≠ []) : chooseData queue ≠ none := by
  intro none_
  obtain ⟨rest, nosighting⟩ := Option.or_eq_none_iff.1 none_
  obtain ⟨nodeny, noeligible⟩ := Option.or_eq_none_iff.1 rest
  obtain ⟨x, queue, rfl⟩ := List.exists_cons_of_ne_nil h
  have nosighting := chooseFirst_none nosighting x List.mem_cons_self
  have nodeny := chooseFirst_none nodeny x List.mem_cons_self
  have here := chooseEligible_none noeligible [] x queue rfl
  rw [eligibleBehind_nil] at here
  cases kind : x.msg.kind <;> simp_all

/-! ## What a holder sends (R104 to R106) -/

theorem emergencyDue_waits (h : l.EmergencyWaits own) : l.emergencyDue own = some own := by
  obtain ⟨unsent, own_ | pending⟩ := h
  · simp [Link.emergencyDue, unsent, own_]
  · cases own <;> simp [Link.emergencyDue, unsent, pending]

theorem emergencyDue_none (h : ¬l.EmergencyWaits own) : l.emergencyDue own = none := by
  unfold Link.EmergencyWaits at h
  unfold Link.emergencyDue
  cases sent : l.emergencySent <;> simp_all

theorem nextInTurn_emergency (left : l.FramesLeft own) (waits : l.EmergencyWaits own) :
    l.nextInTurn clock own = l.send (.emergency own) := by
  rw [Link.nextInTurn, if_neg (Nat.not_le.2 left.1), emergencyDue_waits waits]

theorem nextInTurn_data (left : l.FramesLeft own) (waits : ¬l.EmergencyWaits own) :
    ∃ queue, chooseData l.cutTx.queue = some queue ∧ l.nextInTurn clock own = { l.send .data with queue := queue } := by
  obtain ⟨few, more⟩ := left
  have some_ : l.cutTx.queue ≠ [] := by simpa [Link.cutTx] using more.resolve_left waits
  obtain ⟨queue, chosen⟩ := Option.ne_none_iff_exists'.1 (chooseData_ne_none some_)
  exact ⟨queue, chosen, by rw [Link.nextInTurn, if_neg (Nat.not_le.2 few), emergencyDue_none waits, chosen]⟩

theorem nextInTurn_endFrames (done : ¬l.FramesLeft own) : l.nextInTurn clock own = l.endFrames clock := by
  unfold Link.nextInTurn
  split
  · rfl
  · rename_i few
    obtain ⟨silent, empty⟩ := not_or.1 fun more => done ⟨Nat.not_le.1 few, more⟩
    have none_ : l.cutTx.queue = [] := by simpa [Link.cutTx] using empty
    rw [emergencyDue_none silent, none_]
    rfl

theorem endFrames_invite (due : l.inviteDue = true) (h : l.invited = some a) : l.endFrames clock = l.invite a := by
  rw [Link.endFrames, if_pos due, h]

theorem endFrames_pass (h : l.inviteDue = false ∨ l.invited = none) : l.endFrames clock = l.pass clock := by
  unfold Link.endFrames
  obtain undue | nobody := h
  · rw [undue, if_neg Bool.false_ne_true]
  · rw [nobody, ite_self]

theorem pass_successor (h : l.successor = some a) : l.pass clock = l.passTo a := by rw [Link.pass, h]

theorem pass_alone (h : l.successor = none) : l.pass clock = l.loneHolder clock := by rw [Link.pass, h]

theorem nextInTurn_alone (h : ¬l.MoreToSend own) : l.nextInTurn clock own = l.loneHolder clock := by
  obtain ⟨done, rest⟩ := not_or.1 h
  obtain ⟨uninvited, nobody⟩ := not_or.1 rest
  have pass : l.inviteDue = false ∨ l.invited = none := by
    by_contra invites
    obtain ⟨due, somebody⟩ := not_or.1 invites
    exact uninvited ⟨eq_true_of_ne_false due, somebody⟩
  rw [nextInTurn_endFrames done, endFrames_pass pass, pass_alone (not_not.1 nobody)]

theorem nextInTurn_more (h : l.MoreToSend own) : (l.nextInTurn clock own).tx.isSome = true := by
  by_cases left : l.FramesLeft own
  · by_cases waits : l.EmergencyWaits own
    · rw [nextInTurn_emergency left waits]
      rfl
    · obtain ⟨queue, -, sends⟩ := nextInTurn_data (clock := clock) left waits
      rw [sends]
      rfl
  · rw [nextInTurn_endFrames left]
    by_cases pass : l.inviteDue = false ∨ l.invited = none
    · have somebody : l.successor ≠ none :=
        (h.resolve_left left).resolve_left fun ⟨due, invited⟩ => pass.elim (by simp [due]) invited
      obtain ⟨a, found⟩ := Option.ne_none_iff_exists'.1 somebody
      rw [endFrames_pass pass, pass_successor found]
      rfl
    · obtain ⟨due, somebody⟩ := not_or.1 pass
      obtain ⟨a, found⟩ := Option.ne_none_iff_exists'.1 somebody
      rw [endFrames_invite (eq_true_of_ne_false due) found]
      rfl

theorem pass_due (l : Link) (clock : Nat) : (l.pass clock).due = false := by
  unfold Link.pass
  split <;> rfl

theorem endFrames_due (l : Link) (clock : Nat) : (l.endFrames clock).due = false := by
  unfold Link.endFrames
  split
  · split
    · rfl
    · exact pass_due l clock
  · exact pass_due l clock

/-- Once the frame has been chosen the part does not wait to choose one. -/
theorem nextInTurn_due (l : Link) (clock : Nat) (own : Bool) : (l.nextInTurn clock own).due = false := by
  unfold Link.nextInTurn
  split
  · exact endFrames_due l clock
  · split
    · rfl
    · rfl
    · exact endFrames_due l clock

theorem cutTx_msgs (l : Link) : l.cutTx.queue.map QItem.msg = l.queue.map QItem.msg := by
  simp [Link.cutTx, Function.comp_def]

theorem pass_msgs (l : Link) (clock : Nat) : (l.pass clock).queue.map QItem.msg = l.queue.map QItem.msg := by
  unfold Link.pass
  split <;> exact cutTx_msgs l

/-- Eligibility is seen in the messages of a queue alone. -/
theorem eligible_congr {ahead ahead' : List QItem} (msg : q.msg = x.msg)
    (msgs : ahead.map QItem.msg = ahead'.map QItem.msg) : q.Eligible ahead ↔ x.Eligible ahead' := by
  have through (ahead : List QItem) (p : LinkMsg → Prop) :
      (∀ y ∈ ahead, p y.msg) ↔ ∀ y ∈ ahead.map QItem.msg, p y := List.forall_mem_map.symm
  unfold QItem.Eligible
  rw [msg, through ahead fun y => ¬(y.kind = .sighting ∧ y.card = x.msg.card), msgs, ← through]

theorem Sends.msgs (h : Sends queue ys before q after) : ys.map QItem.msg = queue.map QItem.msg := by
  rw [h.found, h.sent]
  simp [QItem.send]

theorem chooseData_ys {queue : List QItem} (h : chooseData l.cutTx.queue = some queue) :
    queue.map QItem.msg = l.queue.map QItem.msg := by
  obtain ⟨before, q, after, sends, -⟩ := chooseData_some h
  rw [sends.msgs, cutTx_msgs]

theorem nextInTurn_msgs (l : Link) (clock : Nat) (own : Bool) :
    (l.nextInTurn clock own).queue.map QItem.msg = l.queue.map QItem.msg := by
  by_cases left : l.FramesLeft own
  · by_cases waits : l.EmergencyWaits own
    · rw [nextInTurn_emergency left waits]
      exact cutTx_msgs l
    · obtain ⟨queue, chosen, sends⟩ := nextInTurn_data (clock := clock) left waits
      rw [sends]
      exact chooseData_ys chosen
  · rw [nextInTurn_endFrames left]
    unfold Link.endFrames
    split
    · split
      · exact cutTx_msgs l
      · exact pass_msgs l clock
    · exact pass_msgs l clock

/-- The queued frame sent, in the queue as it stands with that frame in transmission (R104, R112). -/
theorem nextInTurn_chosen (left : l.FramesLeft own) (waits : ¬l.EmergencyWaits own) :
    ∃ before q after, (l.nextInTurn clock own).queue = before ++ q :: after ∧ q.inTx = true ∧
      (∀ x ∈ before ++ after, x.inTx = false) ∧ Chooses (l.nextInTurn clock own).queue before q := by
  obtain ⟨queue, chosen, sends⟩ := nextInTurn_data (clock := clock) left waits
  obtain ⟨before, q, after, found, chooses⟩ := chooseData_some chosen
  have cut : ∀ x ∈ l.cutTx.queue, x.inTx = false := by
    intro x member
    obtain ⟨y, -, rfl⟩ := List.mem_map.1 member
    rfl
  have msgs : queue.map QItem.msg = l.cutTx.queue.map QItem.msg := found.msgs
  have kinds {k : MsgKind} (h : ∀ x ∈ l.cutTx.queue, x.msg.kind ≠ k) : ∀ x ∈ queue, x.msg.kind ≠ k := by
    refine (List.forall_mem_map (f := QItem.msg) (P := fun m => m.kind ≠ k)).1 ?_
    rw [msgs]
    exact List.forall_mem_map.2 h
  rw [sends]
  refine ⟨before, q.send, after, found.sent, rfl, fun x member => cut x ?_, chooses.deny,
    fun other => kinds (chooses.denied other), fun kind => ?_,
    fun kind => ⟨(chooses.sighting kind).1, fun ahead x later e early => ?_⟩⟩
  · rw [found.found]
    exact (List.append_sublist_append_left before).2 (List.sublist_cons_self q after) |>.subset member
  · obtain ⟨eligible, first⟩ := chooses.eligible kind
    exact ⟨(eligible_congr rfl rfl).1 eligible, first⟩
  · rw [show ({ l.send .data with queue := queue } : Link).queue = queue from rfl] at e
    rw [e, List.map_append, List.map_cons] at msgs
    obtain ⟨ahead', rest, split, aheads, tail⟩ := List.map_eq_append_iff.1 msgs.symm
    obtain ⟨y, later', rfl, here, -⟩ := List.map_eq_cons_iff.1 tail
    exact (chooses.sighting kind).2 ahead' y later' split ((eligible_congr here aheads).2 early)

theorem frameChosen_nextInTurn (l : Link) (clock : Nat) (own : Bool) : FrameChosen own l (l.nextInTurn clock own) := by
  have same := l.nextInTurn_same clock own
  refine ⟨⟨same.addr, same.state, same.rows, same.syncs, same.deassertPending, same.turn, same.sent,
    same.emergencySent⟩, nextInTurn_msgs l clock own, nextInTurn_due l clock own, fun left waits asserted => ?_,
    fun left waits clear => ?_, fun left silent => ⟨?_, ?_, ?_⟩, fun done due a found => ?_,
    fun done pass a found => ?_, fun alone => ?_⟩
  · rw [nextInTurn_emergency left waits, asserted]
    exact ⟨rfl, rfl⟩
  · rw [nextInTurn_emergency left waits, clear]
    exact ⟨rfl, rfl⟩
  · obtain ⟨queue, -, sends⟩ := nextInTurn_data (clock := clock) left silent
    rw [sends]
    rfl
  · obtain ⟨queue, -, sends⟩ := nextInTurn_data (clock := clock) left silent
    rw [sends]
    rfl
  · obtain ⟨before, q, after, found, sent, others, chooses⟩ := nextInTurn_chosen (clock := clock) left silent
    exact ⟨before, q, after, found, sent, others, chooses.deny, chooses.denied, chooses.eligible, chooses.sighting⟩
  · rw [nextInTurn_endFrames done, endFrames_invite due found]
    exact ⟨rfl, rfl, rfl⟩
  · rw [nextInTurn_endFrames done, endFrames_pass pass, pass_successor found]
    exact ⟨rfl, rfl⟩
  · rw [nextInTurn_alone alone]
    exact ⟨rfl, rfl, rfl⟩

/-! ## How a turn goes on (R103 to R105) -/

theorem goOn_more (h : l.MoreToSend own) : l.goOn clock own = { l.cutTx with due := true } :=
  Link.goOn_waits clock own (nextInTurn_more h)

theorem goOn_alone (h : ¬l.MoreToSend own) : l.goOn clock own = l.loneHolder clock := by
  rw [Link.goOn_rests clock own (by rw [nextInTurn_alone h]; rfl), nextInTurn_alone h]

theorem turnGoesOn_goOn (l : Link) (clock : Nat) (own : Bool) : TurnGoesOn own clock l (l.goOn clock own) := by
  by_cases more : l.MoreToSend own
  · rw [goOn_more more]
    exact ⟨⟨rfl, rfl, rfl, rfl, rfl⟩, ⟨rfl, rfl, rfl, rfl⟩, rfl, ⟨rfl, rfl⟩, fun _ => ⟨rfl, rfl, rfl, rfl⟩,
      fun alone => absurd more alone⟩
  · rw [goOn_alone more]
    refine ⟨⟨rfl, rfl, rfl, rfl, rfl⟩, ⟨rfl, rfl, rfl, rfl⟩, rfl, ⟨rfl, rfl⟩, fun waits => absurd waits more,
      fun _ => ⟨rfl, rfl, fun shut => ?_⟩⟩
    rw [Link.loneHolder, shut]
    rfl

/-- The link with nothing on its way, its receiver and its silence timeout left out: how a turn goes on asks for no
more. -/
def Link.still (l : Link) : Link := { l.cutTx with rxBegun := false, silence := none }

@[simp] theorem still_cutTx (l : Link) : l.cutTx.still = l.still := by
  simp [Link.still, Link.cutTx, Function.comp_def]

theorem moreToSend_still : l.still.MoreToSend own ↔ l.MoreToSend own := by
  have queue : l.still.queue ≠ [] ↔ l.queue ≠ [] := by simp [Link.still, Link.cutTx]
  exact or_congr (and_congr Iff.rfl (or_congr Iff.rfl queue)) Iff.rfl

theorem turnGoesOn_still {n : Link} : TurnGoesOn own clock l.still n ↔ TurnGoesOn own clock l n := by
  have queue : (l.still.queue.map fun q => { q with inTx := false }) =
      l.queue.map fun q => { q with inTx := false } := by
    simp [Link.still, Link.cutTx, Function.comp_def]
  constructor <;> rintro ⟨kept, counts, frames, silent, waits, alone⟩
  · exact ⟨kept, counts, queue ▸ frames, silent, fun more => waits (moreToSend_still.2 more),
      fun none_ => alone fun more => none_ (moreToSend_still.1 more)⟩
  · exact ⟨kept, counts, queue ▸ frames, silent, fun more => waits (moreToSend_still.1 more),
      fun none_ => alone fun more => none_ (moreToSend_still.2 more)⟩

theorem turnGoesOn_of_still {k : Link} (same : k.still = l.still) : TurnGoesOn own clock l (k.goOn clock own) := by
  rw [← turnGoesOn_still, ← same, turnGoesOn_still]
  exact turnGoesOn_goOn k clock own

end Sys2Proof.Machine
end

section
/-! A frame heard on the aisle link: the row of its source, the ring that the link keeps through it, the turns it begins
and the invitations it answers (R99, R101 to R109, R111). -/

namespace Sys2Proof.Machine

variable {s t u b : State} {l m : Link} {own : Bool} {clock a : Nat} {src : Byte} {reason : Reason}

/-! ## The host line of a command that forms no reply -/

/-- Nothing of the host line has changed but the pending notices, and none of them has gone. -/
structure Noticed (s t : State) : Prop where
  host : t.host = { s.host with replies := t.host.replies, notices := t.host.notices }
  formed : t.formed = s.formed
  told : ∀ k, s.tells k = true → t.tells k = true

theorem Noticed.of_host (h : t.host = s.host) : Noticed s t :=
  ⟨by rw [h], by rw [State.formed, State.formed, h], fun k told => by rwa [State.tells, h]⟩

theorem Noticed.trans (h : Noticed s t) (k : Noticed t u) : Noticed s u :=
  ⟨by rw [k.host, h.host], k.formed.trans h.formed, fun j told => k.told j (h.told j told)⟩

theorem Noticed.after (h : Noticed t u) (host : t.host = s.host) : Noticed s u := (Noticed.of_host host).trans h

theorem Noticed.of_queued {xs : List RecBody} (h : Queued s t [] xs) : Noticed s t :=
  ⟨h.host, by simpa [State.syncAnswers, Link.dropReplies] using h.formed, h.told⟩

theorem Noticed.of_raise (s : State) (k : NoticeKind) : Noticed s (s.raise k) := .of_queued (.of_raise s k)

theorem Noticed.silent (h : Noticed s u) : Silent s u.pump := by
  obtain ⟨host, formed, -⟩ := h
  exact Silent.of_pump (by rw [host]) formed (by rw [host]) (by rw [host]) (by rw [host]) (by rw [host])
    (by rw [host]; exact ⟨rfl, rfl⟩) (by rw [host]) (by rw [host])

/-! ## The ring that the link keeps (R102 to R106) -/

/-- The link but for its state, its token and what it has sent of a turn: address, member table, turn count, pointer,
queue and SYNC_LINEs. -/
def Link.ring (l : Link) : Link :=
  { l.still with
    state := .listening, token := .waiting, sent := 0, emergencySent := false, inviteDue := false, loneWait := none,
    window := none }

@[simp] theorem ring_cutTx (l : Link) : l.cutTx.ring = l.ring := by rw [Link.ring, still_cutTx]; rfl

@[simp] theorem ring_dropToken (l : Link) (clock : Nat) : (l.dropToken clock).ring = l.ring := ring_cutTx l

@[simp] theorem ring_send (l : Link) (tx : LinkTx) : (l.send tx).ring = l.ring := ring_cutTx l

@[simp] theorem ring_passTo (l : Link) (a : Nat) : (l.passTo a).ring = l.ring := ring_cutTx l

@[simp] theorem ring_loneHolder (l : Link) (clock : Nat) : (l.loneHolder clock).ring = l.ring := ring_cutTx l

@[simp] theorem ring_pass (l : Link) (clock : Nat) : (l.pass clock).ring = l.ring := by
  unfold Link.pass
  split
  · exact ring_passTo l _
  · exact ring_loneHolder l clock

theorem ring_setRow (l : Link) (a : Nat) (r : MemberRow) : (l.setRow a r).ring = l.ring.setRow a r := by cases a <;> rfl

theorem ring_rows (same : m.ring = l.ring) : m.rows = l.rows := by
  have rows : m.ring.rows = l.ring.rows := congrArg Link.rows same
  exact rows

theorem ring_turn (same : m.ring = l.ring) : m.turn = l.turn := by
  have turn : m.ring.turn = l.ring.turn := congrArg Link.turn same
  exact turn

theorem ring_msgs (same : m.ring = l.ring) : m.queue.map QItem.msg = l.queue.map QItem.msg := by
  have queue : m.ring.queue = l.ring.queue := congrArg Link.queue same
  rw [← cutTx_msgs m, ← cutTx_msgs l]
  exact congrArg (List.map QItem.msg) queue

/-- A turn begins alike on every link of one ring (R103). -/
theorem turnBegun_beginTurn (same : m.ring = l.ring) (clock : Nat) (own : Bool) :
    TurnBegun own clock l (m.beginTurn clock own) := by
  let k : Link :=
    { m with
      token := .sending, turn := (m.turn + 1) % 8, sent := 0, emergencySent := false,
      inviteDue := (m.turn + 1) % 8 == 0, loneWait := none, window := none, silence := none }
  have begins : m.beginTurn clock own = k.cutTx.goOn clock own := rfl
  have going := turnGoesOn_goOn k.cutTx clock own
  rw [begins]
  refine ⟨?_, turnGoesOn_of_still ?_⟩
  · by_cases more : k.cutTx.MoreToSend own
    · rw [goOn_more more]
      exact ⟨rfl, rfl⟩
    · rw [goOn_alone more]
      exact ⟨rfl, rfl⟩
  · have turn (n : Link) (state : LinkState) :
        ({ n with
          state := state, token := .sending, turn := (n.turn + 1) % 8, sent := 0, emergencySent := false,
          inviteDue := (n.turn + 1) % 8 == 0, loneWait := none, window := none } : Link).still =
        { n.ring with
          state := state, token := .sending, turn := (n.ring.turn + 1) % 8, sent := 0, emergencySent := false,
          inviteDue := (n.ring.turn + 1) % 8 == 0, loneWait := none, window := none } := rfl
    have kept : (k.cutTx.goOn clock own).state = m.state := (k.cutTx.goOn_same clock own).state
    rw [still_cutTx, kept, turn l, ← same]
    rfl

/-! ## A row heard (R102) -/

/-- The part has heard a source, and its link has kept the ring. -/
structure HeardFrom (s t : State) (src : Byte) (reason : Reason) : Prop extends Noticed s t where
  rest : t = { s with link := t.link, journal := t.journal, host := t.host }
  ring : t.link.ring = (s.heardFrom src).link.ring
  told_new : (s.link.row src.toNat).present = false → t.tells .membershipChange = true
  records : s.journal.grownBy t.journal s.time.now
    (if (s.link.row src.toNat).present = true ∨ s.journal.halted = true then []
    else [membershipRecord src.toNat reason])

theorem heard_link (s : State) (a : Nat) (reason : Reason) :
    (s.heard a reason).link =
      s.link.setRow a { s.link.row a with present := true, lastHeard := some s.time.now } := by
  cases present : (s.link.row a).present with
  | true => rw [heard_known present, State.onLink_link]
  | false => rw [heard_new present, State.raise_link, State.append_link, State.onLink_link]

/-- Whoever is heard, the ring is the one that the statements give (R98, R102, R108). -/
theorem heardFrom_heard {k : Link} (same : k.ring = s.link.ring) (src : Byte) (reason : Reason) :
    HeardFrom s (State.heard src.toNat reason { s with link := k }) src reason := by
  have row : k.row src.toNat = s.link.row src.toNat := Link.row_congr (ring_rows same) _
  have ring : (State.heard src.toNat reason { s with link := k }).link.ring = (s.heardFrom src).link.ring := by
    show _ = (Link.setRow _ _ _).ring
    rw [heard_link, ring_setRow, ring_setRow]
    show k.ring.setRow _ { k.row src.toNat with present := _, lastHeard := _ } = _
    rw [same, row]
    rfl
  cases present : (s.link.row src.toNat).present with
  | true =>
    rw [heard_known (by rw [row]; exact present)] at ring ⊢
    exact ⟨.of_host rfl, rfl, ring, fun absent => absurd (present.symm.trans absent) nofun,
      by rw [if_pos (.inl present)]; exact ⟨by simp [numbered], rfl⟩⟩
  | false =>
    rw [heard_new (by rw [row]; exact present)] at ring ⊢
    generalize hw : State.onLink _ ({ s with link := k } : State) = w at ring ⊢
    have queued : Queued w ((w.append (membershipRecord src.toNat reason)).raise .membershipChange) []
        [membershipRecord src.toNat reason] := (Queued.of_append w _).trans (.of_raise _ _)
    have rest := queued.rest
    have record := queued.records.of_event rfl
    subst hw
    refine ⟨(Noticed.of_queued queued).after rfl, rest, ring, fun _ => State.raise_tells _ _, ?_⟩
    have absent : ¬(s.link.row src.toNat).present = true := by rw [present]; exact Bool.false_ne_true
    rw [if_congr (or_iff_right absent) rfl rfl]
    exact record

theorem met_heardFrom (s : State) (src : Byte) : HeardFrom s (s.met src) src .heard := by
  obtain ⟨rest, -, -⟩ := meetFrame_endReception s
  have ring : s.endReception.meetFrame.link.ring = s.link.ring := by
    unfold State.meetFrame
    cases s.endReception.link.token <;> simp only
    case inviting =>
      split
      · exact ring_dropToken s.endReception.link s.clock
      · rfl
    all_goals rfl
  rw [State.met, rest]
  exact heardFrom_heard ring src .heard

theorem met_state (s : State) (src : Byte) : (s.met src).link.state = s.link.state := by
  have kept : s.endReception.meetFrame.link.state = s.link.state := by
    unfold State.meetFrame
    cases s.endReception.link.token <;> simp only
    case inviting => split <;> rfl
    all_goals rfl
  rw [State.met, heard_link, Link.setRow_rest]
  exact kept

/-! ## The token taken (R101, R103) -/

theorem takeToken_listening (h : s.link.state = .listening) :
    s.takeToken =
      (s.onLink fun l => Link.beginTurn s.clock s.emergency.own { l with state := .member }).raise
        .membershipChange := by
  rw [State.takeToken, if_pos h]
  rfl

theorem takeToken_member (h : s.link.state ≠ .listening) :
    s.takeToken = s.onLink (Link.beginTurn s.clock s.emergency.own) := by
  rw [State.takeToken, if_neg h]

@[simp] theorem beginTurn_state (l : Link) (clock : Nat) (own : Bool) : (l.beginTurn clock own).state = l.state :=
  (Link.goOn_same clock own _).state

/-- A part that takes the token is MEMBER, and a turn begins on its ring. -/
structure TokenTaken (s t : State) : Prop extends Noticed s t where
  rest : t = { s with link := t.link, host := t.host }
  member : t.link.state = .member
  begun : ∀ l : Link, s.link.ring = l.ring → TurnBegun s.emergency.own s.clock l t.link
  told_member : s.link.state = .listening → t.tells .membershipChange = true

theorem tokenTaken_takeToken (online : ∀ reason, s.link.state ≠ .offline reason) : TokenTaken s s.takeToken := by
  by_cases listens : s.link.state = .listening
  · rw [takeToken_listening listens]
    refine ⟨(Noticed.of_raise _ _).after rfl, rfl, beginTurn_state _ _ _, fun l same => ?_,
      fun _ => State.raise_tells _ _⟩
    exact turnBegun_beginTurn (m := { s.link with state := .member }) same _ _
  · rw [takeToken_member listens]
    refine ⟨.of_host rfl, rfl, ?_, fun l same => turnBegun_beginTurn same _ _, fun h => absurd h listens⟩
    rw [State.onLink_link, beginTurn_state]
    cases state : s.link.state with
    | offline reason => exact absurd state (online reason)
    | listening => exact absurd state listens
    | member => rfl

theorem awaitsSilence_iff (l : Link) :
    l.awaitsSilence = true ↔ l.state = .listening ∨ (l.state = .member ∧ l.token = .waiting) := by
  unfold Link.awaitsSilence
  cases l.state <;> simp

/-- The silence timeout: a part that listens for silence takes the token, with its notice where it was LISTENING
(R108). -/
theorem silenceTimeout_takes (h : s.link.state = .listening ∨ (s.link.state = .member ∧ s.link.token = .waiting)) :
    ∃ t, exec .silenceTimeout s = .next t ∧ t = { s with link := t.link, host := t.host } ∧
      t.link.state = .member ∧ TurnBegun s.emergency.own s.clock s.link t.link ∧
      Told s t (if s.link.state = .listening then [.membershipChange] else []) := by
  have run : exec .silenceTimeout s = .next s.takeToken.pump := by
    show done s.silenceEnds = _
    rw [State.silenceEnds, if_pos ((awaitsSilence_iff _).2 h)]
    rfl
  have online : ∀ reason, s.link.state ≠ .offline reason := by
    rintro reason offline
    simp [offline] at h
  have taken := tokenTaken_takeToken online
  refine ⟨_, run, ?_, ?_, ?_, ?_⟩
  · rw [State.pump_link]
    refine (State.pump_rest _).trans ?_
    generalize s.takeToken.pump.host = host
    rw [taken.rest]
  · rw [State.pump_link, taken.member]
  · rw [State.pump_link]
    exact taken.begun _ rfl
  · split
    · rw [takeToken_listening ‹_›]
      exact told_raise_pump (s := s) (by rfl) _
    · rw [takeToken_member ‹_›]
      exact Told.of_host rfl

theorem silenceTimeout_passes
    (h : ¬(s.link.state = .listening ∨ (s.link.state = .member ∧ s.link.token = .waiting))) :
    exec .silenceTimeout s = .next s.pump := by
  show done s.silenceEnds = _
  rw [State.silenceEnds, if_neg fun listens => h ((awaitsSilence_iff _).1 listens)]
  rfl

/-- A TOKEN taken begins a turn, whatever the token state (R101, R103, R111). -/
theorem linkToken_takes (online : ∀ reason, s.link.state ≠ .offline reason) (low : 1 ≤ src.toNat)
    (high : src.toNat ≤ 16) (other : src.toNat ≠ s.link.addr) :
    ∃ t, exec (.linkToken src) s = .next t ∧ Silent s t ∧
      t = { s with link := t.link, journal := t.journal, host := t.host } ∧ t.link.state = .member ∧
      TurnBegun s.emergency.own s.clock (s.heardFrom src).link t.link ∧
      (s.link.state = .listening ∨ (s.link.row src.toNat).present = false → t.tells .membershipChange = true) ∧
      s.journal.grownBy t.journal s.time.now
        (if (s.link.row src.toNat).present = true ∨ s.journal.halted = true then []
        else [{ kind := .membership, peer := some src.toNat, reason := some .heard }]) := by
  have run : exec (.linkToken src) s = .next (s.met src).takeToken.pump :=
    congrArg done (takeOther_met online low high other _)
  have heard := met_heardFrom s src
  have state := met_state s src
  generalize s.met src = u at *
  have taken := tokenTaken_takeToken (s := u) (state ▸ online)
  have clock : u.clock = s.clock := by rw [heard.rest]
  have emergency : u.emergency = s.emergency := by rw [heard.rest]
  have begun := taken.begun _ heard.ring
  rw [clock, emergency] at begun
  have journal : u.takeToken.journal = u.journal := by rw [taken.rest]
  refine ⟨_, run, (heard.toNoticed.trans taken.toNoticed).silent, ?_, ?_, ?_, fun news => ?_, ?_⟩
  · rw [State.pump_link, State.pump_journal]
    refine (State.pump_rest _).trans ?_
    generalize u.takeToken.pump.host = host
    have frame (l : Link) (h : HostLink) : ({ u with link := l, host := h } : State) =
        { s with link := l, journal := u.journal, host := h } := by rw [heard.rest]
    rw [journal, ← frame]
    conv_lhs => rw [taken.rest]
  · rw [State.pump_link, taken.member]
  · rw [State.pump_link]
    exact begun
  · refine State.pump_tells _ _ ?_
    obtain listens | absent := news
    · exact taken.told_member (state.trans listens)
    · exact taken.told _ (heard.told_new absent)
  · rw [State.pump_journal, journal]
    exact heard.records

theorem loneHolderWaitEnd_begins (h : s.link.loneWait.isSome = true) :
    exec .loneHolderWaitEnd s = .next (s.onLink (Link.beginTurn s.clock s.emergency.own)).pump := by
  show done s.loneWaitEnds = _
  rw [State.loneWaitEnds, if_pos h]
  rfl

theorem loneHolderWaitEnd_passes (h : s.link.loneWait = none) : exec .loneHolderWaitEnd s = .next s.pump := by
  show done s.loneWaitEnds = _
  rw [State.loneWaitEnds, h]
  rfl

theorem onLink_told (s : State) (f : Link → Link) :
    Told s (s.onLink f).pump [] ∧
      (s.onLink f).pump = { s with link := (s.onLink f).pump.link, host := (s.onLink f).pump.host } :=
  ⟨.of_host rfl, by rw [State.pump_link]; exact State.pump_rest _⟩

/-- A frame is chosen where one is awaited alone (R104). -/
theorem choose_undue (h : s.link.due = false) : s.choose = s := by simp [State.choose, State.onLink, Link.choose, h]

/-- Settles O44: the three ways begin a turn on the ring as it stands, and what is sent is the next frame of the
turn. -/
theorem turnsBegin : Obligations.TurnsBegin := by
  refine fun s => ⟨fun src online low high other _ => linkToken_takes online low high other, silenceTimeout_takes,
    fun still => ⟨_, silenceTimeout_passes still, done_unchanged s⟩, fun waits => ?_,
    fun still => ⟨_, loneHolderWaitEnd_passes still, done_unchanged s⟩, fun due =>
    ⟨_, frameChosen_nextInTurn s.link s.clock s.emergency.own, fun empty => ?_, ?_⟩⟩
  · obtain ⟨told, rest⟩ := onLink_told s (Link.beginTurn s.clock s.emergency.own)
    refine ⟨_, loneHolderWaitEnd_begins waits, told, rest, ?_, ?_⟩ <;> rw [State.pump_link, State.onLink_link]
    · exact beginTurn_state _ _ _
    · exact turnBegun_beginTurn rfl _ _
  · have idle : step s = .next s.idle := by rw [step, empty]
    rw [idle]
    simp only [State.idle, Link.beginTx, Link.choose, due, if_true]
  · have chosen : s.choose = { s with link := s.link.nextInTurn s.clock s.emergency.own } := by
      simp only [State.choose, State.onLink, Link.choose, due, if_true]
    show done s.choose.txEnds = done (State.choose _).txEnds
    rw [choose_undue (s := { s with link := s.link.nextInTurn s.clock s.emergency.own }) (nextInTurn_due _ _ _), chosen]

end Sys2Proof.Machine
end

section
/-! JOIN_INVITE and JOIN_REPLY (R102, R106, R107, R109, R111). -/

namespace Sys2Proof.Machine

variable {s t : State} {l : Link} {a : Nat} {src : Byte} {reason : Reason}

/-! ## What a command that heard a frame leaves (R102) -/

/-- A command whose frame was heard formed no reply and kept the ring. -/
structure Hears (s t : State) (src : Byte) (reason : Reason) : Prop where
  silent : Silent s t
  rest : t = { s with link := t.link, journal := t.journal, host := t.host }
  ring : t.link.ring = (s.heardFrom src).link.ring
  told_new : (s.link.row src.toNat).present = false → t.tells .membershipChange = true
  records : s.journal.grownBy t.journal s.time.now
    (if (s.link.row src.toNat).present = true ∨ s.journal.halted = true then []
    else [membershipRecord src.toNat reason])

theorem HeardFrom.onLink {f : Link → Link} (h : HeardFrom s t src reason) (kept : (f t.link).ring = t.link.ring) :
    HeardFrom s (t.onLink f) src reason := by
  obtain ⟨noticed, rest, ring, told, records⟩ := h
  refine ⟨noticed.trans (.of_host rfl), ?_, kept.trans ring, told, records⟩
  have frame (m : Link) :
      ({ t with link := m } : State) = { s with link := m, journal := t.journal, host := t.host } := by
    rw [rest]
  exact frame _

theorem HeardFrom.hears (h : HeardFrom s t src reason) : Hears s t.pump src reason := by
  obtain ⟨noticed, rest, ring, told, records⟩ := h
  refine ⟨noticed.silent, ?_, ?_, fun absent => State.pump_tells _ _ (told absent), ?_⟩
  · rw [State.pump_link, State.pump_journal]
    refine (State.pump_rest t).trans ?_
    generalize t.pump.host = host
    rw [rest]
  · rw [State.pump_link]
    exact ring
  · rw [State.pump_journal]
    exact records

theorem Hears.rows (h : Hears s t src reason) : t.link.rows = (s.heardFrom src).link.rows := ring_rows h.ring

theorem heardFrom_link (s : State) (src : Byte) :
    (s.heardFrom src).link =
      { s.link with
        rows := (s.heardFrom src).link.rows, rxBegun := false, silence := some (s.clock + silenceMs s.link.addr) } :=
  Link.setRow_rest _ _ _

theorem Hears.turn (h : Hears s t src reason) : t.link.turn = s.link.turn := by
  rw [ring_turn h.ring, heardFrom_link]

theorem Hears.msgs (h : Hears s t src reason) : t.link.queue.map QItem.msg = s.link.queue.map QItem.msg := by
  rw [ring_msgs h.ring, heardFrom_link]

/-! ## JOIN_INVITE (R107) -/

/-- Any token is dropped before the JOIN_REPLY is chosen. -/
def Link.answering (clock a : Nat) (l : Link) : Link :=
  (if l.token = .waiting then l else l.dropToken clock).send (.joinReply a)

theorem answerInvite_eq (s : State) (a : Nat) : s.answerInvite a = s.onLink (Link.answering s.clock a) := by
  unfold State.answerInvite
  split
  · rw [State.onLink, State.onLink, Link.answering, if_pos ‹_›]
  · rw [State.onLink, State.onLink, Link.answering, if_neg ‹_›]
    rfl

@[simp] theorem ring_answering (l : Link) (clock a : Nat) : (l.answering clock a).ring = l.ring := by
  rw [Link.answering, ring_send]
  split
  · rfl
  · exact ring_dropToken l clock

theorem answering_token (l : Link) (clock a : Nat) : (l.answering clock a).token = .waiting := by
  unfold Link.answering
  split
  · assumption
  · rfl

theorem answering_state (l : Link) (clock a : Nat) : (l.answering clock a).state = l.state := by
  unfold Link.answering
  split <;> rfl

theorem linkJoinInvite_answers (online : ∀ reason, s.link.state ≠ .offline reason) (low : 1 ≤ src.toNat)
    (high : src.toNat ≤ 16) (other : src.toNat ≠ s.link.addr) :
    ∃ t, exec (.linkJoinInvite src) s = .next t ∧ Hears s t src .heard ∧ t.link.state = s.link.state ∧
      t.link.token = .waiting ∧ t.link.tx = some (.joinReply src.toNat) := by
  have run : exec (.linkJoinInvite src) s = .next ((s.met src).answerInvite src.toNat).pump :=
    congrArg done (takeOther_met online low high other _)
  have heard := (met_heardFrom s src).onLink (ring_answering _ (s.met src).clock src.toNat)
  rw [answerInvite_eq] at run
  refine ⟨_, run, heard.hears, ?_, ?_, ?_⟩ <;> rw [State.pump_link, State.onLink_link]
  · rw [answering_state, met_state]
  · exact answering_token _ _ _
  · rfl

/-! ## JOIN_REPLY (R106, R109, R111) -/

theorem linkJoinReply_done (online : ∀ reason, s.link.state ≠ .offline reason) (low : 1 ≤ src.toNat)
    (high : src.toNat ≤ 16) (other : src.toNat ≠ s.link.addr) :
    exec (.linkJoinReply src) s = .next (s.endReception.joinReply src.toNat).pump := by
  show done (s.takeFrame src State.joinReply) = _
  rw [State.takeFrame, isOffline_eq_false online, sourceOk_iff.2 ⟨low, high⟩]
  simp only [Bool.false_eq_true, if_false, Bool.not_true, if_neg other]
  rfl

theorem joinReply_expected {closed : Bool} (token : s.link.token = .inviting a closed)
    (open_ : s.link.window.isSome = true) : s.joinReply a = (s.heard a .joined).onLink (Link.passTo a) := by
  rw [State.joinReply, token]
  simp only [open_, if_true]

theorem joinReply_other {b : Nat} {closed : Bool} (token : s.link.token = .inviting b closed) (differs : a ≠ b)
    (open_ : s.link.window.isSome = true) : s.joinReply a = s.dropToken.heard a .heard := by
  rw [State.joinReply, token]
  simp only [open_, if_true, if_neg differs]

theorem joinReply_heard (h : s.link.window = none ∨ ∀ b closed, s.link.token ≠ .inviting b closed) :
    s.joinReply a = s.heard a .heard := by
  unfold State.joinReply
  cases token : s.link.token with
  | inviting b closed =>
    have shut : s.link.window = none := h.resolve_right fun other => other b closed token
    simp [shut]
  | waiting => rfl
  | sending => rfl
  | passing b tries => rfl

theorem heardFrom_endReception (s : State) (src : Byte) (reason : Reason) :
    HeardFrom s (s.endReception.heard src.toNat reason) src reason :=
  heardFrom_heard (s := s) (k := s.endReception.link) rfl src reason

/-- Without the token nothing is met: a known source is only heard. -/
theorem endReception_heard_waiting (h : s.meets src) (known : (s.link.row src.toNat).present = true) :
    s.endReception.heard src.toNat .heard = s.heardFrom src := by
  have token : s.endReception.link.token = .waiting := h.2.2.2.2.1
  have meets : s.endReception.meetFrame = s.endReception := by rw [State.meetFrame, token]
  rw [← met_eq_heardFrom h known, State.met, meets]

/-- Settles O45: the frame is heard on the ring, then answered, passed the token or met with a dropped token by the
token and the window that it finds. -/
theorem invitationsAreAnsweredAndJoin : Obligations.InvitationsAreAnsweredAndJoin := by
  intro s src online low high other full
  have run := linkJoinReply_done online low high other
  refine ⟨?_, fun closed token open_ => ?_, fun a closed token differs open_ => ?_, fun waits known => ?_,
    fun holds shut => ?_⟩
  · obtain ⟨t, invite, heard, state, token, tx⟩ := linkJoinInvite_answers online low high other
    exact ⟨t, invite, heard.rest, heard.silent, state, token, tx, heard.turn, heard.msgs, heard.rows, heard.told_new,
      heard.records⟩
  · rw [joinReply_expected (s := s.endReception) token open_] at run
    have heard := ((heardFrom_endReception s src .joined).onLink (ring_passTo _ src.toNat)).hears
    refine ⟨_, run, heard.silent, heard.rest, ?_, ?_, heard.turn, heard.rows, heard.told_new, heard.records⟩ <;>
      rw [State.pump_link, State.onLink_link] <;> rfl
  · rw [joinReply_other (s := s.endReception) token differs open_] at run
    have ring : s.endReception.dropToken.link.ring = s.link.ring := ring_dropToken s.endReception.link s.clock
    have heard := (heardFrom_heard ring src .heard).hears
    refine ⟨_, run, heard.silent, heard.rest, ?_, ?_, heard.turn, heard.rows, heard.msgs⟩ <;>
      rw [State.pump_link, heard_link, Link.setRow_rest] <;> rfl
  · rw [joinReply_heard (s := s.endReception) (.inr fun b closed inviting => nomatch waits.symm.trans inviting),
      endReception_heard_waiting ⟨online, low, high, other, waits, full⟩ known] at run
    exact ⟨_, run, Told.of_host rfl, State.pump_rest _⟩
  · rw [joinReply_heard (s := s.endReception) shut] at run
    have heard := (heardFrom_endReception s src .heard).hears
    refine ⟨_, run, heard.silent, heard.rest, ?_⟩
    rw [← heard.rows, State.pump_link, heard_link, Link.setRow_rest]
    rfl

end Sys2Proof.Machine
end

section
/-! SYNC_LINE: the frames it marks, and the judging of those outstanding (R114). -/

namespace Sys2Proof.Machine

variable {s t : State} {l : Link} {tag : Byte}

/-! ## The outstanding SYNC_LINEs that are over -/

theorem withoutOver_msgs (l : Link) : l.withoutOver.queue.map QItem.msg = l.queue.map QItem.msg := by
  simp [Link.withoutOver, Function.comp_def]

theorem syncOver_offline {reason : OfflineReason} (h : l.state = .offline reason) (y : Sync) : l.syncOver y = true := by
  rw [Link.syncOver, h]
  rfl

theorem withoutOver_offline {reason : OfflineReason} (h : l.state = .offline reason) : l.withoutOver.syncs = [] :=
  List.filter_eq_nil_iff.2 fun y _ => by simp [syncOver_offline h y]

theorem syncReplies_offline {reason : OfflineReason} (h : l.state = .offline reason) :
    l.syncReplies = l.syncs.map fun y => Reply.inWindow y.tag .syncLine .offline := by
  have all : l.syncs.filter l.syncOver = l.syncs := List.filter_eq_self.2 fun y _ => syncOver_offline h y
  rw [Link.syncReplies, all, h]
  rfl

theorem syncOver_online (h : ∀ reason, l.state ≠ .offline reason) (y : Sync) :
    l.syncOver y = !l.queue.any fun q => q.marks.contains y.tag := by
  rw [Link.syncOver, isOffline_eq_false h, Bool.false_or]

theorem withoutOver_online (h : ∀ reason, l.state ≠ .offline reason) :
    l.withoutOver.syncs = l.syncs.filter fun y => l.queue.any fun q => q.marks.contains y.tag :=
  List.filter_congr fun y _ => by rw [syncOver_online h, Bool.not_not]

theorem syncReplies_online (h : ∀ reason, l.state ≠ .offline reason) :
    l.syncReplies = (l.syncs.filter fun y => !l.queue.any fun q => q.marks.contains y.tag).map fun y =>
      Reply.inWindow y.tag .syncLine (.synced y.dropped) := by
  rw [Link.syncReplies, isOffline_eq_false h, funext (syncOver_online h)]
  rfl

theorem judgeSyncs_tells (s : State) (k : NoticeKind) : s.judgeSyncs.tells k = s.tells k := by
  obtain ⟨-, host, -⟩ := judgeSyncs_spec s
  rw [State.tells, host]
  rfl

@[simp] theorem judgeSyncs_link (s : State) : s.judgeSyncs.link = s.link.withoutOver := by
  rw [(judgeSyncs_spec s).1]

@[simp] theorem judgeSyncs_window (s : State) : s.judgeSyncs.host.window = s.host.window := by
  rw [(judgeSyncs_spec s).2.1]

theorem judgeSyncs_formed (untaken : s.host.resetTaken = false) :
    s.judgeSyncs.formed = s.formed ++ s.link.syncReplies := by
  rw [(judgeSyncs_spec s).2.2, untaken]
  rfl

/-! ## SYNC_LINE -/

theorem syncLine_offline {reason : OfflineReason} (h : s.link.state = .offline reason) (tag : Byte) :
    s.syncLine tag = s.reply tag .syncLine .offline := by
  rw [State.syncLine, h]
  rfl

theorem syncLine_empty (h : ∀ reason, s.link.state ≠ .offline reason) (empty : s.link.queue = []) (tag : Byte) :
    s.syncLine tag = s.reply tag .syncLine (.synced 0) := by
  rw [State.syncLine, isOffline_eq_false h, empty]
  rfl

theorem syncLine_waits (h : ∀ reason, s.link.state ≠ .offline reason) (some_ : s.link.queue ≠ []) (tag : Byte) :
    s.syncLine tag = s.onLink (Link.markAll tag) := by
  rw [State.syncLine, isOffline_eq_false h, if_neg Bool.false_ne_true, if_neg (by simpa using some_)]

/-- A request taken into the window, with no reply yet and nothing but the link changed. -/
theorem withheld_onLink (s : State) (tag : Byte) (f : Link → Link) :
    Withheld s ((s.endHostFrame.enter tag).onLink f).pump tag [] where
  window := State.pump_host_window _
  formed := State.pump_formed _
  sending := fun busy => State.pump_sending (u := (s.endHostFrame.enter tag).onLink f) busy
  speed := by simp [State.enter, State.endHostFrame]
  hunting := by simp [State.enter, State.endHostFrame]
  resetTaken := by simp [State.enter, State.endHostFrame]
  results := by simp [State.enter, State.endHostFrame]
  finding := by simp [State.enter, State.endHostFrame]
  findings := fun busy => by
    obtain ⟨-, findings⟩ := State.pump_replying (u := (s.endHostFrame.enter tag).onLink f) (.inr busy)
    exact findings
  told := fun k => by rw [State.pump_tells_eq, List.contains_nil, Bool.or_false]; rfl

/-- Settles O23: the request is answered at once or marks the queue, and a judging parts the SYNC_LINEs into those that
are over and those whose marked frames remain. -/
theorem syncLineWaitsForItsMarkedFrames : Obligations.SyncLineWaitsForItsMarkedFrames := by
  refine fun s => ⟨fun tag admitted => ⟨fun reason offline => ?_, fun online empty => ?_, fun online some_ => ?_⟩,
    fun _ untaken => ⟨s.judgeSyncs.pump, rfl, ?_, ?_, fun k => ?_, ?_, ?_, fun reason offline => ?_, fun online => ?_⟩⟩
  · exact request_replies admitted rfl (syncLine_offline (s := s.endHostFrame.enter tag) offline tag)
  · exact request_replies admitted rfl (syncLine_empty (s := s.endHostFrame.enter tag) online empty tag)
  · have run : exec (.syncLine tag []) s = .next ((s.endHostFrame.enter tag).syncLine tag).pump :=
      request_value () (fun _ => State.syncLine tag) admitted
    rw [syncLine_waits (s := s.endHostFrame.enter tag) online some_] at run
    refine ⟨_, run, withheld_onLink s tag _, ?_, ?_⟩
    · rw [State.pump_link]
      exact State.pump_rest _
    · rw [State.pump_link]
      rfl
  · rw [State.pump_link, judgeSyncs_link]
    refine (State.pump_rest _).trans ?_
    generalize s.judgeSyncs.pump.host = host
    rw [(judgeSyncs_spec s).1]
  · rw [State.pump_host_window, judgeSyncs_window]
  · rw [State.pump_tells_eq, judgeSyncs_tells]
  · rw [State.pump_link, judgeSyncs_link]
    rfl
  · rw [State.pump_link, judgeSyncs_link, withoutOver_msgs]
  · rw [State.pump_link, judgeSyncs_link, State.pump_formed, judgeSyncs_formed untaken, syncReplies_offline offline]
    exact ⟨withoutOver_offline offline, rfl⟩
  · rw [State.pump_link, judgeSyncs_link, State.pump_formed, judgeSyncs_formed untaken, syncReplies_online online]
    exact ⟨withoutOver_online online, rfl⟩

end Sys2Proof.Machine
end

section
/-! Members lost: the rows they leave, and the line emergency that may end with them (R105, R139, R144, R145, R147). -/

namespace Sys2Proof.Machine

variable {s t u : State} {l m : Link} {a b c clock hold : Nat} {r : MemberRow} {xs : List Nat}

/-! ## The rows that contribute (R145) -/

theorem row_setRow_ne (h : b ≠ a) (l : Link) (r : MemberRow) : (l.setRow a r).row b = l.row b := by
  cases a with
  | zero => rfl
  | succ i =>
    cases b with
    | zero => rfl
    | succ j =>
      have apart : i ≠ j := fun same => h (congrArg Nat.succ same.symm)
      simp [Link.setRow, Link.row, List.getD_eq_getElem?_getD, List.getElem?_set_ne apart]

theorem row_map {f : MemberRow → MemberRow} (blank : f .blank = .blank) (rows : m.rows = l.rows.map f) (a : Nat) :
    m.row a = f (l.row a) := by
  cases a with
  | zero => exact blank.symm
  | succ k =>
    show m.rows.getD k .blank = f (l.rows.getD k .blank)
    rw [rows]
    conv_lhs => rw [← blank]
    exact List.getD_map _ _ _

theorem mem_rows_row (h : r ∈ l.rows) : ∃ a, 1 ≤ a ∧ a ≤ l.rows.length ∧ l.row a = r := by
  obtain ⟨k, inside, here⟩ := List.getElem_of_mem h
  refine ⟨k + 1, by omega, by omega, ?_⟩
  rw [Link.row, List.getD_eq_getElem _ _ inside, here]

theorem row_mem (low : 1 ≤ a) (high : a ≤ l.rows.length) : l.row a ∈ l.rows := by
  cases a with
  | zero => exact absurd low (by omega)
  | succ k =>
    rw [Link.row, List.getD_eq_getElem _ _ high]
    exact List.getElem_mem _

theorem contributes_iff : r.contributes = true ↔ r.contribution ≠ .none := by
  unfold MemberRow.contributes
  cases r.contribution <;> simp

theorem any_contributes_iff : l.rows.any MemberRow.contributes = true ↔ ∃ a, (l.row a).contributes = true := by
  rw [List.any_eq_true]
  constructor
  · rintro ⟨r, member, counts⟩
    obtain ⟨a, -, -, rfl⟩ := mem_rows_row member
    exact ⟨a, counts⟩
  · rintro ⟨a, counts⟩
    refine ⟨_, row_mem ?_ ?_, counts⟩
    · by_contra low
      obtain rfl : a = 0 := by omega
      cases counts
    · by_contra high
      cases a with
      | zero => omega
      | succ k =>
        have blank : l.row (k + 1) = .blank := by
          rw [Link.row, List.getD_eq_default _ _ (by omega)]
        rw [blank] at counts
        cases counts

/-! ## The judging after contributions have fallen (R139, R145, R147) -/

theorem AisleReleased.of_passage (h : AisleReleased s t) (same : u.passage = t.passage) : AisleReleased s u :=
  ⟨by rw [same]; exact h.aisle, by rw [same]; exact h.travel⟩

/-- Contributions have ended and none has begun; an emergency that ended with them did so by the loss of `a`. -/
structure Lost (s t : State) (a : Nat) : Prop extends Noticed s t where
  rest : t =
    { s with
      link := t.link, emergency := { s.emergency with line := t.lineJudged }, passage := t.passage,
      journal := t.journal, host := t.host }
  fell : t.emergency.line = true → s.emergency.line = true
  same : t.emergency.line = s.emergency.line → t.passage = s.passage ∧ t.journal = s.journal
  ended : t.emergency.line ≠ s.emergency.line →
    AisleReleased s t ∧ t.tells .emergencyChange = true ∧
      Journals s t [{ kind := .emergencyEnd, peer := some a, reason := some .peerLost }]

theorem Lost.emergency (h : Lost s t a) : t.emergency = { s.emergency with line := t.lineJudged } :=
  congrArg State.emergency h.rest

theorem Lost.lineOk (h : Lost s t a) : t.lineOk := by
  rw [State.lineOk, h.emergency]

/-- Where contributions only fall the line emergency stays or ends. -/
theorem lost_judgeEmergency (line : s.lineOk)
    (falls : m.rows.any MemberRow.contributes = true → s.link.rows.any MemberRow.contributes = true) (a : Nat) :
    Lost s (State.judgeEmergency (.peerLost a) { s with link := m }) a ∧
      (State.judgeEmergency (.peerLost a) { s with link := m }).link = m := by
  have judged : State.lineJudged { s with link := m } = true → s.emergency.line = true := by
    intro active
    rw [line]
    exact Bool.or_eq_true_iff.2 ((Bool.or_eq_true_iff.1 active).imp_right falls)
  obtain ⟨stays, same⟩ | ⟨quiet, active, -⟩ | ⟨active, quiet, ends⟩ :=
    judgeEmergency_cases { s with link := m } (.peerLost a)
  · rw [same]
    refine ⟨⟨.of_host rfl, ?_, fun h => h, fun _ => ⟨rfl, rfl⟩, fun h => absurd rfl h⟩, rfl⟩
    rw [← stays]
  · exact absurd ((judged active).symm.trans quiet) nofun
  · have link : (State.judgeEmergency (.peerLost a) { s with link := m }).link = m := by rw [ends.rest]; rfl
    generalize State.judgeEmergency (.peerLost a) { s with link := m } = u at *
    have emergency : u.emergency = { s.emergency with line := false } := by rw [ends.rest]; rfl
    have down : u.lineJudged = false := by
      rw [State.lineJudged, emergency, link]
      exact quiet
    have now : u.emergency.line = false := by rw [emergency]
    refine ⟨⟨⟨ends.host, ends.formed, fun k told => ends.told k (.inl told)⟩, ?_, fun h => ?_, fun h => ?_,
      fun _ => ?_⟩, link⟩
    · rw [down]
      conv_lhs => rw [ends.rest]
      rw [link]
      rfl
    · exact absurd (now.symm.trans h) nofun
    · exact absurd (active.symm.trans (h.symm.trans now)) nofun
    · exact ⟨ends.released.congr rfl rfl rfl, ends.told _ (.inr rfl), ends.records.grown, ends.records.halted⟩

theorem Lost.refl (line : s.lineOk) (a : Nat) : Lost s s a :=
  ⟨.of_host rfl, by rw [← show s.emergency.line = s.lineJudged from line], fun h => h, fun _ => ⟨rfl, rfl⟩,
    fun h => absurd rfl h⟩

/-- The emergency ended by the later loss, unless it had ended by the earlier one. -/
theorem Lost.trans (h : Lost s t a) (k : Lost t u b) :
    Lost s u (if t.emergency.line = s.emergency.line then b else a) := by
  have clock : t.clock = s.clock := by rw [h.rest]
  have pins : t.pins = s.pins := by rw [h.rest]
  have time : t.time = s.time := by rw [h.rest]
  have service : t.service = s.service := by rw [h.rest]
  have frame (x : Link) (e : Emergency) (p : Passage) (j : Journal) (n : HostLink) :
      ({ t with link := x, emergency := e, passage := p, journal := j, host := n } : State) =
        { s with link := x, emergency := e, passage := p, journal := j, host := n } := by rw [h.rest]
  have judged : u.emergency = { s.emergency with line := u.lineJudged } := by rw [k.emergency, h.emergency]
  have rest : u =
      { s with
        link := u.link, emergency := { s.emergency with line := u.lineJudged }, passage := u.passage,
        journal := u.journal, host := u.host } := by
    rw [← judged, ← frame]
    conv_lhs => rw [k.rest, ← k.emergency]
  by_cases first : t.emergency.line = s.emergency.line
  · obtain ⟨passage, journal⟩ := h.same first
    rw [if_pos first]
    refine ⟨h.toNoticed.trans k.toNoticed, rest, fun up => h.fell (k.fell up), fun same => ?_, fun moved => ?_⟩
    · rw [← passage, ← journal]
      exact k.same (same.trans first.symm)
    · obtain ⟨released, told, grown, halted⟩ := k.ended fun same => moved (same.trans first)
      refine ⟨released.congr passage.symm clock.symm pins.symm, told, ?_⟩
      rw [State.taken, journal, service, time] at grown
      rw [State.taken, journal, service] at halted
      exact ⟨grown, halted⟩
  · have active : s.emergency.line = true := by
      cases up : t.emergency.line with
      | true => exact h.fell up
      | false => exact eq_true_of_ne_false fun quiet => first (up.trans quiet.symm)
    have down : t.emergency.line = false := by
      rw [active] at first
      exact eq_false_of_ne_true first
    have still : u.emergency.line = t.emergency.line := by
      rw [down]
      exact eq_false_of_ne_true fun up => absurd (down.symm.trans (k.fell up)) nofun
    obtain ⟨passage, journal⟩ := k.same still
    obtain ⟨released, told, records⟩ := h.ended first
    rw [if_neg first]
    refine ⟨h.toNoticed.trans k.toNoticed, rest, fun up => h.fell (k.fell up), fun same => ?_, fun _ => ?_⟩
    · exact absurd (still.symm.trans same) first
    · exact ⟨released.of_passage passage, k.toNoticed.told _ told, records.congr journal⟩

theorem Lost.followed (h : Lost s t a) (same : t.emergency.line = s.emergency.line) (k : Lost t u b) : Lost s u b := by
  have both := h.trans k
  rwa [if_pos same] at both

/-- Contributions alone decide how the line emergency is judged. -/
theorem Lost.of_link (h : Lost s t a)
    (same : m.rows.any MemberRow.contributes = t.link.rows.any MemberRow.contributes) :
    Lost s { t with link := m } a := by
  have judged : State.lineJudged { t with link := m } = t.lineJudged := by
    rw [State.lineJudged, State.lineJudged, same]
  refine ⟨h.toNoticed.trans (.of_host rfl), ?_, h.fell, h.same, fun moved => ?_⟩
  · rw [judged]
    have frame (e : Emergency) (p : Passage) (j : Journal) (n : HostLink) :
        ({ t with link := m, emergency := e, passage := p, journal := j, host := n } : State) =
          { s with link := m, emergency := e, passage := p, journal := j, host := n } := by rw [h.rest]
    rw [← frame, ← h.emergency]
  · obtain ⟨released, told, records⟩ := h.ended moved
    exact ⟨released.of_passage rfl, told, records.congr rfl⟩

end Sys2Proof.Machine
end

section
/-! Every PRESENT row lost in ascending order of address (R110, R115, R144, R145). -/

namespace Sys2Proof.Machine

variable {s t u : State} {l m : Link} {a b c clock hold : Nat} {r : MemberRow} {xs : List Nat}

/-! ## A row lost (R144) -/

/-- A row once its member was lost. -/
def MemberRow.lost (clock hold : Nat) (r : MemberRow) : MemberRow :=
  if r.present = true then { r with present := false, contribution := r.contribution.lost clock hold } else r

theorem lost_absent (h : r.present = false) : r.lost clock hold = r := by simp [MemberRow.lost, h]

@[simp] theorem lost_present (clock hold : Nat) (r : MemberRow) : (r.lost clock hold).present = false := by
  unfold MemberRow.lost
  split
  · rfl
  · exact eq_false_of_ne_true ‹_›

@[simp] theorem lost_lastHeard (clock hold : Nat) (r : MemberRow) : (r.lost clock hold).lastHeard = r.lastHeard := by
  unfold MemberRow.lost
  split <;> rfl

/-- The loss of a contribution, as the statements put it. -/
theorem lostTo_lost (x : Contribution) (clock hold : Nat) : x.LostTo (x.lost clock hold) clock hold := by
  cases x with
  | asserted d => exact ⟨fun e _ => rfl, fun other => absurd rfl (other d)⟩
  | none => exact ⟨nofun, fun _ => rfl⟩
  | held d => exact ⟨nofun, fun _ => rfl⟩

theorem lost_contribution (h : r.present = true) :
    (r.lost clock hold).contribution = r.contribution.lost clock hold := by
  simp [MemberRow.lost, h]

theorem lost_contributes (h : (r.lost clock hold).contributes = true) : r.contributes = true := by
  rw [contributes_iff] at h ⊢
  intro none_
  cases present : r.present with
  | false => exact h (by rw [lost_absent present, none_])
  | true => exact h (by rw [lost_contribution present, none_]; rfl)

/-- A row whose loss leaves no contribution was PRESENT and ASSERTED. -/
theorem asserted_of_lost (before : r.contributes = true) (after : (r.lost clock hold).contributes = false) :
    r.present = true ∧ ∃ d, r.contribution = .asserted d := by
  have none_ : (r.lost clock hold).contribution = .none := by
    by_contra some_
    exact absurd ((contributes_iff.2 some_).symm.trans after) nofun
  cases present : r.present with
  | false => rw [lost_absent present, before] at after; cases after
  | true =>
    rw [lost_contribution present] at none_
    rw [contributes_iff] at before
    cases contribution : r.contribution with
    | asserted d => exact ⟨rfl, d, rfl⟩
    | none => exact absurd contribution before
    | held d => rw [contribution] at none_; cases none_

/-! ## One row of the table lost -/

/-- The link with a row lost, if it was PRESENT. -/
def Link.lose (clock hold : Nat) (l : Link) (a : Nat) : Link := l.setRow a ((l.row a).lost clock hold)

theorem setRow_row (l : Link) (a : Nat) : l.setRow a (l.row a) = l := by
  cases a with
  | zero => rfl
  | succ k =>
    have same : l.rows.set k (l.rows.getD k .blank) = l.rows := by
      by_cases inside : k < l.rows.length
      · rw [List.getD_eq_getElem _ _ inside, List.set_getElem_self]
      · exact List.set_eq_of_length_le (by omega)
    rw [Link.setRow, Link.row, same]

theorem lose_absent (h : (l.row a).present = false) : l.lose clock hold a = l := by
  rw [Link.lose, lost_absent h, setRow_row]

theorem lose_length (l : Link) (clock hold a : Nat) : (l.lose clock hold a).rows.length = l.rows.length := by
  cases a with
  | zero => rfl
  | succ k => exact List.length_set

theorem lose_row (low : 1 ≤ a) (high : a ≤ l.rows.length) (b : Nat) :
    (l.lose clock hold a).row b = if b = a then (l.row b).lost clock hold else l.row b := by
  by_cases same : b = a
  · subst same
    rw [if_pos rfl, Link.lose, Link.row_setRow low high]
  · rw [if_neg same, Link.lose, row_setRow_ne same]

/-- A row lost makes no other contribute. -/
theorem lose_contributes (low : 1 ≤ a) (high : a ≤ l.rows.length)
    (h : (l.lose clock hold a).rows.any MemberRow.contributes = true) : l.rows.any MemberRow.contributes = true := by
  obtain ⟨b, counts⟩ := any_contributes_iff.1 h
  rw [lose_row low high] at counts
  refine any_contributes_iff.2 ⟨b, ?_⟩
  split at counts
  · exact lost_contributes counts
  · exact counts

theorem loseRow_lost (line : s.lineOk) (low : 1 ≤ a) (high : a ≤ s.link.rows.length) :
    Lost s (s.loseRow a) a ∧ (s.loseRow a).link = s.link.lose s.clock s.service.params.emergencyHold a := by
  cases present : (s.link.row a).present with
  | false =>
    have same : s.loseRow a = s := by simp [State.loseRow, present]
    rw [same, lose_absent present]
    exact ⟨.refl line a, rfl⟩
  | true =>
    have judged : s.loseRow a =
        State.judgeEmergency (.peerLost a)
          { s with link := s.link.lose s.clock s.service.params.emergencyHold a } := by
      simp [State.loseRow, present, Link.lose, MemberRow.lost, State.onLink]
    rw [judged]
    exact lost_judgeEmergency line (lose_contributes low high) a

/-- A loss that ends the emergency was of a PRESENT and ASSERTED row, and leaves no row contributing. -/
theorem loseRow_ends (line : s.lineOk) (low : 1 ≤ a) (high : a ≤ s.link.rows.length)
    (ends : (s.loseRow a).emergency.line ≠ s.emergency.line) :
    ((s.link.row a).present = true ∧ ∃ d, (s.link.row a).contribution = .asserted d) ∧
      ∀ b, b ≠ a → (s.link.row b).contributes = false := by
  obtain ⟨lost, link⟩ := loseRow_lost line low high
  generalize s.loseRow a = t at *
  have own : t.emergency.own = s.emergency.own := by rw [lost.emergency]; rfl
  obtain ⟨up, down⟩ : s.emergency.line = true ∧ t.emergency.line = false := by
    cases after : t.emergency.line with
    | true => exact absurd (after.trans (lost.fell after).symm) ends
    | false => exact ⟨eq_true_of_ne_false fun before => ends (after.trans before.symm), rfl⟩
  rw [lost.lineOk, State.lineJudged, own, Bool.or_eq_false_iff] at down
  rw [line, State.lineJudged, down.1, Bool.false_or] at up
  have silent (b : Nat) : (t.link.row b).contributes = false := by
    by_contra counts
    exact absurd ((any_contributes_iff.2 ⟨b, eq_true_of_ne_false counts⟩).symm.trans down.2) nofun
  rw [link] at silent
  have others (b : Nat) (other : b ≠ a) : (s.link.row b).contributes = false := by
    have here := silent b
    rwa [lose_row low high, if_neg other] at here
  obtain ⟨b, counts⟩ := any_contributes_iff.1 up
  obtain rfl : b = a := by
    by_contra other
    exact absurd (counts.symm.trans (others b other)) nofun
  have here := silent b
  rw [lose_row low high, if_pos rfl] at here
  exact ⟨asserted_of_lost counts here, others⟩

/-! ## One row after another -/

/-- Of these rows, the last that is PRESENT and ASSERTED. -/
def Link.LastAssertingOf (l : Link) (xs : List Nat) (a : Nat) : Prop :=
  a ∈ xs ∧ (l.row a).present = true ∧ (∃ d, (l.row a).contribution = .asserted d) ∧
    ∀ b ∈ xs, a < b → (l.row b).present = true → ∀ d, (l.row b).contribution ≠ .asserted d

theorem foldl_loseRow (line : s.lineOk) (inside : ∀ a ∈ xs, 1 ≤ a ∧ a ≤ s.link.rows.length)
    (sorted : xs.Pairwise (· < ·)) :
    ∃ a, Lost s (xs.foldl State.loseRow s) a ∧
      (xs.foldl State.loseRow s).link = xs.foldl (Link.lose s.clock s.service.params.emergencyHold) s.link ∧
      ((xs.foldl State.loseRow s).emergency.line ≠ s.emergency.line → s.link.LastAssertingOf xs a) := by
  induction xs generalizing s with
  | nil => exact ⟨0, .refl line 0, rfl, fun moved => absurd rfl moved⟩
  | cons x xs ih =>
    obtain ⟨⟨low, high⟩, inside⟩ := List.forall_mem_cons.1 inside
    obtain ⟨above, sorted⟩ := List.pairwise_cons.1 sorted
    obtain ⟨first, link⟩ := loseRow_lost line low high
    have ends := loseRow_ends line low high
    rw [List.foldl_cons, List.foldl_cons]
    generalize s.loseRow x = t at *
    have clock : t.clock = s.clock := by rw [first.rest]
    have service : t.service = s.service := by rw [first.rest]
    have length : t.link.rows.length = s.link.rows.length := by rw [link, lose_length]
    have rows (b : Nat) (later : b ∈ xs) : t.link.row b = s.link.row b := by
      rw [link, lose_row low high, if_neg (Nat.ne_of_gt (above b later))]
    obtain ⟨a, rest, linked, last⟩ := ih first.lineOk (by rwa [length]) sorted
    rw [clock, service, link] at linked
    refine ⟨_, first.trans rest, linked, fun moved => ?_⟩
    by_cases same : t.emergency.line = s.emergency.line
    · rw [if_pos same]
      obtain ⟨member, present, asserted, later⟩ := last fun still => moved (still.trans same)
      rw [rows a member] at present asserted
      refine ⟨List.mem_cons_of_mem _ member, present, asserted, fun b among higher => ?_⟩
      obtain rfl | behind := List.mem_cons.1 among
      · exact absurd (above a member) (by omega)
      · rw [← rows b behind]
        exact later b behind higher
    · rw [if_neg same]
      obtain ⟨⟨present, asserted⟩, others⟩ := ends same
      refine ⟨List.mem_cons_self, present, asserted, fun b _ higher _ d contribution => ?_⟩
      have silent := others b (Nat.ne_of_gt higher)
      rw [MemberRow.contributes, contribution] at silent
      cases silent

theorem foldl_lose_rest (l : Link) (clock hold : Nat) (xs : List Nat) :
    xs.foldl (Link.lose clock hold) l = { l with rows := (xs.foldl (Link.lose clock hold) l).rows } := by
  induction xs generalizing l with
  | nil => rfl
  | cons x xs ih =>
    rw [List.foldl_cons, ih, Link.lose, Link.setRow_rest]

theorem foldl_lose_length (l : Link) (clock hold : Nat) (xs : List Nat) :
    (xs.foldl (Link.lose clock hold) l).rows.length = l.rows.length := by
  induction xs generalizing l with
  | nil => rfl
  | cons x xs ih => rw [List.foldl_cons, ih, lose_length]

theorem foldl_lose_row (inside : ∀ a ∈ xs, 1 ≤ a ∧ a ≤ l.rows.length) (b : Nat) :
    (xs.foldl (Link.lose clock hold) l).row b = if b ∈ xs then (l.row b).lost clock hold else l.row b := by
  induction xs generalizing l with
  | nil => simp
  | cons x xs ih =>
    obtain ⟨⟨low, high⟩, inside⟩ := List.forall_mem_cons.1 inside
    rw [List.foldl_cons, ih (by rwa [lose_length]), lose_row low high]
    by_cases here : b = x <;> by_cases later : b ∈ xs <;> simp [here, later, lost_absent]

/-! ## Every row (R110, R115) -/

/-- The addresses 1 to 16. -/
theorem mem_addresses : a ∈ (List.range 16).map (· + 1) ↔ 1 ≤ a ∧ a ≤ 16 := by
  rw [List.mem_map]
  constructor
  · rintro ⟨k, member, rfl⟩
    have := List.mem_range.1 member
    omega
  · rintro ⟨low, high⟩
    exact ⟨a - 1, List.mem_range.2 (by omega), by omega⟩

theorem addresses_sorted : ((List.range 16).map (· + 1)).Pairwise (· < ·) := by decide

theorem foldl_lose_rows (full : l.rows.length = 16) :
    (((List.range 16).map (· + 1)).foldl (Link.lose clock hold) l).rows = l.rows.map (MemberRow.lost clock hold) := by
  have rows (b : Nat) := foldl_lose_row (l := l) (xs := (List.range 16).map (· + 1)) (clock := clock) (hold := hold)
    (fun a member => full ▸ mem_addresses.1 member) b
  have length := foldl_lose_length l clock hold ((List.range 16).map (· + 1))
  generalize ((List.range 16).map (· + 1)).foldl (Link.lose clock hold) l = m at *
  refine List.ext_getElem (by rw [length, List.length_map]) fun k inside _ => ?_
  have here := rows (k + 1)
  rw [if_pos (mem_addresses.2 (by omega)), Link.row, Link.row, List.getD_eq_getElem _ _ inside,
    List.getD_eq_getElem _ _ (length ▸ inside)] at here
  rw [here, List.getElem_map]

/-- What the loss of every PRESENT row leaves: its rows, and the emergency that may have ended with the last that was
ASSERTED. -/
theorem loseAll_lost (line : s.lineOk) (full : s.link.rows.length = 16) :
    ∃ a, Lost s s.loseAll a ∧
      s.loseAll.link =
        { s.link with rows := s.link.rows.map (MemberRow.lost s.clock s.service.params.emergencyHold) } ∧
      (s.loseAll.emergency.line ≠ s.emergency.line → s.link.LastAsserting a) := by
  have inside : ∀ a ∈ (List.range 16).map (· + 1), 1 ≤ a ∧ a ≤ s.link.rows.length := by
    intro a member
    rw [full]
    exact mem_addresses.1 member
  have rows := foldl_lose_rows (clock := s.clock) (hold := s.service.params.emergencyHold) full
  have addresses (a : Nat) : a ∈ (List.range 16).map (· + 1) ↔ 1 ≤ a ∧ a ≤ 16 := mem_addresses
  obtain ⟨a, lost, link, last⟩ := foldl_loseRow line inside addresses_sorted
  rw [State.loseAll]
  generalize (List.range 16).map (· + 1) = xs at *
  refine ⟨a, lost, ?_, fun moved => ?_⟩
  · rw [link, ← rows]
    exact foldl_lose_rest _ _ _ _
  · obtain ⟨member, present, asserted, later⟩ := last moved
    obtain ⟨low, high⟩ := (addresses a).1 member
    exact ⟨low, high, present, asserted, fun b above upper => later b ((addresses b).2 ⟨by omega, upper⟩) above⟩

theorem lastAsserting_congr (rows : m.rows = l.rows) (h : m.LastAsserting a) : l.LastAsserting a := by
  have row (b : Nat) : m.row b = l.row b := Link.row_congr rows b
  obtain ⟨low, high, present, asserted, later⟩ := h
  simp only [row] at present asserted later
  exact ⟨low, high, present, asserted, later⟩

/-- Every row is lost behind a change of the link that leaves the rows alone. -/
theorem loseAll_onLink (line : s.lineOk) (full : s.link.rows.length = 16) (rows : m.rows = s.link.rows) :
    ∃ a, Lost s (State.loseAll { s with link := m }) a ∧
      (State.loseAll { s with link := m }).link =
        { m with rows := s.link.rows.map (MemberRow.lost s.clock s.service.params.emergencyHold) } ∧
      ((State.loseAll { s with link := m }).emergency.line ≠ s.emergency.line → s.link.LastAsserting a) := by
  have before : Lost s { s with link := m } 0 := (Lost.refl line 0).of_link (by rw [rows])
  obtain ⟨a, lost, link, last⟩ := loseAll_lost before.lineOk (by rw [← full, ← rows])
  generalize State.loseAll _ = u at *
  refine ⟨a, before.followed rfl lost, ?_, fun moved => lastAsserting_congr rows (last moved)⟩
  rw [link, ← rows]

/-- Every row has become what the statements say (R144). -/
theorem allLostTo_of_rows (rows : m.rows = l.rows.map (MemberRow.lost clock hold)) (a : Nat) :
    l.AllLostTo m clock hold a := by
  have row : m.row a = (l.row a).lost clock hold := row_map (lost_absent rfl) rows a
  rw [Link.AllLostTo, row]
  refine ⟨fun present => ?_, fun absent => by rw [lost_absent absent]⟩
  rw [lost_contribution present]
  exact lostTo_lost _ _ _

end Sys2Proof.Machine
end

section
/-! The line monitor, damaged and discarded frames, and the address conflict (R97 to R99, R106, R108 to R110, R144). -/

namespace Sys2Proof.Machine

variable {s t u : State} {l m : Link} {a clock : Nat} {src : Byte} {reason : OfflineReason} {dest : Option Byte}
  {act : Nat → State → State} {c : Instr}

/-! ## OFFLINE (R97) -/

theorem takeFrame_offline (h : s.link.state = .offline reason) (src : Byte) (act : Nat → State → State) :
    s.takeFrame src act = s := by
  rw [State.takeFrame, h]
  rfl

theorem discardFrame_offline (h : s.link.state = .offline reason) : s.discardFrame = s := by
  rw [State.discardFrame, h]
  rfl

theorem idleFrame_offline (h : s.link.state = .offline reason) : s.idleFrame = s := by
  rw [State.idleFrame, h]
  rfl

theorem lineStarts_offline (h : s.link.state = .offline reason) (dest : Option Byte) : s.lineStarts dest = s := by
  rw [State.lineStarts, h]
  rfl

/-- Nothing is received OFFLINE. -/
theorem exec_offline (h : s.link.state = .offline reason) {card : CardNo} {rt wt txc : BitVec 16} {rs ws stamp : Stamp}
    {side code : Byte}
    (heard : c ∈ [Instr.lineTransmissionStart dest, .linkRxIdleTimeout, .linkFrameDiscarded, .linkFramingError,
      .linkToken src, .linkJoinInvite src, .linkJoinReply src, .linkSighting src card rt rs wt ws,
      .linkLapse src card txc stamp side, .linkRegrant src card txc stamp, .linkDenyAdd src card,
      .linkEmergency src code]) : exec c s = .next s.pump := by
  have frame (act : Nat → State → State) : done (s.takeFrame src act) = .next s.pump :=
    congrArg done (takeFrame_offline h src act)
  have discard : done s.discardFrame = .next s.pump := congrArg done (discardFrame_offline h)
  simp only [List.mem_cons, List.not_mem_nil, or_false] at heard
  obtain rfl | rfl | rfl | rfl | rfl | rfl | rfl | rfl | rfl | rfl | rfl | rfl := heard
  · exact congrArg done (lineStarts_offline h dest)
  · exact congrArg done (idleFrame_offline h)
  · exact discard
  · show done (if s.link.rxBegun then s.discardFrame else s) = _
    rw [discardFrame_offline h, ite_self]
    rfl
  · exact frame _
  · exact frame _
  · exact frame _
  · exact frame _
  · show execLinkLapse src card txc stamp side s = _
    unfold execLinkLapse
    split
    · exact frame _
    · exact discard
  · exact frame _
  · exact frame _
  · show execLinkEmergency src code s = _
    unfold execLinkEmergency
    split
    · exact frame _
    · exact discard

/-! ## A start of transmission (R105, R108, R109) -/

/-- A command that does no more than set the link. -/
theorem linked_told (s : State) (l : Link) :
    Told s (State.pump { s with link := l }) [] ∧
      State.pump { s with link := l } = { s with link := l, host := (State.pump { s with link := l }).host } :=
  ⟨.of_host rfl, State.pump_rest _⟩

theorem awaits_waiting (online : ∀ reason, l.state ≠ .offline reason) (token : l.token = .waiting) :
    l.awaitsSilence = true := by
  rw [awaitsSilence_iff]
  cases state : l.state with
  | offline reason => exact absurd state (online reason)
  | listening => exact .inl rfl
  | member => exact .inr ⟨rfl, token⟩

theorem filters_eq (l : Link) (dest : Option Byte) :
    l.filters dest = dest.any fun d => d.toNat == l.addr || d == 255 := by cases dest <;> rfl

theorem lineStarts_driving (h : s.driveEnable = true) (dest : Option Byte) : s.lineStarts dest = s := by
  have driving : s.link.driving = true := h
  rw [State.lineStarts, driving, Bool.or_true, if_pos rfl]

theorem lineStarts_waiting (online : ∀ reason, s.link.state ≠ .offline reason) (free : s.driveEnable = false)
    (token : s.link.token = .waiting) (dest : Option Byte) :
    s.lineStarts dest =
      { s with
        link :=
          { s.link with
            rxBegun := dest.any fun d => d.toNat == s.link.addr || d == 255,
            silence := some (s.clock + silenceMs s.link.addr) } } := by
  have driving : s.link.driving = false := free
  have awaits : Link.awaitsSilence { s.link with rxBegun := s.link.filters dest } = true :=
    awaits_waiting (l := { s.link with rxBegun := s.link.filters dest }) online token
  rw [State.lineStarts, isOffline_eq_false online, driving, if_neg (by decide), token, ← filters_eq]
  simp only [State.onLink, Link.restartSilence, awaits, if_true]

/-- In the window of an invitation a frame that passes the filter is awaited (R106). -/
theorem lineStarts_awaited (online : ∀ reason, s.link.state ≠ .offline reason) (free : s.driveEnable = false)
    (token : s.link.token = .inviting a false) (open_ : s.link.window.isSome = true)
    (passes : s.link.filters dest = true) :
    s.lineStarts dest = { s with link := { s.link with rxBegun := true } } := by
  have driving : s.link.driving = false := free
  rw [State.lineStarts, isOffline_eq_false online, driving, if_neg (by decide), token]
  simp [State.onLink, passes, open_]

/-- Any other holder drops its token. -/
theorem lineStarts_drops (online : ∀ reason, s.link.state ≠ .offline reason) (free : s.driveEnable = false)
    (holds : s.link.token = .sending ∨ (∃ a n, s.link.token = .passing a n) ∨
      (∃ a closed, s.link.token = .inviting a closed ∧
        (closed = true ∨ s.link.window = none ∨ s.link.filters dest = false))) :
    s.lineStarts dest = s.onLink fun l => ({ l with rxBegun := l.filters dest } : Link).dropToken s.clock := by
  have driving : s.link.driving = false := free
  rw [State.lineStarts, isOffline_eq_false online, driving, if_neg (by decide)]
  obtain token | ⟨a, n, token⟩ | ⟨a, closed, token, missed⟩ := holds <;> rw [token]
  · rfl
  · rfl
  · have unmet : (s.link.filters dest && !closed && s.link.window.isSome) = false := by
      obtain rfl | shut | fails := missed
      · simp
      · simp [shut]
      · simp [fails]
    show (if (s.link.filters dest && !closed && s.link.window.isSome) = true then _ else _) = _
    rw [unmet]
    rfl

/-! ## Damaged and discarded frames (R98, R99, R106) -/

theorem exec_discards (h : c = .linkFrameDiscarded ∨ (c = .linkFramingError ∧ s.link.rxBegun = true)) :
    exec c s = .next s.discardFrame.pump := by
  obtain rfl | ⟨rfl, begun⟩ := h
  · rfl
  · show done (if s.link.rxBegun then s.discardFrame else s) = _
    rw [begun]
    rfl

theorem discardFrame_online (online : ∀ reason, s.link.state ≠ .offline reason) :
    s.discardFrame = s.endReception.failInvitation := by
  rw [State.discardFrame, isOffline_eq_false online]
  rfl

theorem idleFrame_online (online : ∀ reason, s.link.state ≠ .offline reason) :
    s.idleFrame = s.noReception.failInvitation := by
  rw [State.idleFrame, isOffline_eq_false online]
  rfl

theorem failInvitation_fails (token : s.link.token = .inviting a true) : s.failInvitation = s.passToken := by
  rw [State.failInvitation, token]

theorem failInvitation_stays (token : ∀ a, s.link.token ≠ .inviting a true) : s.failInvitation = s := by
  unfold State.failInvitation
  split
  · exact absurd ‹_› (token _)
  all_goals rfl

theorem endReception_eq (s : State) :
    s.endReception =
      { s with
        link :=
          { s.link with
            rxBegun := false,
            silence := if s.link.awaitsSilence = true then some (s.clock + silenceMs s.link.addr) else none } } := rfl

theorem endReception_waiting (online : ∀ reason, s.link.state ≠ .offline reason) (token : s.link.token = .waiting) :
    s.endReception =
      { s with link := { s.link with rxBegun := false, silence := some (s.clock + silenceMs s.link.addr) } } := by
  rw [endReception_eq, if_pos (awaits_waiting online token)]

theorem endReception_holding (token : s.link.token ≠ .waiting) :
    s.endReception =
      { s with
        link :=
          { s.link with
            rxBegun := false,
            silence := if s.link.state = .listening then some (s.clock + silenceMs s.link.addr) else none } } := by
  have listens : s.link.awaitsSilence = true ↔ s.link.state = .listening :=
    (awaitsSilence_iff _).trans (or_iff_left fun ⟨_, waits⟩ => token waits)
  rw [endReception_eq, if_congr listens rfl rfl]

/-! ## A pass (R105) -/

theorem ring_successor (same : m.ring = l.ring) : m.successor = l.successor := by
  have successor : m.ring.successor = l.ring.successor := congrArg Link.successor same
  exact successor

/-- The token is passed to the successor of the ring, or kept by a lone holder. -/
theorem pass_passes (same : m.ring = l.ring) (clock : Nat) :
    (∀ b, l.successor = some b → (m.pass clock).tx = some (.token b) ∧ (m.pass clock).token = .passing b 1) ∧
      (l.successor = none →
        (m.pass clock).tx = none ∧ (m.pass clock).token = .sending ∧ (m.pass clock).loneWait.isSome = true) := by
  rw [← ring_successor same]
  refine ⟨fun b found => ?_, fun alone => ?_⟩
  · rw [pass_successor found]
    exact ⟨rfl, rfl⟩
  · rw [pass_alone alone]
    exact ⟨rfl, rfl, rfl⟩

theorem pass_rxBegun (l : Link) (clock : Nat) : (l.pass clock).rxBegun = l.rxBegun := by
  unfold Link.pass
  split <;> rfl

/-- An invitation whose window has closed fails with the frame awaited. -/
theorem exec_fails (online : ∀ reason, s.link.state ≠ .offline reason) (token : s.link.token = .inviting a true)
    (h : c = .linkFrameDiscarded ∨ (c = .linkFramingError ∧ s.link.rxBegun = true) ∨ c = .linkRxIdleTimeout) :
    ∃ m : Link, m.ring = s.link.ring ∧ m.rxBegun = false ∧
      exec c s = .next (State.pump { s with link := m.pass s.clock }) := by
  have discarded (run : exec c s = .next s.discardFrame.pump) :
      exec c s = .next (State.pump { s with link := s.endReception.link.pass s.clock }) := by
    rw [run, discardFrame_online online, failInvitation_fails (s := s.endReception) token]
    rfl
  obtain h | ⟨h, begun⟩ | rfl := h
  · exact ⟨s.endReception.link, rfl, rfl, discarded (exec_discards (.inl h))⟩
  · exact ⟨s.endReception.link, rfl, rfl, discarded (exec_discards (.inr ⟨h, begun⟩))⟩
  · refine ⟨s.noReception.link, rfl, rfl, ?_⟩
    show done s.idleFrame = _
    rw [idleFrame_online online, failInvitation_fails (s := s.noReception) token]
    rfl

/-! ## The own address heard (R110) -/

theorem takeFrame_conflict (online : ∀ reason, s.link.state ≠ .offline reason) (own : src.toNat = s.link.addr)
    (low : 1 ≤ src.toNat) (high : src.toNat ≤ 16) (act : Nat → State → State) : s.takeFrame src act = s.conflict := by
  rw [State.takeFrame, isOffline_eq_false online, sourceOk_iff.2 ⟨low, high⟩]
  simp only [Bool.false_eq_true, if_false, Bool.not_true, if_pos own]

theorem exec_conflicts (online : ∀ reason, s.link.state ≠ .offline reason) (own : src.toNat = s.link.addr)
    (low : 1 ≤ src.toNat) (high : src.toNat ≤ 16) {card : CardNo} {rt wt txc : BitVec 16} {rs ws stamp : Stamp}
    (heard : c ∈ [Instr.linkToken src, .linkJoinInvite src, .linkJoinReply src, .linkSighting src card rt rs wt ws,
      .linkLapse src card txc stamp 1, .linkRegrant src card txc stamp, .linkDenyAdd src card,
      .linkEmergency src 1]) : exec c s = .next s.conflict.pump := by
  have frame (act : Nat → State → State) : done (s.takeFrame src act) = .next s.conflict.pump :=
    congrArg done (takeFrame_conflict online own low high act)
  simp only [List.mem_cons, List.not_mem_nil, or_false] at heard
  obtain rfl | rfl | rfl | rfl | rfl | rfl | rfl | rfl := heard <;> exact frame _

/-- The part once every row has been lost to an address conflict. -/
def State.conflicting (s : State) : State := (s.onLink (Link.conflicted s.clock)).loseAll

/-- The record and the notice of the conflict. -/
def State.conflictTold (s : State) : State :=
  (s.conflicting.append (membershipRecord s.conflicting.link.addr .addressConflict)).raise .membershipChange

theorem conflict_eq (s : State) : s.conflict = s.conflictTold.judgeSyncs := by
  rw [State.conflict, State.conflictTold, State.conflicting]

theorem conflicting_lost (line : s.lineOk) (full : s.link.rows.length = 16) :
    ∃ a, Lost s s.conflicting a ∧
      s.conflicting.link =
        { s.link.conflicted s.clock with
          rows := s.link.rows.map (MemberRow.lost s.clock s.service.params.emergencyHold) } ∧
      (s.conflicting.emergency.line ≠ s.emergency.line → s.link.LastAsserting a) := by
  have lost := loseAll_onLink line full (m := s.link.conflicted s.clock) rfl
  rw [State.conflicting, State.onLink]
  generalize State.loseAll _ = u at *
  exact lost

theorem queued_conflictTold (s : State) :
    Queued s.conflicting s.conflictTold [] [membershipRecord s.conflicting.link.addr .addressConflict] :=
  (Queued.of_append _ _).trans (.of_raise _ _)

/-- What an address conflict leaves of the part. -/
theorem conflict_rest (s : State) :
    s.conflict.pump =
      { s.conflicting with
        link := s.conflicting.link.withoutOver, journal := s.conflictTold.journal, host := s.conflict.pump.host } := by
  have queued := (queued_conflictTold s).rest
  have link : s.conflictTold.link = s.conflicting.link := (queued_conflictTold s).link
  rw [link] at queued
  refine (State.pump_rest _).trans ?_
  generalize s.conflict.pump.host = host
  rw [conflict_eq, (judgeSyncs_spec s.conflictTold).1, link]
  generalize s.conflictTold.judgeSyncs.host = answered
  rw [queued]

theorem conflict_line (line : s.lineOk) (full : s.link.rows.length = 16) :
    s.conflict.pump.emergency = { s.emergency with line := s.conflict.pump.lineJudged } := by
  obtain ⟨a, lost, -⟩ := conflicting_lost line full
  have rest := conflict_rest s
  generalize s.conflict.pump = t at *
  generalize s.conflicting = u at *
  have judged : t.lineJudged = u.lineJudged := by
    rw [rest]
    rfl
  rw [judged, ← lost.emergency, rest]

/-- The link OFFLINE by CONFLICT, with every row lost and no SYNC_LINE outstanding. -/
theorem conflict_link (line : s.lineOk) (full : s.link.rows.length = 16) :
    s.conflict.pump.link =
      Link.withoutOver
        { s.link.conflicted s.clock with
          rows := s.link.rows.map (MemberRow.lost s.clock s.service.params.emergencyHold) } := by
  obtain ⟨a, -, link, -⟩ := conflicting_lost line full
  rw [← link, conflict_rest]

theorem conflict_noticed (line : s.lineOk) (full : s.link.rows.length = 16) : Noticed s s.conflictTold := by
  obtain ⟨a, lost, -⟩ := conflicting_lost line full
  exact lost.toNoticed.trans (.of_queued (queued_conflictTold s))

theorem conflict_tells (s : State) (k : NoticeKind) : s.conflict.pump.tells k = s.conflictTold.tells k := by
  rw [State.pump_tells_eq, conflict_eq, judgeSyncs_tells]

theorem conflict_formed (line : s.lineOk) (full : s.link.rows.length = 16) (untaken : s.host.resetTaken = false) :
    s.conflict.pump.formed = s.formed ++ s.link.syncs.map fun y => Reply.inWindow y.tag .syncLine .offline := by
  have noticed := conflict_noticed line full
  obtain ⟨a, -, link, -⟩ := conflicting_lost line full
  have told : s.conflictTold.link = s.conflicting.link := (queued_conflictTold s).link
  rw [State.pump_formed, conflict_eq, judgeSyncs_formed (by rw [noticed.host, ← untaken]), noticed.formed,
    syncReplies_offline (reason := .conflict) (by rw [told, link]; rfl), told, link]
  rfl

/-- The record of the conflict comes after that of an emergency that ended with a row (log 44). -/
theorem conflict_records (line : s.lineOk) (full : s.link.rows.length = 16) :
    (s.conflict.pump.emergency.line = s.emergency.line →
      s.conflict.pump.passage = s.passage ∧
        Journals s s.conflict.pump [membershipRecord s.link.addr .addressConflict]) ∧
      (s.conflict.pump.emergency.line ≠ s.emergency.line →
        AisleReleased s s.conflict.pump ∧ s.conflict.pump.tells .emergencyChange = true ∧
          ∃ a, s.link.LastAsserting a ∧
            Journals s s.conflict.pump
              [{ kind := .emergencyEnd, peer := some a, reason := some .peerLost },
                membershipRecord s.link.addr .addressConflict]) := by
  obtain ⟨a, lost, link, last⟩ := conflicting_lost line full
  have records := (queued_conflictTold s).records
  have told := (queued_conflictTold s).told
  have addr : s.conflicting.link.addr = s.link.addr := by rw [link]; rfl
  have time : s.conflicting.time = s.time := by rw [lost.rest]
  have service : s.conflicting.service = s.service := by rw [lost.rest]
  have emergency : s.conflict.pump.emergency = s.conflicting.emergency := by rw [conflict_rest]
  have passage : s.conflict.pump.passage = s.conflicting.passage := by rw [conflict_rest]
  have journal : s.conflict.pump.journal = s.conflictTold.journal := by rw [conflict_rest]
  rw [addr] at records
  rw [emergency, passage, conflict_tells]
  refine ⟨fun same => ?_, fun moved => ?_⟩
  · obtain ⟨aisle, kept⟩ := lost.same same
    exact ⟨aisle, ((Journals.of_same kept).append records time (by rw [service])).congr journal⟩
  · obtain ⟨released, change, ended⟩ := lost.ended moved
    exact ⟨released.of_passage passage, told _ change, a, last moved,
      (ended.append records time (by rw [service])).congr journal⟩

/-- Settles O49: nothing is received OFFLINE or while the line is driven, a token goes at a start of transmission unless
the frame may be the reply awaited, damage leaves a token but for an invitation overdue, and the own address heard loses
every row. -/
theorem monitorDamageAndConflict : Obligations.MonitorDamageAndConflict := by
  intro s
  refine ⟨fun reason dest src card rt rs wt ws txc stamp side code c offline heard =>
    ⟨_, exec_offline offline heard, done_unchanged s⟩, fun dest driven =>
    ⟨_, congrArg done (lineStarts_driving driven dest), done_unchanged s⟩, fun online =>
    ⟨fun dest free token => ⟨_, congrArg done (lineStarts_waiting online free token dest), linked_told s _⟩,
    fun dest a free token open_ passes => ⟨_, congrArg done (lineStarts_awaited online free token open_ ?_),
      linked_told s _⟩,
    fun dest free holds => ?_,
    fun c damaged token => ⟨_, (exec_discards damaged).trans ?_, linked_told s _⟩,
    fun c damaged token unclosed => ⟨_, (exec_discards damaged).trans ?_, linked_told s _⟩,
    fun unclosed => ⟨_, congrArg done ?_, linked_told s _⟩,
    fun c a failed token => ?_,
    fun idle => ⟨_, congrArg done ?_, done_unchanged s⟩,
    fun src card rt rs wt ws txc stamp c own low high line full heard => ?_⟩⟩
  · rw [filters_eq, passes]
  · simp only [← filters_eq] at holds
    have run : exec (.lineTransmissionStart dest) s = _ := congrArg done (lineStarts_drops online free holds)
    obtain ⟨told, rest⟩ := onLink_told s fun l => ({ l with rxBegun := l.filters dest } : Link).dropToken s.clock
    refine ⟨_, run, told, rest, ?_⟩
    rw [State.pump_link, State.onLink_link]
    refine ⟨rfl, rfl, rfl, rfl, rfl, rfl, rfl, cutTx_msgs s.link, fun q member => ?_⟩
    obtain ⟨y, -, rfl⟩ := List.mem_map.1 member
    rfl
  · rw [discardFrame_online online, endReception_waiting online token, failInvitation_stays fun a closed => ?_]
    exact nomatch token.symm.trans closed
  · rw [discardFrame_online online, endReception_holding token]
    exact congrArg done (failInvitation_stays unclosed)
  · exact (idleFrame_online online).trans (failInvitation_stays (s := s.noReception) unclosed)
  · obtain ⟨m, ring, free, run⟩ := exec_fails online token failed
    obtain ⟨told, rest⟩ := linked_told s (m.pass s.clock)
    have passed : (m.pass s.clock).ring = s.link.ring := (ring_pass m s.clock).trans ring
    have passes := pass_passes ring s.clock
    refine ⟨_, run, told, ?_⟩
    rw [State.pump_link]
    exact ⟨rest, ring_rows passed, ring_turn passed, (pass_rxBegun m s.clock).trans free, ring_msgs passed, passes⟩
  · rw [idle]
    rfl
  · obtain ⟨same, moved⟩ := conflict_records line full
    have link := conflict_link line full
    have noticed := conflict_noticed line full
    obtain ⟨a, lost, -⟩ := conflicting_lost line full
    have rest := conflict_rest s
    refine ⟨_, exec_conflicts online own low high heard, ?_⟩
    refine ⟨by rw [link]; rfl, by rw [link]; rfl, by rw [link]; rfl, fun r member => ?_, ?_, ?_,
      conflict_formed line full, ?_, ?_, ?_, ?_, ?_, fun b _ _ => ?_, conflict_line line full, fun h => (same h).1,
      fun h => ⟨(moved h).1, (moved h).2.1⟩, fun h => (same h).2, fun h => (moved h).2.2⟩
    · rw [link] at member
      obtain ⟨y, -, rfl⟩ := List.mem_map.1 member
      exact lost_present _ _ y
    · rw [link]
      show (s.link.rows.map _).map _ = _
      rw [List.map_map]
      exact List.map_congr_left fun r _ => lost_lastHeard _ _ r
    · rw [link]
      exact withoutOver_offline (reason := .conflict) rfl
    · rw [link, withoutOver_msgs]
      exact cutTx_msgs s.link
    · rw [conflict_tells]
      exact State.raise_tells _ _
    · rw [rest, lost.rest]
    · rw [rest, lost.rest]
    · rw [rest, lost.rest]
    · refine allLostTo_of_rows ?_ b
      rw [link]
      rfl

end Sys2Proof.Machine
end

section
/-! Frames sent, and windows that close without an answer (R97, R103 to R107, R112, R114). -/

namespace Sys2Proof.Machine

variable {s t u : State} {l m : Link} {a b : Nat} {before after : List QItem} {q : QItem}

/-! ## The end of a frame (R97) -/

theorem linkFrameSent_ends (due : s.link.due = false) : exec .linkFrameSent s = .next s.txEnds.pump := by
  show done s.choose.txEnds = _
  rw [choose_undue due]
  rfl

theorem txEnds_none (tx : s.link.tx = none) : s.txEnds = s := by rw [State.txEnds, tx]

theorem txEnds_data (tx : s.link.tx = some .data) : s.txEnds = (s.onLink Link.dataSent).judgeSyncs.continueTurn := by
  rw [State.txEnds, tx]

theorem txEnds_emergency {assert : Bool} (tx : s.link.tx = some (.emergency assert)) :
    s.txEnds = (s.onLink (Link.emergencyGone assert)).continueTurn := by rw [State.txEnds, tx]

theorem txEnds_window (tx : s.link.tx = some (.token a) ∨ s.link.tx = some (.invite a)) :
    s.txEnds = s.onLink (Link.openWindow s.clock) := by
  obtain tx | tx := tx <;> rw [State.txEnds, tx]

theorem txEnds_joinReply (tx : s.link.tx = some (.joinReply a)) : s.txEnds = s.onLink Link.cutTx := by
  rw [State.txEnds, tx]

theorem cutTx_undue (due : l.due = false) :
    l.cutTx = { l with tx := none, txBegun := false, queue := l.queue.map fun q => { q with inTx := false } } := by
  simp [Link.cutTx, due]

theorem goOn_tx (l : Link) (clock : Nat) (own : Bool) : (l.goOn clock own).tx = none :=
  (turnGoesOn_goOn l clock own).silent.1

/-- Nothing is being sent once a frame has ended. -/
theorem txEnds_tx (s : State) : s.txEnds.link.tx = none := by
  cases tx : s.link.tx with
  | none => rw [txEnds_none tx, tx]
  | some frame =>
    cases frame with
    | data =>
      rw [txEnds_data tx]
      exact goOn_tx _ _ _
    | emergency assert =>
      rw [txEnds_emergency tx]
      exact goOn_tx _ _ _
    | token a =>
      rw [txEnds_window (.inl tx)]
      rfl
    | invite a =>
      rw [txEnds_window (.inr tx)]
      rfl
    | joinReply a =>
      rw [txEnds_joinReply tx]
      rfl

theorem driveEnable_released (tx : t.link.tx = none) : t.pump.driveEnable = false := by
  rw [State.driveEnable, State.pump_link, Link.driving, tx]
  rfl

/-! ## A queued frame sent (R104, R112, R114) -/

/-- The queued frame in transmission leaves the queue. -/
theorem dataSent_queue (queue : l.queue = before ++ q :: after) (sent : q.inTx = true)
    (others : ∀ x ∈ before, x.inTx = false) :
    l.dataSent.queue = (before ++ after).map fun x => { x with inTx := false } := by
  have left : dropFirst QItem.inTx l.queue = before ++ after := by
    rw [dropFirst_eq_eraseP, queue, List.eraseP_append_right _ fun x member => by simp [others x member],
      List.eraseP_cons_of_pos sent]
  show (dropFirst QItem.inTx l.queue).map _ = _
  rw [left]

theorem dataSent_marked (queue : l.dataSent.queue = (before ++ after).map fun x => { x with inTx := false })
    (y : Sync) :
    (l.dataSent.queue.any fun x => x.marks.contains y.tag) = (before ++ after).any fun x => x.marks.contains y.tag := by
  rw [queue, List.any_map]
  rfl

/-- The SYNC_LINEs that are over complete, and the others stay: with none outstanding it does not matter whether the
link is OFFLINE. -/
theorem withoutOver_parts (h : l.syncs = [] ∨ ∀ reason, l.state ≠ .offline reason) :
    l.withoutOver.syncs = (l.syncs.filter fun y => l.queue.any fun x => x.marks.contains y.tag) ∧
      l.syncReplies = (l.syncs.filter fun y => !l.queue.any fun x => x.marks.contains y.tag).map fun y =>
        Reply.inWindow y.tag .syncLine (.synced y.dropped) := by
  obtain none_ | online := h
  · simp [Link.withoutOver, Link.syncReplies, none_]
  · exact ⟨withoutOver_online online, syncReplies_online online⟩

/-- What a queued frame sent leaves of the part. -/
structure DataSent (s t : State) (before after : List QItem) : Prop where
  rest : t = { s with link := t.link, host := t.host }
  host : t.host = { s.host with replies := t.host.replies }
  syncs : t.link.syncs = s.link.syncs.filter fun y => (before ++ after).any fun x => x.marks.contains y.tag
  formed : t.formed = s.formed ++
    (s.link.syncs.filter fun y => !(before ++ after).any fun x => x.marks.contains y.tag).map fun y =>
      Reply.inWindow y.tag .syncLine (.synced y.dropped)
  goesOn : ∃ queue, queue.map QItem.msg = (before ++ after).map QItem.msg ∧
    TurnGoesOn s.emergency.own s.clock
      { s.link with queue := queue, syncs := t.link.syncs, sent := s.link.sent + 1 } t.link

theorem dataSent_txEnds (tx : s.link.tx = some .data) (queue : s.link.queue = before ++ q :: after)
    (sent : q.inTx = true) (others : ∀ x ∈ before, x.inTx = false)
    (awaited : s.link.syncs = [] ∨ ((∀ reason, s.link.state ≠ .offline reason) ∧ s.host.resetTaken = false)) :
    DataSent s s.txEnds before after := by
  have left := dataSent_queue queue sent others
  obtain ⟨syncs, replies⟩ := withoutOver_parts (l := s.link.dataSent) (awaited.imp id And.left)
  simp only [dataSent_marked left] at syncs replies
  obtain ⟨rest, host, formed⟩ := judgeSyncs_spec (s.onLink Link.dataSent)
  rw [txEnds_data tx]
  generalize (s.onLink Link.dataSent).judgeSyncs = u at *
  have link : u.link = s.link.dataSent.withoutOver := by rw [rest]; rfl
  have own : u.emergency = s.emergency := by rw [rest]; rfl
  have clock : u.clock = s.clock := by rw [rest]; rfl
  have goes : u.continueTurn.link = s.link.dataSent.withoutOver.goOn s.clock s.emergency.own := by
    rw [State.continueTurn, State.onLink_link, link, own, clock]
  have kept : u.continueTurn.link.syncs = s.link.dataSent.withoutOver.syncs := by
    rw [goes]
    exact (Link.goOn_same _ _ _).syncs
  refine ⟨?_, host, kept.trans syncs, ?_, s.link.dataSent.withoutOver.queue, ?_, ?_⟩
  · have frame (x : Link) : ({ u with link := x } : State) = { s with link := x, host := u.host } := by rw [rest]; rfl
    exact frame _
  · refine formed.trans (congrArg (s.formed ++ ·) ?_)
    obtain none_ | ⟨-, untaken⟩ := awaited
    · have silent : s.link.dataSent.syncReplies = [] := by rw [replies, show s.link.dataSent.syncs = [] from none_]; rfl
      rw [none_]
      exact (congrArg _ silent).trans (ite_self _)
    · rw [show (s.onLink Link.dataSent).host.resetTaken = false from untaken, if_neg Bool.false_ne_true]
      exact replies
  · rw [withoutOver_msgs, left, List.map_map]
    rfl
  · rw [kept, goes]
    exact turnGoesOn_of_still rfl

theorem DataSent.told (h : DataSent s t before after) (k : NoticeKind) : t.tells k = s.tells k := by
  rw [State.tells, h.host]
  rfl

/-- With a marked frame of each SYNC_LINE left, none is answered. -/
theorem DataSent.silent (h : DataSent s t before after)
    (marked : ∀ y ∈ s.link.syncs, ∃ x ∈ before ++ after, y.tag ∈ x.marks) : Told s t.pump [] := by
  have none_ : (s.link.syncs.filter fun y => !(before ++ after).any fun x => x.marks.contains y.tag) = [] := by
    refine List.filter_eq_nil_iff.2 fun y member => ?_
    obtain ⟨x, among, mark⟩ := marked y member
    have found : ((before ++ after).any fun x => x.marks.contains y.tag) = true :=
      List.any_eq_true.2 ⟨x, among, List.contains_iff_mem.2 mark⟩
    rw [found]
    exact Bool.false_ne_true
  have formed : t.formed = s.formed := by rw [h.formed, none_, List.map_nil, List.append_nil]
  have host := h.host
  refine Told.of_silent (Silent.of_pump ?_ formed ?_ ?_ ?_ ?_ ⟨?_, ?_⟩ ?_ ?_) rfl fun k => ?_
  case refine_10 => rw [h.told, List.contains_nil, Bool.or_false]
  all_goals rw [host]

/-! ## A pass that is not answered (R105, R144, R145) -/

theorem passUnanswered_retries (token : s.link.token = .passing a 1) (open_ : s.link.window.isSome = true) :
    s.passUnanswered = s.onLink (Link.retryPass a) := by
  rw [State.passUnanswered, token]
  simp [Option.isSome_iff_ne_none.1 open_]

theorem passUnanswered_loses (token : s.link.token = .passing a 2) (open_ : s.link.window.isSome = true) :
    s.passUnanswered = (s.loseSuccessor a).passToken := by
  rw [State.passUnanswered, token]
  simp [Option.isSome_iff_ne_none.1 open_]

theorem passUnanswered_shut (shut : s.link.window = none) : s.passUnanswered = s := by
  unfold State.passUnanswered
  split
  · rw [shut]
    rfl
  all_goals rfl

theorem inviteUnanswered_shut (shut : s.link.window = none) : s.inviteUnanswered = s := by
  unfold State.inviteUnanswered
  split
  · rw [shut]
    rfl
  all_goals rfl

theorem inviteUnanswered_awaits (token : s.link.token = .inviting a false) (open_ : s.link.window.isSome = true)
    (begun : s.link.rxBegun = true) :
    s.inviteUnanswered = { s with link := { s.link with token := .inviting a true } } := by
  rw [State.inviteUnanswered, token]
  simp [Option.isSome_iff_ne_none.1 open_, begun, State.onLink]

theorem inviteUnanswered_fails (token : s.link.token = .inviting a false) (open_ : s.link.window.isSome = true)
    (idle : s.link.rxBegun = false) : s.inviteUnanswered = s.passToken := by
  rw [State.inviteUnanswered, token]
  simp [Option.isSome_iff_ne_none.1 open_, idle]

/-- The part once the successor is ABSENT, with the record and the notice of the loss. -/
def State.successorGone (a : Nat) (s : State) : State :=
  ((s.onLink fun l => l.setRow a { l.row a with present := false }).append (membershipRecord a .lost)).raise
    .membershipChange

/-- The link once the contribution of a lost successor has been treated (R144). -/
def Link.letGo (clock hold a : Nat) (l : Link) : Link :=
  (l.setRow a { l.row a with present := false }).setRow a
    { l.row a with present := false, contribution := (l.row a).contribution.lost clock hold }

theorem queued_successorGone (a : Nat) (s : State) :
    Queued (s.onLink fun l => l.setRow a { l.row a with present := false }) (s.successorGone a) []
      [membershipRecord a .lost] := (Queued.of_append _ _).trans (.of_raise _ _)

theorem letGo_row (low : 1 ≤ a) (high : a ≤ l.rows.length) (clock hold b : Nat) :
    (l.letGo clock hold a).row b =
      if b = a then
        { l.row a with present := false, contribution := (l.row a).contribution.lost clock hold }
      else l.row b := by
  rw [Link.letGo, Link.setRow_setRow]
  by_cases same : b = a
  · rw [same, if_pos rfl, Link.row_setRow low high]
  · rw [if_neg same, row_setRow_ne same]

theorem any_contributes_congr (h : ∀ b, (m.row b).contributes = (l.row b).contributes) :
    m.rows.any MemberRow.contributes = l.rows.any MemberRow.contributes := by
  rw [Bool.eq_iff_iff, any_contributes_iff, any_contributes_iff]
  exact exists_congr fun b => by rw [h b]

theorem absent_contributes (low : 1 ≤ a) (high : a ≤ l.rows.length) :
    (l.setRow a { l.row a with present := false }).rows.any MemberRow.contributes =
      l.rows.any MemberRow.contributes := by
  refine any_contributes_congr fun b => ?_
  by_cases same : b = a
  · rw [same, Link.row_setRow low high]
    rfl
  · rw [row_setRow_ne same]

theorem letGo_contributes (low : 1 ≤ a) (high : a ≤ l.rows.length) {clock hold : Nat}
    (h : (l.letGo clock hold a).rows.any MemberRow.contributes = true) :
    l.rows.any MemberRow.contributes = true := by
  obtain ⟨b, counts⟩ := any_contributes_iff.1 h
  rw [letGo_row low high, contributes_iff] at counts
  refine any_contributes_iff.2 ⟨b, contributes_iff.2 fun none_ => ?_⟩
  split at counts
  · subst b
    exact counts (by rw [none_]; rfl)
  · exact counts none_

theorem loseSuccessor_lost (line : s.lineOk) (low : 1 ≤ a) (high : a ≤ s.link.rows.length) :
    Lost (s.successorGone a) (s.loseSuccessor a) a ∧
      (s.loseSuccessor a).link = s.link.letGo s.clock s.service.params.emergencyHold a := by
  have queued := queued_successorGone a s
  have link : (s.successorGone a).link = s.link.setRow a { s.link.row a with present := false } := queued.link
  have rest := queued.rest
  have judged : s.loseSuccessor a =
      State.judgeEmergency (.peerLost a)
        { s.successorGone a with link := s.link.letGo s.clock s.service.params.emergencyHold a } := by
    have clock : (s.successorGone a).clock = s.clock := by rw [rest]; rfl
    have service : (s.successorGone a).service = s.service := by rw [rest]; rfl
    have row : (s.successorGone a).link.row a = { s.link.row a with present := false } := by
      rw [link, Link.row_setRow low high]
    have gone : (s.successorGone a).link.setRow a
        { (s.successorGone a).link.row a with
          contribution :=
            ((s.successorGone a).link.row a).contribution.lost (s.successorGone a).clock
              (s.successorGone a).service.params.emergencyHold } =
        s.link.letGo s.clock s.service.params.emergencyHold a := by
      rw [row, link, clock, service]
      rfl
    rw [← gone]
    rfl
  have active : (s.successorGone a).link.rows.any MemberRow.contributes = s.link.rows.any MemberRow.contributes := by
    rw [link]
    exact absent_contributes low high
  have still : (s.successorGone a).lineOk := by
    have emergency : (s.successorGone a).emergency = s.emergency := by rw [rest]; rfl
    rw [State.lineOk, State.lineJudged, emergency, active]
    exact line
  rw [judged]
  exact lost_judgeEmergency still (fun counts => active.trans (letGo_contributes low high counts)) a

/-- What is lost with a successor, seen from before its loss. -/
structure SuccessorLost (s t : State) (a : Nat) : Prop where
  emergency : t.emergency = { s.emergency with line := t.lineJudged }
  frame : t = { s with
    link := t.link, emergency := t.emergency, passage := t.passage, journal := t.journal, host := t.host }
  told : t.tells .membershipChange = true
  same : t.emergency.line = s.emergency.line →
    t.passage = s.passage ∧ Journals s t [membershipRecord a .lost]
  ended : t.emergency.line ≠ s.emergency.line →
    (AisleReleased s t ∧ t.tells .emergencyChange = true) ∧
      Journals s t
        [membershipRecord a .lost, { kind := .emergencyEnd, peer := some a, reason := some .peerLost }]

theorem successorLost_loseSuccessor (line : s.lineOk) (low : 1 ≤ a) (high : a ≤ s.link.rows.length) :
    SuccessorLost s (s.loseSuccessor a) a := by
  obtain ⟨lost, -⟩ := loseSuccessor_lost line low high
  have told : (s.successorGone a).tells .membershipChange = true := State.raise_tells _ _
  have queued := queued_successorGone a s
  generalize s.successorGone a = u at *
  generalize s.loseSuccessor a = t at *
  have frame : u = { s with link := u.link, journal := u.journal, host := u.host } := queued.rest
  have records : Journals s u [membershipRecord a .lost] := ⟨queued.records.grown, queued.records.halted⟩
  have emergency : u.emergency = s.emergency := by rw [frame]
  have passage : u.passage = s.passage := by rw [frame]
  have time : u.time = s.time := by rw [frame]
  have service : u.service = s.service := by rw [frame]
  have same := lost.same
  have ended := lost.ended
  have judged := lost.emergency
  rw [emergency] at same ended judged
  refine ⟨judged, ?_, lost.toNoticed.told _ told, fun still => ?_, fun moved => ?_⟩
  · have copied (x : Link) (e : Emergency) (p : Passage) (j : Journal) (n : HostLink) :
        ({ u with link := x, emergency := e, passage := p, journal := j, host := n } : State) =
          { s with link := x, emergency := e, passage := p, journal := j, host := n } := by rw [frame]
    rw [← copied, lost.emergency]
    exact lost.rest
  · obtain ⟨aisle, journal⟩ := same still
    exact ⟨aisle.trans passage, records.congr journal⟩
  · obtain ⟨released, change, grown⟩ := ended moved
    exact ⟨⟨released.congr passage.symm (by rw [frame]) (by rw [frame]), change⟩,
      records.append grown time (by rw [service])⟩

/-- The token is passed on past the successor lost. -/
theorem SuccessorLost.passed (h : SuccessorLost s t a) : SuccessorLost s t.passToken.pump a := by
  obtain ⟨emergency, frame, told, same, ended⟩ := h
  have rest : t.passToken.pump = { t with link := t.link.pass t.clock, host := t.passToken.pump.host } :=
    State.pump_rest _
  have tells (k : NoticeKind) : t.passToken.pump.tells k = t.tells k := State.pump_tells_eq _ _
  have rows : (t.link.pass t.clock).rows = t.link.rows := ring_rows (ring_pass _ _)
  generalize t.passToken.pump = u at *
  have kept : u.emergency = t.emergency := by rw [rest]
  have passage : u.passage = t.passage := by rw [rest]
  have journal : u.journal = t.journal := by rw [rest]
  have judged : u.lineJudged = t.lineJudged := by
    rw [State.lineJudged, kept, rest]
    show (_ || (t.link.pass t.clock).rows.any _) = _
    rw [rows]
    rfl
  refine ⟨by rw [kept, judged, emergency], ?_, by rw [tells, told], fun still => ?_, fun moved => ?_⟩
  · have copied (x : Link) (n : HostLink) :
        ({ t with link := x, host := n } : State) =
          { s with link := x, emergency := t.emergency, passage := t.passage, journal := t.journal, host := n } := by
      rw [frame]
    rw [kept, passage, journal, ← copied]
    conv_lhs => rw [rest]
    rw [rest]
  · rw [kept] at still
    obtain ⟨aisle, records⟩ := same still
    exact ⟨passage.trans aisle, records.congr journal⟩
  · rw [kept] at moved
    obtain ⟨⟨released, change⟩, records⟩ := ended moved
    exact ⟨⟨released.of_passage passage, by rw [tells, change]⟩, records.congr journal⟩

theorem passToken_told (s : State) :
    Told s s.passToken.pump [] ∧
      s.passToken.pump = { s with link := s.passToken.pump.link, host := s.passToken.pump.host } := onLink_told s _

/-- Settles O50: each kind of frame sent, and each window that closes, by what it finds. -/
theorem framesSentAndWindowsUnanswered : Obligations.FramesSentAndWindowsUnanswered := by
  refine fun s => ⟨fun tx due => ⟨_, linkFrameSent_ends due, ?_⟩, ⟨_, rfl, driveEnable_released (txEnds_tx _)⟩,
    fun shut => ⟨⟨_, congrArg done (passUnanswered_shut shut), done_unchanged s⟩,
      ⟨_, congrArg done (inviteUnanswered_shut shut), done_unchanged s⟩⟩,
    fun before q after tx due queue sent others awaited => ⟨_, linkFrameSent_ends due, ?_⟩,
    fun assert tx due => ⟨_, linkFrameSent_ends due, ?_⟩, fun a tx due => ⟨_, linkFrameSent_ends due, ?_⟩,
    fun a tx due => ⟨_, linkFrameSent_ends due, ?_⟩,
    fun a token open_ => ⟨_, congrArg done (passUnanswered_retries token open_), ?_⟩,
    fun a token open_ line low high full => ⟨_, congrArg done (passUnanswered_loses token open_), ?_⟩,
    fun a token open_ begun => ⟨_, congrArg done (inviteUnanswered_awaits token open_ begun), ?_⟩,
    fun a token open_ idle => ⟨_, congrArg done (inviteUnanswered_fails token open_ idle), ?_⟩⟩
  · rw [txEnds_none tx]
    exact done_unchanged s
  · have data := dataSent_txEnds tx queue sent others (awaited.imp_right fun ⟨online, _, untaken⟩ => ⟨online, untaken⟩)
    generalize s.txEnds = t at *
    refine ⟨?_, ?_, fun k => ?_, data.silent, ?_, ?_, ?_⟩
    · have frame (h : HostLink) : ({ t with host := h } : State) = { s with link := t.link, host := h } := by
        rw [data.rest]
      rw [State.pump_link, ← frame]
      exact State.pump_rest t
    · rw [State.pump_host_window, data.host]
    · rw [State.pump_tells_eq, data.told]
    · rw [State.pump_link, data.syncs]
    · rw [State.pump_formed, data.formed]
    · rw [State.pump_link]
      exact data.goesOn
  · rw [txEnds_emergency tx]
    obtain ⟨told, rest⟩ := onLink_told s fun l => (l.emergencyGone assert).goOn s.clock s.emergency.own
    refine ⟨told, rest, ?_⟩
    rw [State.pump_link]
    exact turnGoesOn_of_still (k := s.link.emergencyGone assert) (still_cutTx
      { s.link with
        sent := s.link.sent + 1, emergencySent := true,
        deassertPending := if assert = true then s.link.deassertPending else false })
  · rw [txEnds_window tx, State.onLink, Link.openWindow, cutTx_undue due]
    exact linked_told s _
  · rw [txEnds_joinReply tx, State.onLink, cutTx_undue due]
    exact linked_told s _
  · obtain ⟨told, rest⟩ := onLink_told s (Link.retryPass a)
    refine ⟨told, rest, ?_⟩
    rw [State.pump_link]
    exact ⟨rfl, rfl, rfl, rfl⟩
  · have inside : a ≤ s.link.rows.length := by rw [full]; exact high
    obtain ⟨emergency, frame, told, same, ended⟩ := (successorLost_loseSuccessor line low inside).passed
    have link := (loseSuccessor_lost line low inside).2
    have row (b : Nat) := letGo_row low inside s.clock s.service.params.emergencyHold b
    have ring := ring_pass (s.loseSuccessor a).link (s.loseSuccessor a).clock
    have passes := pass_passes ring.symm (s.loseSuccessor a).clock
    have rows : (s.loseSuccessor a).passToken.pump.link.rows =
        (s.link.letGo s.clock s.service.params.emergencyHold a).rows := by
      rw [← link, State.pump_link]
      exact ring_rows ring
    have passed : (s.loseSuccessor a).passToken.pump.link =
        (s.loseSuccessor a).link.pass (s.loseSuccessor a).clock := State.pump_link _
    rw [← passed] at passes
    have lost := row a
    rw [if_pos rfl] at lost
    generalize (s.loseSuccessor a).passToken.pump = t at *
    refine ⟨told, ?_, ?_, ?_, emergency, fun still => (same still).1, fun moved => (ended moved).1, ?_, ?_, ?_,
      fun b other => ?_, ?_, passes⟩
    · rw [Link.row_congr rows, lost]
    · rw [Link.row_congr rows, lost]
    · rw [Link.row_congr rows, lost]
      exact lostTo_lost _ _ _
    · rw [frame]
    · rw [frame]
    · rw [frame]
    · rw [Link.row_congr rows, row, if_neg other]
    · split
      · exact (same ‹_›).2
      · exact (ended ‹_›).2
  · obtain ⟨told, rest⟩ := linked_told s { s.link with token := .inviting a true }
    refine ⟨told, ?_⟩
    rw [State.pump_link]
    exact ⟨rest, rfl, rfl⟩
  · obtain ⟨told, rest⟩ := passToken_told s
    have link : s.passToken.pump.link = s.link.pass s.clock := State.pump_link _
    refine ⟨told, rest, ?_⟩
    rw [link]
    exact ⟨ring_rows (ring_pass _ _), pass_passes rfl s.clock⟩

end Sys2Proof.Machine
end

section
/-! A station load: its body read back, its answer, and the restart of the link (R110, R114, R115, R144, R145, R169,
R170). -/

namespace Sys2Proof.Machine

variable {s t u : State} {l m : Link} {a : StationLoad} {b addr clock hold : Nat} {tag : Byte} {kind : ReqKind}
  {r : MemberRow}

/-! ## The body of a SET_STATION (R170, R190) -/

theorem ofCode_code (m : AisleMode) : AisleMode.ofCode m.code = some m := by cases m <;> rfl

/-- A second zone of 0 stands for none. -/
theorem secondZone_getD {z : Option Nat} (low : ∀ n, z = some n → 1 ≤ n) :
    (if z.getD 0 = 0 then none else some (z.getD 0)) = z := by
  cases z with
  | none => rfl
  | some n => exact if_neg (Nat.ne_of_gt (low n rfl))

theorem bytes_length (a : StationLoad) : a.bytes.length = 10 := by
  simp [StationLoad.bytes, Zones.bytes, signedBe]

/-- A station load within its bounds is read as it was written. -/
theorem readStation_bytes (fits : a.inRange) : readStation a.bytes = .value a := by
  obtain ⟨number, numberHigh, first, firstHigh, second, addr, offset, offsetHigh, boundary⟩ := fits
  have secondHigh : a.station.zones.second.getD 0 ≤ 16 ∧ a.station.zones.second.getD 0 ≠ a.station.zones.first := by
    cases zone : a.station.zones.second with
    | none => exact ⟨Nat.zero_le _, fun same => absurd first (by rw [← same]; decide)⟩
    | some n => exact (second n zone).2
  have code : a.station.mode.code < 256 := by cases a.station.mode <;> decide
  have signed : ofSigned 2 (ofBe (signedBe 2 a.offset)) = a.offset :=
    ofSigned_signedBe 2 _ (by norm_num; omega) (by norm_num; omega)
  have fields : fieldAt a.bytes 0 2 = a.station.number ∧ fieldAt a.bytes 2 1 = a.station.zones.first ∧
      fieldAt a.bytes 3 1 = a.station.zones.second.getD 0 ∧ fieldAt a.bytes 4 1 = a.station.mode.code ∧
      fieldAt a.bytes 5 1 = a.addr ∧ ofSigned 2 (fieldAt a.bytes 6 2) = a.offset ∧
      fieldAt a.bytes 8 2 = a.boundary := by
    rw [signedBe] at signed
    unfold StationLoad.bytes Zones.bytes signedBe
    simp only [List.append_assoc]
    refine ⟨?_, ?_, ?_, ?_, ?_, ?_, ?_⟩ <;> simp only [fieldAt_later, fieldAt_here, fieldAt_end, Nat.reduceLeDiff,
      Nat.reduceSub, le_refl]
    · exact ofBe_be (by omega)
    · exact ofBe_be (by omega)
    · exact ofBe_be (by omega)
    · exact ofBe_be (by omega)
    · exact ofBe_be (by omega)
    · exact signed
    · exact ofBe_be (by omega)
  obtain ⟨eNumber, eFirst, eSecond, eMode, eAddr, eOffset, eBoundary⟩ := fields
  unfold readStation
  rw [if_pos (bytes_length a)]
  simp only [eNumber, eFirst, eSecond, eMode, eAddr, eOffset, eBoundary, ofCode_code, Option.getD_some,
    secondZone_getD fun n zone => (second n zone).1]
  refine judged_value _ ?_
  simp [number, numberHigh, first, firstHigh, secondHigh, addr, offset, offsetHigh, boundary]

/-! ## The answer to a load (R169) -/

/-- A load applied has been judged against what is missing and answered. -/
structure LoadAnswered (s t : State) (tag : Byte) (kind : ReqKind) : Prop where
  rest : t = { s with service := t.service, host := t.host }
  service : t.service =
    { s.service with
      state := if s.service.state = .suspended ∧ t.missing.any = true then .outOfService else s.service.state }
  window : t.host.window = s.host.window
  formed : t.formed = s.formed ++ [Reply.inWindow tag kind (.loaded t.service.state t.missing)]
  told : ∀ k, s.tells k = true → t.tells k = true

theorem loadAnswered_reply (untaken : s.host.resetTaken = false)
    (stays : ¬(s.service.state = .suspended ∧ s.missing.any = true)) :
    LoadAnswered s (s.reply tag kind (.loaded s.service.state s.missing)).pump tag kind := by
  have service : (s.reply tag kind (.loaded s.service.state s.missing)).pump.service = s.service := by
    rw [State.pump_service, State.reply_service]
  have rest : (s.reply tag kind (.loaded s.service.state s.missing)).pump =
      { s with host := (s.reply tag kind (.loaded s.service.state s.missing)).pump.host } := by
    refine (State.pump_rest _).trans ?_
    generalize State.host (State.pump _) = host
    rw [State.reply, if_neg (by rw [untaken]; exact Bool.false_ne_true)]
    rfl
  have formed : (s.reply tag kind (.loaded s.service.state s.missing)).pump.formed =
      s.formed ++ [Reply.inWindow tag kind (.loaded s.service.state s.missing)] := by
    rw [State.pump_formed, State.reply_formed _ _ _ _ untaken]
  have window : (s.reply tag kind (.loaded s.service.state s.missing)).pump.host.window = s.host.window := by simp
  have told (k : NoticeKind) : (s.reply tag kind (.loaded s.service.state s.missing)).pump.tells k = s.tells k := by
    rw [State.pump_tells_eq, State.reply_tells]
  generalize State.pump _ = t at *
  have missing : t.missing = s.missing := by
    rw [rest]
    rfl
  refine ⟨?_, ?_, window, by rw [formed, service, missing], fun k tells => by rw [told, tells]⟩
  · rw [service]
    exact rest
  · rw [service, missing, if_neg stays]

theorem loadAnswered_loaded (untaken : s.host.resetTaken = false) (tag : Byte) (kind : ReqKind) :
    LoadAnswered s (s.loaded tag kind).pump tag kind := by
  unfold State.loaded
  by_cases falls : s.service.state = .suspended ∧ s.missing.any = true
  · simp only [if_pos falls]
    have entered : (s.enterService .outOfService).service = { s.service with state := .outOfService } :=
      enterService_service _
    have resetTaken : (s.enterService .outOfService).host.resetTaken = false := untaken ▸ by
      rw [State.enterService, State.raise_host_resetTaken]
      rfl
    obtain ⟨rest, service, window, formed, told⟩ := loadAnswered_reply (tag := tag) (kind := kind) resetTaken
      (fun down => by rw [entered] at down; exact nomatch down.1)
    have kept : (s.enterService .outOfService).missing = s.missing := rfl
    generalize State.pump _ = t at *
    have state : t.service = { s.service with state := .outOfService } := by
      rw [service, entered]
      simp
    have missing : t.missing = s.missing := by
      rw [State.missing, state, rest]
      rfl
    refine ⟨?_, ?_, ?_, ?_, fun k tells => told k ?_⟩
    · conv_lhs => rw [rest]
      rfl
    · rw [missing, if_pos falls, state]
    · rw [window, State.enterService, State.raise_host_window]
      rfl
    · rw [formed, State.enterService, State.raise_formed]
      rfl
    · exact Noticed.told (Noticed.of_raise _ _) k tells
  · simp only [if_neg falls]
    exact loadAnswered_reply untaken falls

end Sys2Proof.Machine
end

section
/-! The restart of the link by a station load (R110, R114, R115, R144, R145, R170). -/

namespace Sys2Proof.Machine

variable {s t u v : State} {l m : Link} {a : StationLoad} {b addr clock hold : Nat} {tag : Byte} {kind : ReqKind}
  {r : MemberRow}

/-! ## The link at rest under an address (R115) -/

/-- The link once every row has been lost, with the address in use and its own row blank. -/
def Link.rested (addr clock hold : Nat) (l : Link) : Link :=
  (Link.restarted addr clock { l.dropToken clock with rows := l.rows.map (MemberRow.lost clock hold) }).setRow addr
    .blank

/-- A row once its member was lost and its last heard time removed. -/
def MemberRow.forgotten (clock hold : Nat) (r : MemberRow) : MemberRow := { r.lost clock hold with lastHeard := none }

theorem forgotten_blank (clock hold : Nat) : MemberRow.blank.forgotten clock hold = .blank := rfl

theorem restarted_rows (addr : Nat) (rows : m.rows = l.rows.map (MemberRow.lost clock hold)) :
    (m.restarted addr clock).rows = l.rows.map (MemberRow.forgotten clock hold) := by
  show m.rows.map _ = _
  rw [rows, List.map_map]
  rfl

theorem rested_rest (l : Link) (addr clock hold : Nat) :
    l.rested addr clock hold =
      { Link.restarted addr clock (l.dropToken clock) with rows := (l.rested addr clock hold).rows } :=
  Link.setRow_rest _ _ _

theorem row_setRow_blank (fits : b ≤ l.rows.length) (x : Nat) :
    (l.setRow b .blank).row x = if x = b then .blank else l.row x := by
  by_cases same : x = b
  · rw [if_pos same, same]
    cases b with
    | zero => rfl
    | succ k => exact Link.row_setRow (Nat.succ_pos k) fits _
  · rw [if_neg same, row_setRow_ne same]

theorem rested_row (fits : addr ≤ l.rows.length) (x : Nat) :
    (l.rested addr clock hold).row x = if x = addr then .blank else (l.row x).forgotten clock hold := by
  have rows := restarted_rows (clock := clock) (hold := hold) addr
    (m := { l.dropToken clock with rows := l.rows.map (MemberRow.lost clock hold) }) rfl
  rw [Link.rested, row_setRow_blank (by rw [rows, List.length_map]; exact fits), row_map (forgotten_blank _ _) rows]

theorem rested_length (l : Link) (addr clock hold : Nat) : (l.rested addr clock hold).rows.length = l.rows.length := by
  have kept (m : Link) (r : MemberRow) : (m.setRow addr r).rows.length = m.rows.length := by
    cases addr with
    | zero => rfl
    | succ k => exact List.length_set
  rw [Link.rested, kept, restarted_rows (hold := hold) addr rfl, List.length_map]

theorem rested_mem (fits : addr ≤ l.rows.length) (member : r ∈ (l.rested addr clock hold).rows) :
    r.present = false ∧ r.lastHeard = none := by
  obtain ⟨x, -, -, rfl⟩ := mem_rows_row member
  rw [rested_row fits]
  split
  · exact ⟨rfl, rfl⟩
  · exact ⟨lost_present _ _ _, rfl⟩

theorem forgotten_contributes (clock hold : Nat) (r : MemberRow) :
    (r.forgotten clock hold).contributes = (r.lost clock hold).contributes := rfl

/-- A row goes on contributing just where it stays held. -/
theorem staysHeld_iff : l.StaysHeld b hold ↔ ((l.row b).lost clock hold).contributes = true := by
  rw [Link.StaysHeld, contributes_iff]
  cases present : (l.row b).present with
  | false => rw [lost_absent present]; cases (l.row b).contribution <;> simp
  | true =>
    rw [lost_contribution present]
    cases (l.row b).contribution <;> simp [Contribution.lost]

theorem rested_allLostTo (fits : addr ≤ l.rows.length) (other : b ≠ addr)
    (rows : m.rows = (l.rested addr clock hold).rows) :
    l.AllLostTo m clock hold b := by
  have row : m.row b = (l.row b).forgotten clock hold := by
    rw [Link.row_congr rows, rested_row fits, if_neg other]
  let k : Link := { l with rows := l.rows.map (MemberRow.lost clock hold) }
  have lost : k.row b = (l.row b).lost clock hold := row_map (lost_absent rfl) rfl b
  have all : l.AllLostTo k clock hold b := allLostTo_of_rows rfl b
  rw [Link.AllLostTo, lost] at all
  rw [Link.AllLostTo, row]
  exact all

/-! ## The restart (R115, R144, R145) -/

/-- The part with its link at rest under an address. -/
def State.restAt (addr : Nat) (s : State) : State := s.onLink (Link.restarted addr s.clock)

/-- The part once the link rests under its address, its own row blank. -/
def State.restarting (addr : Nat) (s : State) : State :=
  ((s.onLink (Link.dropToken s.clock)).loseAll.restAt addr).blankOwnRow

theorem restartLink_eq (s : State) (addr : Nat) :
    s.restartLink addr = ((s.restarting addr).raise .membershipChange).judgeSyncs := by
  rw [State.restartLink, State.restarting, State.restAt]

/-- A row that is made blank contributes no more, and matters only where it contributed. -/
theorem blank_contributes (fits : b ≤ l.rows.length) :
    ((l.setRow b .blank).rows.any MemberRow.contributes = true → l.rows.any MemberRow.contributes = true) ∧
      ((l.row b).contributes = false →
        (l.setRow b .blank).rows.any MemberRow.contributes = l.rows.any MemberRow.contributes) := by
  refine ⟨fun h => ?_, fun silent => any_contributes_congr fun x => ?_⟩
  · obtain ⟨x, counts⟩ := any_contributes_iff.1 h
    rw [row_setRow_blank fits] at counts
    split at counts
    · cases counts
    · exact any_contributes_iff.2 ⟨x, counts⟩
  · rw [row_setRow_blank fits]
    split
    · subst x
      exact silent.symm
    · rfl

theorem Lost.own (h : Lost s t b) : t.emergency.own = s.emergency.own := by
  rw [h.emergency]
  rfl

/-- The own row is made blank where the part restarts under an address of the table. -/
theorem blankOwnRow_lost (line : s.lineOk) (fits : s.link.addr ≤ s.link.rows.length) :
    Lost s s.blankOwnRow s.link.addr ∧ s.blankOwnRow.link = s.link.setRow s.link.addr .blank ∧
      ((s.link.row s.link.addr).contributes = false → s.blankOwnRow.emergency.line = s.emergency.line) := by
  have judged : s.blankOwnRow =
      State.judgeEmergency (.peerLost s.link.addr) { s with link := s.link.setRow s.link.addr .blank } := rfl
  obtain ⟨falls, stays⟩ := blank_contributes (l := s.link) fits
  obtain ⟨lost, link⟩ := lost_judgeEmergency line falls s.link.addr
  rw [← judged] at lost link
  refine ⟨lost, link, fun silent => ?_⟩
  rw [lost.lineOk, line, State.lineJudged, State.lineJudged, lost.own, link, stays silent]

/-- The emergency that ends with a restart ends with the last row ASSERTED, or with the own row where that stayed held
(log 23, 44). -/
def Link.RestartEnds (l : Link) (addr hold b : Nat) : Prop :=
  (l.StaysHeld addr hold → b = addr) ∧ (¬l.StaysHeld addr hold → l.LastAsserting b)

theorem restarting_lost (line : s.lineOk) (full : s.link.rows.length = 16) (fits : addr ≤ 16) :
    ∃ b, Lost s (s.restarting addr) b ∧
      (s.restarting addr).link = s.link.rested addr s.clock s.service.params.emergencyHold ∧
      ((s.restarting addr).emergency.line ≠ s.emergency.line →
        s.link.RestartEnds addr s.service.params.emergencyHold b) := by
  obtain ⟨c, lost, link, last⟩ := loseAll_onLink line full (m := s.link.dropToken s.clock) rfl
  rw [State.restarting, State.onLink]
  generalize State.loseAll _ = u at *
  have clock : u.clock = s.clock := by rw [lost.rest]
  have rested : Lost s (u.restAt addr) c := lost.of_link (by
    show (u.link.rows.map _).any _ = _
    rw [List.any_map]
    rfl)
  have line : (u.restAt addr).emergency.line = u.emergency.line := rfl
  have link : (u.restAt addr).link =
      Link.restarted addr s.clock
        { s.link.dropToken s.clock with
          rows := s.link.rows.map (MemberRow.lost s.clock s.service.params.emergencyHold) } := by
    rw [State.restAt, State.onLink_link, clock, link]
  have held : s.link.StaysHeld addr s.service.params.emergencyHold ↔
      ((u.restAt addr).link.row addr).contributes = true := by
    have row := row_map (forgotten_blank _ _) (restarted_rows (clock := s.clock) addr
      (m := { s.link.dropToken s.clock with
        rows := s.link.rows.map (MemberRow.lost s.clock s.service.params.emergencyHold) }) rfl) addr
    rw [staysHeld_iff (clock := s.clock), ← forgotten_contributes, link, row]
  rw [← line] at last
  generalize u.restAt addr = w at *
  have under : w.link.addr = addr := by rw [link]; rfl
  obtain ⟨blank, blankLink, kept⟩ := blankOwnRow_lost rested.lineOk (by
    rw [under, link, restarted_rows (hold := s.service.params.emergencyHold) addr rfl, List.length_map, full]
    exact fits)
  rw [under] at blank blankLink kept
  refine ⟨_, rested.trans blank, by rw [blankLink, link]; rfl, fun moved => ?_⟩
  by_cases first : w.emergency.line = s.emergency.line
  · rw [if_pos first]
    refine ⟨fun _ => rfl, fun released => absurd ((kept ?_).trans first) moved⟩
    exact eq_false_of_ne_true fun counts => released (held.2 counts)
  · rw [if_neg first]
    refine ⟨fun stays => absurd ?_ first, fun _ => last first⟩
    have active : w.emergency.line = true := by
      rw [rested.lineOk]
      exact Bool.or_eq_true_iff.2 (.inr (any_contributes_iff.2 ⟨addr, held.1 stays⟩))
    rw [active, rested.fell active]

/-- What a restart of the link leaves of the part. -/
structure LinkRestarts (s t : State) (addr : Nat) : Prop where
  rest : t =
    { s with
      link := t.link, emergency := { s.emergency with line := t.lineJudged }, passage := t.passage,
      journal := t.journal, host := t.host }
  host : t.host = { s.host with replies := t.host.replies, notices := t.host.notices }
  link : t.link = (s.link.rested addr s.clock s.service.params.emergencyHold).withoutOver
  told : t.tells .membershipChange = true
  formed : s.host.resetTaken = false →
    t.formed = s.formed ++ (s.link.rested addr s.clock s.service.params.emergencyHold).syncReplies
  same : t.emergency.line = s.emergency.line → t.passage = s.passage ∧ t.journal = s.journal
  ended : t.emergency.line ≠ s.emergency.line →
    AisleReleased s t ∧ t.tells .emergencyChange = true ∧
      ∃ b, s.link.RestartEnds addr s.service.params.emergencyHold b ∧
        Journals s t [{ kind := .emergencyEnd, peer := some b, reason := some .peerLost }]

theorem linkRestarts_restartLink (line : s.lineOk) (full : s.link.rows.length = 16) (fits : addr ≤ 16) :
    LinkRestarts s (s.restartLink addr) addr := by
  obtain ⟨b, lost, link, ends⟩ := restarting_lost line full fits
  rw [restartLink_eq]
  generalize s.restarting addr = u at *
  obtain ⟨rest, host, formed⟩ := judgeSyncs_spec (u.raise .membershipChange)
  have tells := judgeSyncs_tells (u.raise .membershipChange)
  generalize (u.raise .membershipChange).judgeSyncs = t at *
  have noticed := lost.toNoticed.trans (.of_raise u .membershipChange)
  have emergency : t.emergency = u.emergency := by rw [rest]; rfl
  have passage : t.passage = u.passage := by rw [rest]; rfl
  have journal : t.journal = u.journal := by rw [rest]; rfl
  have linked : t.link = u.link.withoutOver := by rw [rest]; rfl
  have judged : t.lineJudged = u.lineJudged := by
    rw [State.lineJudged, emergency, linked]
    rfl
  refine ⟨?_, ?_, by rw [linked, link], ?_, fun untaken => ?_, fun still => ?_, fun moved => ?_⟩
  · have frame (x : Link) (h : HostLink) : ({ u with link := x, host := h } : State) =
        { s with
          link := x, emergency := { s.emergency with line := u.lineJudged }, passage := u.passage,
          journal := u.journal, host := h } := by
      conv_lhs => rw [lost.rest]
    rw [judged, passage, journal, ← frame, linked]
    exact rest
  · rw [host, noticed.host]
  · rw [tells]
    exact State.raise_tells _ _
  · have untaken : (u.raise .membershipChange).host.resetTaken = false := by rw [noticed.host, ← untaken]
    rw [formed, noticed.formed, untaken, if_neg Bool.false_ne_true, ← link]
    rfl
  · rw [passage, journal]
    exact lost.same (by rw [← emergency]; exact still)
  · rw [emergency] at moved
    obtain ⟨released, change, records⟩ := lost.ended moved
    refine ⟨released.of_passage passage, ?_, b, ends moved, records.congr journal⟩
    rw [tells]
    exact Noticed.told (.of_raise u .membershipChange) _ change

/-! ## The SYNC_LINEs outstanding at a restart (R110, R114) -/

theorem rested_state (l : Link) (addr clock hold : Nat) :
    (l.rested addr clock hold).state = if addr = 0 then .offline .noAddress else .listening := by
  rw [rested_rest]
  rfl

theorem rested_syncs (l : Link) (addr clock hold : Nat) : (l.rested addr clock hold).syncs = l.syncs := by
  rw [rested_rest]
  rfl

theorem rested_queue (l : Link) (addr clock hold : Nat) :
    (l.rested addr clock hold).queue = l.cutTx.queue := by
  rw [rested_rest]
  show l.cutTx.cutTx.queue = _
  simp [Link.cutTx, Function.comp_def]

/-- Under address 0 each is answered OFFLINE. -/
theorem rested_offline (l : Link) (clock hold : Nat) :
    (l.rested 0 clock hold).withoutOver.syncs = [] ∧
      (l.rested 0 clock hold).syncReplies = l.syncs.map fun y => Reply.inWindow y.tag .syncLine .offline := by
  have state := rested_state l 0 clock hold
  rw [if_pos rfl] at state
  refine ⟨withoutOver_offline state, ?_⟩
  rw [syncReplies_offline state, rested_syncs]

/-- Under any other address those stay that have a marked frame queued. -/
theorem rested_marked (some_ : addr ≠ 0) (marked : ∀ y ∈ l.syncs, ∃ q ∈ l.queue, y.tag ∈ q.marks) (clock hold : Nat) :
    (l.rested addr clock hold).withoutOver.syncs = l.syncs ∧ (l.rested addr clock hold).syncReplies = [] := by
  have state := rested_state l addr clock hold
  rw [if_neg some_] at state
  have online : ∀ reason, (l.rested addr clock hold).state ≠ .offline reason := fun _ offline =>
    nomatch state.symm.trans offline
  have found : ∀ y ∈ l.syncs,
      ((l.rested addr clock hold).queue.any fun q => q.marks.contains y.tag) = true := by
    intro y member
    obtain ⟨q, queued, mark⟩ := marked y member
    rw [rested_queue]
    exact List.any_eq_true.2 ⟨_, List.mem_map_of_mem queued, List.contains_iff_mem.2 mark⟩
  rw [withoutOver_online online, syncReplies_online online, rested_syncs]
  refine ⟨List.filter_eq_self.2 found, ?_⟩
  rw [List.filter_eq_nil_iff.2 fun y member => by rw [found y member]; exact Bool.false_ne_true,
    List.map_nil]

/-- What the statements say of the link at rest. -/
theorem rested_fields (l : Link) (addr clock hold : Nat) :
    (l.rested addr clock hold).addr = addr ∧ (l.rested addr clock hold).token = .waiting ∧
      (l.rested addr clock hold).turn = 0 ∧
      (l.rested addr clock hold).pointer = (if addr = 0 then 1 else addr) ∧
      (l.rested addr clock hold).tx = none ∧ (l.rested addr clock hold).deassertPending = l.deassertPending := by
  rw [rested_rest]
  exact ⟨rfl, rfl, rfl, rfl, rfl, rfl⟩

theorem rested_unsent {q : QItem} (h : q ∈ (l.rested addr clock hold).withoutOver.queue) : q.inTx = false := by
  obtain ⟨x, among, rfl⟩ := List.mem_map.1 h
  rw [rested_queue] at among
  obtain ⟨y, -, rfl⟩ := List.mem_map.1 among
  rfl

/-! ## The load as a whole (R169, R170) -/

/-- The part with the request taken and the station's settings set. -/
def State.withSettings (a : StationLoad) (tag : Byte) (s : State) : State :=
  { s.endHostFrame.enter tag with
    service := { s.service with station := some a.station },
    time := { s.time with offset := a.offset, boundary := a.boundary } }

theorem setStation_loads (loads : s.service.pauses) (fits : a.inRange) (admitted : s.admits tag .setStation) :
    exec (.setStation tag a.bytes) s =
      .next
        (State.loaded tag .setStation
          (if s.link.restartsFor a.addr = true then (s.withSettings a tag).restartLink a.addr
          else s.withSettings a tag)).pump := by
  have run : exec (.setStation tag a.bytes) s =
      loadRequest tag .setStation (readStation a.bytes) State.applyStation s := rfl
  rw [run, readStation_bytes fits, loadRequest_value a _ admitted loads]
  rfl

theorem restartsFor_iff (l : Link) (addr : Nat) :
    l.restartsFor addr = true ↔ l.addr ≠ addr ∨ l.state = .offline .conflict := by
  simp [Link.restartsFor]

/-- What holds of the part whether the link restarts or not. -/
theorem LoadAnswered.settled {kind : ReqKind} (h : LoadAnswered v t tag kind)
    (host : v.host.window = s.host.window ++ [tag])
    (service : v.service = { s.service with station := some a.station })
    (time : v.time = { s.time with offset := a.offset, boundary := a.boundary }) :
    t.service =
        { s.service with
          station := some a.station,
          state := if s.service.state = .suspended ∧ t.missing.any = true then .outOfService else s.service.state } ∧
      t.time = { s.time with offset := a.offset, boundary := a.boundary } ∧ t.host.window = s.host.window ++ [tag] ∧
      Reply.inWindow tag kind (.loaded t.service.state t.missing) ∈ t.formed := by
  refine ⟨?_, ?_, h.window.trans host, ?_⟩
  · rw [h.service, service]
  · rw [h.rest, ← time]
  · rw [h.formed]
    exact List.mem_append_right _ List.mem_cons_self

/-- The emergency and the aisle after a restart are as it left them when the load has been answered. -/
theorem LinkRestarts.answered (h : LinkRestarts s v addr) (k : LoadAnswered v t tag kind) :
    t.emergency = { s.emergency with line := t.lineJudged } ∧
      (t.emergency.line = s.emergency.line → t.passage = s.passage ∧ t.journal = s.journal) ∧
      (t.emergency.line ≠ s.emergency.line →
        AisleReleased s t ∧ t.tells .emergencyChange = true ∧
          ∃ b, s.link.RestartEnds addr s.service.params.emergencyHold b ∧
            Journals s t [{ kind := .emergencyEnd, peer := some b, reason := some .peerLost }]) := by
  have emergency : t.emergency = v.emergency := by rw [k.rest]
  have passage : t.passage = v.passage := by rw [k.rest]
  have journal : t.journal = v.journal := by rw [k.rest]
  have judged : t.lineJudged = v.lineJudged := by
    rw [State.lineJudged, emergency, k.rest]
    rfl
  rw [emergency, judged, passage, journal]
  refine ⟨congrArg State.emergency h.rest, h.same, fun moved => ?_⟩
  obtain ⟨released, change, b, ends, records⟩ := h.ended moved
  exact ⟨released.of_passage passage, k.told _ change, b, ends, records.congr journal⟩

/-- Settles O17: the settings are set and the load answered with the link as it stands, or at rest under its address
with every row lost and the own row blank. -/
theorem stationLoadReachesEachBlock : Obligations.StationLoadReachesEachBlock := by
  intro s tag a loads fits line full admitted
  have run := setStation_loads loads fits admitted
  have addr : a.addr ≤ 16 := by
    obtain ⟨-, -, -, -, -, addr, -⟩ := fits
    exact addr
  have untaken : (s.withSettings a tag).host.resetTaken = false := ((State.admits_iff s tag .setStation).1 admitted).1
  refine ⟨_, run, ?_⟩
  by_cases restarts : s.link.restartsFor a.addr = true
  · have h : LinkRestarts (s.withSettings a tag) ((s.withSettings a tag).restartLink a.addr) a.addr :=
      linkRestarts_restartLink (s := s.withSettings a tag) line full addr
    rw [if_pos restarts]
    generalize (s.withSettings a tag).restartLink a.addr = v at *
    have k : LoadAnswered v (v.loaded tag .setStation).pump tag .setStation :=
      loadAnswered_loaded (by rw [h.host]; exact untaken) tag .setStation
    generalize (v.loaded tag .setStation).pump = t at *
    obtain ⟨service, time, window, formed⟩ := k.settled (s := s) (a := a) (by rw [h.host]; rfl) (by rw [h.rest]; rfl)
      (by rw [h.rest]; rfl)
    obtain ⟨emergency, same, ended⟩ := h.answered k
    have link : t.link = (s.link.rested a.addr s.clock s.service.params.emergencyHold).withoutOver := by
      rw [k.rest]
      exact h.link
    obtain ⟨under, token, turn, pointer, tx, deassert⟩ :=
      rested_fields s.link a.addr s.clock s.service.params.emergencyHold
    have rows : t.link.rows = (s.link.rested a.addr s.clock s.service.params.emergencyHold).rows := by rw [link]; rfl
    have fits : a.addr ≤ s.link.rows.length := by rw [full]; exact addr
    have answers := h.formed untaken
    refine ⟨service, time, window, formed, fun stays up => ?_,
      fun _ => ⟨k.told _ h.told, ?_, ?_, ?_, ?_, ?_, ?_, ?_, ?_,
      fun q queued => ?_, fun none_ => ?_, fun some_ marked => ?_, ?_, fun r member => ?_, fun b _ _ other =>
      rested_allLostTo fits other rows, ?_, emergency, same, fun moved => ?_, ?_, ?_, ?_, ?_⟩⟩
    · exact absurd ((restartsFor_iff _ _).1 restarts) (not_or.2 ⟨not_not.2 stays, up⟩)
    · rw [link]
      exact under
    · rw [link]
      exact rested_state _ _ _ _
    · rw [link]
      exact token
    · rw [link]
      exact turn
    · rw [link]
      exact pointer
    · rw [link]
      exact tx
    · rw [link]
      exact deassert
    · rw [link, withoutOver_msgs, rested_queue, cutTx_msgs]
    · rw [link] at queued
      exact rested_unsent queued
    · rw [none_] at link answers
      obtain ⟨syncs, replies⟩ := rested_offline s.link s.clock s.service.params.emergencyHold
      refine ⟨by rw [link, syncs], ?_⟩
      rw [k.formed, answers]
      exact congrArg (s.formed ++ · ++ _) replies
    · obtain ⟨syncs, replies⟩ := rested_marked some_ marked s.clock s.service.params.emergencyHold
      refine ⟨by rw [link, syncs], ?_⟩
      rw [k.formed, answers]
      exact congrArg (· ++ _) ((congrArg (s.formed ++ ·) replies).trans (List.append_nil _))
    · rw [rows, rested_length, full]
    · rw [rows] at member
      exact rested_mem fits member
    · rw [Link.row_congr rows, rested_row fits, if_pos rfl]
      rfl
    · obtain ⟨released, change, b, ⟨held, last⟩, records⟩ := ended moved
      exact ⟨released.congr rfl rfl rfl, change, b, held, last, records.grown, records.halted⟩
    · rw [k.rest, h.rest]
      rfl
    · rw [k.rest, h.rest]
      rfl
    · rw [k.rest, h.rest]
      rfl
    · rw [k.rest, h.rest]
      rfl
  · rw [if_neg restarts]
    have k := loadAnswered_loaded untaken tag .setStation
    generalize ((s.withSettings a tag).loaded tag .setStation).pump = t at *
    obtain ⟨service, time, window, formed⟩ := k.settled (s := s) (a := a) rfl rfl rfl
    refine ⟨service, time, window, formed, fun _ _ => ⟨?_, k.formed⟩, fun moved => ?_⟩
    · rw [time]
      exact k.rest
    · exact absurd ((restartsFor_iff _ _).2 moved) restarts

end Sys2Proof.Machine
end

section
/-! Hold-open: the leaves where the command puts them, and the requests that give and take it (R133, R134, R138). -/

namespace Sys2Proof.Machine

variable {s u : State} {tag : Byte} {kind : ReqKind} {hold : Bool}

/-! ## Requests that change the aisle (R179, R180) -/

/-- A request is answered, and nothing told, where its owner leaves the host link as the request found it. -/
theorem answered_of_host (admitted : s.admits tag kind) (host : u.host = (s.asked tag).host) (body : ReplyBody) :
    Answered s (u.reply tag kind body).pump tag kind body ∧
      (u.reply tag kind body).pump.host.notices = s.host.notices := by
  have untaken := ((State.admits_iff s tag kind).1 admitted).1
  have formed : u.formed = s.formed := by
    rw [State.formed, host]
    rfl
  refine ⟨.of_reply body untaken (by rw [host]; rfl) formed (by rw [host]; rfl) (by rw [host]; rfl) (by rw [host]; rfl)
    (by rw [host]; rfl) (by rw [host]; exact ⟨rfl, rfl⟩) (by rw [host]; rfl) (by rw [host]; rfl), ?_⟩
  rw [State.reply_pump_notices body (by rw [host]; exact untaken), host]
  rfl

/-- A request whose owner changes the aisle and replies: nothing but that and the reply has happened. -/
theorem answered_onPassage (admitted : s.admits tag kind) (f : Passage → Passage) (body : ReplyBody) :
    let t := (((s.asked tag).onPassage f).reply tag kind body).pump
    Answered s t tag kind body ∧ t.host.notices = s.host.notices ∧
      t = { s with passage := t.passage, host := t.host } ∧ t.passage = f s.passage := by
  obtain ⟨answered, notices⟩ := answered_of_host (u := (s.asked tag).onPassage f) admitted rfl body
  have passage : (((s.asked tag).onPassage f).reply tag kind body).pump.passage = f s.passage := by
    rw [State.pump_passage, State.reply_passage]
    rfl
  refine ⟨answered, notices, ?_, passage⟩
  rw [passage]
  exact reply_pump_rest ..

/-! ## Leaves that stand as they are asked (R133, R134) -/

/-- The leaf states in which command, hold-open and line emergency ask for no travel (R134). -/
theorem leavesSettled_iff :
    s.leavesSettled ↔
      (s.passage.leaf = .closed ∨ s.passage.leaf = .closing → s.commandOpen = false) ∧
      (s.passage.leaf = .opened → s.alarmsSuppressed = false ∧ (s.commandOpen = true ∨ s.pins.leaf = true)) ∧
      (s.passage.leaf = .heldOpen → s.alarmsSuppressed = true) := by
  have moved : s.leavesSettled ↔
      s.settleLeaves.passage.leaf = s.passage.leaf ∧ s.settleLeaves.passage.travel = s.passage.travel := by
    refine ⟨fun settled => ⟨congrArg (fun t => t.passage.leaf) settled, congrArg (fun t => t.passage.travel) settled⟩,
      fun ⟨leaf, travel⟩ => ?_⟩
    rw [State.leavesSettled, settleLeaves_rest, leaf, travel]
  rw [moved]
  unfold State.settleLeaves State.closeIfClear
  cases leaf : s.passage.leaf <;> cases command : s.commandOpen <;> cases held : s.alarmsSuppressed <;>
    cases zone : s.pins.leaf <;>
    simp_all [State.commandOpen, State.alarmsSuppressed, Passage.travelTo, Passage.rest]

theorem leavesSettled_asked (tag : Byte) (settled : s.leavesSettled) : (s.asked tag).leavesSettled :=
  (leavesSettled_iff (s := s.asked tag)).2 ((leavesSettled_iff (s := s)).1 settled)

/-! ## Hold-open (R133, R134, R138) -/

/-- The aisle with hold-open in force, its leaves following (R133, R134). -/
def Passage.held (clock : Nat) (g : Passage) : Passage :=
  match g.leaf with
  | .closed | .closing => { g.travelTo clock .opening with holdOpen := true }
  | .opened => { g.rest .heldOpen with holdOpen := true }
  | .opening | .heldOpen | .fault => { g with holdOpen := true }

/-- The aisle with hold-open given up, its leaves following (R133, R134). -/
def State.unheld (s : State) : Passage :=
  { s.passage with
    holdOpen := false,
    leaf :=
      if s.passage.leaf = .heldOpen ∧ s.emergency.line = false then
        if s.passage.credits = [] ∧ s.pins.leaf = false then .closing else .opened
      else s.passage.leaf,
    travel :=
      if s.passage.leaf = .heldOpen ∧ s.emergency.line = false then
        if s.passage.credits = [] ∧ s.pins.leaf = false then some (s.clock + 1500) else none
      else s.passage.travel }

theorem setHold_same (same : s.passage.holdOpen = hold) : s.setHold hold = s := if_pos same

theorem setHold_true (free : s.passage.holdOpen = false) : s.setHold true = s.onPassage (Passage.held s.clock) := by
  rw [State.setHold, if_neg (by rw [free]; exact Bool.false_ne_true)]
  unfold State.settleLeaves
  cases leaf : s.passage.leaf <;>
    simp [leaf, State.commandOpen, State.alarmsSuppressed, Passage.held, State.onPassage, Passage.travelTo,
      Passage.rest]

theorem setHold_false (held : s.passage.holdOpen = true) (settled : s.leavesSettled) :
    s.setHold false = s.onPassage fun _ => s.unheld := by
  obtain ⟨shut, open_, -⟩ := leavesSettled_iff.1 settled
  rw [State.commandOpen, held] at shut
  rw [State.alarmsSuppressed, held] at open_
  rw [State.setHold, if_neg (by rw [held]; exact Bool.noConfusion)]
  unfold State.settleLeaves State.closeIfClear State.unheld
  cases leaf : s.passage.leaf with
  | closed | closing => simp [leaf] at shut
  | opened => simp [leaf] at open_
  | opening | fault => simp [leaf, State.onPassage]
  | heldOpen =>
    cases line : s.emergency.line <;> cases credits : s.passage.credits <;> cases zone : s.pins.leaf <;>
      simp [leaf, line, credits, zone, State.commandOpen, State.alarmsSuppressed, State.onPassage, Passage.travelTo,
        Passage.rest, Config.travelMs]

/-- Settles O25: hold-open changes the aisle alone, and the reply is formed beside it. -/
theorem holdOpenMovesTheLeaves : Obligations.HoldOpenMovesTheLeaves := by
  refine fun s tag => ⟨fun admitted => ⟨fun fault => ?_, fun sound held => ?_, fun sound free => ?_⟩,
    fun admitted => ⟨fun free => ?_, fun held settled => ?_⟩⟩
  · exact request_replies admitted rfl (if_pos fault)
  · exact request_replies admitted rfl ((if_neg sound).trans (congrArg _ (setHold_same (s := s.asked tag) held)))
  · have run : exec (.holdOpen tag []) s = .next ((s.asked tag).holdOpen tag).pump := request_value () _ admitted
    have path : (s.asked tag).holdOpen tag =
        ((s.asked tag).onPassage (Passage.held s.clock)).reply tag .holdOpen .ok :=
      (if_neg sound).trans (congrArg _ (setHold_true (s := s.asked tag) free))
    obtain ⟨answered, notices, rest, passage⟩ := answered_onPassage admitted (Passage.held s.clock) .ok
    refine ⟨_, run.trans (by rw [path]), answered, notices, rest, ?_⟩
    rw [passage, Passage.held]
    cases s.passage.leaf <;> rfl
  · exact request_replies admitted rfl (congrArg (State.reply tag .holdRelease .ok) (setHold_same free))
  · have run : exec (.holdRelease tag []) s = .next ((s.asked tag).holdRelease tag).pump := request_value () _ admitted
    have path : (s.asked tag).holdRelease tag =
        ((s.asked tag).onPassage fun _ => s.unheld).reply tag .holdRelease .ok :=
      congrArg (State.reply tag .holdRelease .ok)
        (setHold_false (s := s.asked tag) held (leavesSettled_asked tag settled))
    obtain ⟨answered, notices, rest, passage⟩ := answered_onPassage admitted (fun _ => s.unheld) .ok
    exact ⟨_, run.trans (by rw [path]), answered, notices, rest, passage⟩

end Sys2Proof.Machine
end

section
/-! The end of a leaf travel and of a GATE_RESET (R134, R136). -/

namespace Sys2Proof.Machine

variable {s t u : State} {tag : Byte} {kind : ReqKind} {body : ReplyBody}

/-! ## A request whose reply is withheld (R180) -/

/-- A request stands in the window, and nothing was told, where its owner leaves the host link as it found it. -/
theorem withheld_of_host (host : u.host = (s.asked tag).host) : Withheld s u.pump tag [] := by
  have formed : u.formed = s.formed := by
    rw [State.formed, host]
    rfl
  have sending (busy : s.host.tx.isSome = true) : u.host.tx.isSome = true := by rwa [host]
  exact
    { window := by rw [State.pump_host_window, host]; rfl
      formed := (State.pump_formed u).trans formed
      sending := fun busy => (State.pump_sending (sending busy)).trans (by rw [host]; rfl)
      speed := by rw [State.pump_host_speed, host]; rfl
      hunting := by rw [State.pump_host_rxInFrame, host]; rfl
      resetTaken := by rw [State.pump_host_resetTaken, host]; rfl
      results := by rw [State.pump_host_tapU, State.pump_host_tapP, host]; exact ⟨rfl, rfl⟩
      finding := by rw [State.pump_host_finding, host]; rfl
      findings := fun busy => by
        rw [(State.pump_replying (.inr (sending busy))).2, host]
        rfl
      told := fun k => by
        rw [State.pump_tells_eq, State.tells, host, List.contains_nil, Bool.or_false]
        rfl }

/-! ## A GATE_RESET is judged (R136) -/

/-- A reply changes the host link alone. -/
theorem reply_rest (s : State) (tag : Byte) (kind : ReqKind) (body : ReplyBody) :
    s.reply tag kind body = { s with host := (s.reply tag kind body).host } := by
  unfold State.reply
  split <;> rfl

/-- The replies that the end of a GATE_RESET forms: none once a RESET is taken (R136, R184). -/
def State.gateAnswers (s : State) (body : ReplyBody) : List Reply :=
  if s.host.resetTaken = true then []
  else s.passage.gateReset.toList.map fun tag => Reply.inWindow tag .gateReset body

/-- The aisle is another, these replies were formed, and nothing else has happened. -/
structure AisleAnswers (s t : State) (aisle : Passage) (answers : List Reply) : Prop where
  rest : t = { s with passage := aisle, host := t.host }
  formed : t.formed = s.formed ++ answers
  window : t.host.window = s.host.window
  tells : ∀ k, t.tells k = s.tells k

theorem AisleAnswers.refl (s : State) : AisleAnswers s s s.passage [] := ⟨rfl, by simp, rfl, fun _ => rfl⟩

/-- In a state that ends a travel an outstanding GATE_RESET is answered; without one nothing happens (R136). -/
theorem judgeGateReset_ended (reached : s.passage.leaf.resetReply = some body) :
    AisleAnswers s s.judgeGateReset { s.passage with gateReset := none } (s.gateAnswers body) := by
  unfold State.judgeGateReset
  rw [reached]
  cases waiting : s.passage.gateReset with
  | none => exact ⟨by simp [← waiting], by simp [State.gateAnswers, waiting], rfl, fun _ => rfl⟩
  | some tag =>
    let w : State := s.onPassage fun g => { g with gateReset := none }
    show AisleAnswers s (w.reply tag .gateReset body) w.passage _
    refine ⟨reply_rest w .., ?_, State.reply_host_window .., fun k => State.reply_tells ..⟩
    rw [State.gateAnswers, waiting]
    cases taken : s.host.resetTaken with
    | true => simp [State.reply, State.formed, taken, w]
    | false => exact State.reply_formed w tag .gateReset body taken

/-- While the leaves travel a GATE_RESET goes on waiting (R136). -/
theorem judgeGateReset_travelling (travels : s.passage.leaf.resetReply = none) : s.judgeGateReset = s := by
  unfold State.judgeGateReset
  rw [travels]
  cases s.passage.gateReset <;> rfl

/-! ## A GATE_RESET is taken (R136) -/

/-- The aisle with a GATE_RESET taken: the leaves leave FAULT towards the command (R136). -/
def State.resetting (tag : Byte) (s : State) : Passage :=
  { s.passage.travelTo s.clock (if s.commandOpen then .opening else .closing) with gateReset := some tag }

/-- Settles O26: a GATE_RESET changes the leaves, and a waiting request may be granted; it is answered as soon as the
leaves are in no travel. -/
theorem gateResetTravelsFromFault : Obligations.GateResetTravelsFromFault := by
  refine fun s => ⟨fun tag admitted => ⟨fun sound => ?_, fun fault => ?_⟩,
    fun tag waiting untaken => ⟨fun rests => ?_, fun travels => ?_⟩⟩
  · exact request_replies admitted rfl (if_neg sound)
  · have run : exec (.gateReset tag []) s = .next ((s.asked tag).gateReset tag).pump := request_value () _ admitted
    have path : (s.asked tag).gateReset tag = ((s.asked tag).onPassage fun _ => s.resetting tag).judgeWaiting :=
      if_pos fault
    have granted : Regranted ((s.asked tag).onPassage fun _ => s.resetting tag) ((s.asked tag).gateReset tag) := by
      rw [path]
      exact regranted_judgeWaiting
    have unwaited (waitU : s.passage.claim.waitU = false) (waitP : s.passage.claim.waitP = false) :
        (s.asked tag).gateReset tag = (s.asked tag).onPassage fun _ => s.resetting tag :=
      path.trans (judgeWaiting_unwaited (by rintro (_ | _) <;> assumption))
    refine ⟨_, run, ?_⟩
    generalize (s.asked tag).gateReset tag = u at granted unwaited
    obtain ⟨rest, passage, -, -, -⟩ := granted
    have leaves : u.passage.leaf = (s.resetting tag).leaf ∧ u.passage.travel = (s.resetting tag).travel ∧
        u.passage.gateReset = some tag := by
      rw [passage]
      exact ⟨rfl, rfl, rfl⟩
    obtain ⟨leaf, travel, outstanding⟩ := leaves
    rw [State.pump_passage, State.pump_portU, State.pump_portP]
    refine ⟨withheld_of_host (by rw [rest]; rfl), leaf, travel, outstanding, ?_, fun waitU waitP => ?_⟩
    · refine u.pump_rest.trans ?_
      generalize u.pump.host = host
      rw [rest]
      rfl
    · rw [unwaited waitU waitP]
      exact ⟨rfl, rfl, rfl⟩
  · have reached : s.passage.leaf.resetReply =
        some (if s.passage.leaf = .fault then .fault else .gate s.passage.leaf) := by
      obtain leaf | leaf | leaf | leaf := rests <;> rw [leaf] <;> rfl
    obtain ⟨rest, formed, window, -⟩ := judgeGateReset_ended reached
    have passage : s.judgeGateReset.pump.passage = { s.passage with gateReset := none } := by
      rw [State.pump_passage, rest]
    refine ⟨s.judgeGateReset.pump, rfl, ?_, passage, ?_, ?_⟩
    · rw [passage]
      refine (State.pump_rest _).trans ?_
      generalize s.judgeGateReset.pump.host = host
      rw [rest]
    · rw [State.pump_host_window, window]
    · rw [State.pump_formed, formed, State.gateAnswers, if_neg (by rw [untaken]; exact Bool.false_ne_true), waiting]
      rfl
  · have travelling : s.passage.leaf.resetReply = none := by obtain leaf | leaf := travels <;> rw [leaf] <;> rfl
    exact ⟨s.pump, congrArg done (judgeGateReset_travelling travelling), .of_host rfl, s.pump_rest⟩

/-! ## The position switches (R134) -/

/-- Where an opening travel leads: held open where hold-open or the emergency asks for it, and where the command is
CLOSED and LEAF clear on to a closing travel (R134). -/
def State.openedLeaf (s : State) : LeafState :=
  if s.passage.holdOpen = true ∨ s.emergency.line = true then .heldOpen
  else if s.passage.credits ≠ [] ∨ s.pins.leaf = true then .opened else .closing

/-- The travel timer after an opening travel: none but that of the closing travel that follows (R134). -/
def State.openedTravel (s : State) : Option Nat :=
  if s.passage.holdOpen = true ∨ s.emergency.line = true ∨ s.passage.credits ≠ [] ∨ s.pins.leaf = true then none
  else some (s.clock + 1500)

theorem settleLeaves_opened (reached : s.passage.leaf = s.openRest) (ended : s.passage.travel = none) :
    s.settleLeaves =
      s.onPassage fun g => { g with leaf := s.openedLeaf, travel := s.openedTravel } := by
  rw [settleLeaves_rest]
  have leaves : s.settleLeaves.passage.leaf = s.openedLeaf ∧ s.settleLeaves.passage.travel = s.openedTravel := by
    unfold State.settleLeaves State.closeIfClear State.openedLeaf State.openedTravel
    rw [reached]
    cases hold : s.passage.holdOpen <;> cases line : s.emergency.line <;> cases credits : s.passage.credits <;>
      cases zone : s.pins.leaf <;>
      simp [State.openRest, State.alarmsSuppressed, State.commandOpen, ended, hold, line, credits, reached,
        Passage.travelTo, Config.travelMs]
  rw [leaves.1, leaves.2]
  rfl

/-- The end of an opening travel: the GATE_RESET is answered with the state reached, then the OPEN rows apply (R134,
R136). -/
theorem opened_opening (opening : s.passage.leaf = .opening) :
    AisleAnswers s s.opened { s.passage with leaf := s.openedLeaf, travel := s.openedTravel, gateReset := none }
      (s.gateAnswers (.gate s.openRest)) := by
  let v := s.onPassage (Passage.rest s.openRest)
  have reached : v.passage.leaf.resetReply = some (.gate s.openRest) := by
    show s.openRest.resetReply = _
    unfold State.openRest
    split <;> rfl
  obtain ⟨rest, formed, window, tells⟩ := judgeGateReset_ended reached
  have path : s.opened = v.judgeGateReset.settleLeaves := if_pos opening
  have settled := settleLeaves_opened (s := v.judgeGateReset) (by rw [rest]; rfl) (by rw [rest]; rfl)
  have leaf : v.judgeGateReset.openedLeaf = s.openedLeaf := by rw [rest]; rfl
  have travel : v.judgeGateReset.openedTravel = s.openedTravel := by rw [rest]; rfl
  rw [leaf, travel] at settled
  rw [path, settled]
  generalize v.judgeGateReset = w at *
  exact ⟨by rw [rest]; rfl, formed, window, tells⟩

/-- The end of a closing travel (R134, R136). -/
theorem closed_closing (closing : s.passage.leaf = .closing) :
    AisleAnswers s s.closed { s.passage with leaf := .closed, travel := none, gateReset := none }
      (s.gateAnswers (.gate .closed)) := by
  have ended := judgeGateReset_ended (s := s.onPassage (Passage.rest .closed)) rfl
  rw [State.closed, if_pos closing]
  obtain ⟨rest, formed, window, tells⟩ := ended
  exact ⟨rest, formed, window, tells⟩

theorem gateAnswers_untaken (untaken : s.host.resetTaken = false) (body : ReplyBody) :
    s.gateAnswers body = s.passage.gateReset.toList.map fun tag => Reply.inWindow tag .gateReset body :=
  if_neg (by rw [untaken]; exact Bool.false_ne_true)

/-- What a switch does, its pin moved and then the leaves. -/
theorem AisleAnswers.switched {f : Pins → Pins} {aisle : Passage} {answers : List Reply}
    (h : AisleAnswers (s.onPins f) u aisle answers) :
    u.pump = { s with pins := f s.pins, passage := u.pump.passage, host := u.pump.host } ∧
      (∀ k, u.pump.tells k = s.tells k) ∧ u.pump.host.window = s.host.window ∧ u.pump.passage = aisle ∧
      u.pump.formed = s.formed ++ answers := by
  obtain ⟨rest, formed, window, tells⟩ := h
  have passage : u.pump.passage = aisle := by rw [State.pump_passage, rest]
  refine ⟨?_, fun k => (State.pump_tells_eq u k).trans (tells k), (State.pump_host_window u).trans window, passage,
    (State.pump_formed u).trans formed⟩
  rw [passage]
  refine u.pump_rest.trans ?_
  generalize u.pump.host = host
  rw [rest]
  rfl

/-- Settles O34: a switch changes its pin, and its travel ends where it is under way. -/
theorem switchesEndTheTravels : Obligations.SwitchesEndTheTravels := by
  refine fun s => ⟨⟨(s.onPins fun p => { p with openSwitch := true }).opened.pump, rfl, ?_⟩,
    ⟨(s.onPins fun p => { p with closedSwitch := true }).closed.pump, rfl, ?_⟩, fun switch => ?_⟩
  · by_cases opening : s.passage.leaf = .opening
    · obtain ⟨rest, tells, window, passage, formed⟩ := (opened_opening (s := s.onPins _) opening).switched
      refine ⟨rest, tells, window, fun still => absurd opening still, fun _ => ⟨passage, fun untaken => ?_⟩⟩
      rw [formed, gateAnswers_untaken (s := s.onPins _) untaken, State.openRest, State.alarmsSuppressed]
      simp only [Bool.or_eq_true]
      rfl
    · have path : (s.onPins fun p => { p with openSwitch := true }).opened = s.onPins _ := if_neg opening
      obtain ⟨rest, tells, window, passage, formed⟩ := (AisleAnswers.refl (s.onPins _)).switched
      rw [path]
      exact ⟨rest, tells, window, fun _ => ⟨passage, formed.trans (List.append_nil _)⟩,
        fun moving => absurd moving opening⟩
  · by_cases closing : s.passage.leaf = .closing
    · obtain ⟨rest, tells, window, passage, formed⟩ := (closed_closing (s := s.onPins _) closing).switched
      refine ⟨rest, tells, window, fun still => absurd closing still, fun _ => ⟨passage, fun untaken => ?_⟩⟩
      rw [formed, gateAnswers_untaken (s := s.onPins _) untaken]
      rfl
    · have path : (s.onPins fun p => { p with closedSwitch := true }).closed = s.onPins _ := if_neg closing
      obtain ⟨rest, tells, window, passage, formed⟩ := (AisleAnswers.refl (s.onPins _)).switched
      rw [path]
      exact ⟨rest, tells, window, fun _ => ⟨passage, formed.trans (List.append_nil _)⟩,
        fun moving => absurd moving closing⟩
  · cases switch <;> exact ⟨_, rfl, .of_host rfl, State.pump_rest _⟩

end Sys2Proof.Machine
end

section
/-! Alarms: what one raises, however often, and ALARM_CLEAR (R130 to R132). -/

namespace Sys2Proof.Machine

variable {s t u v : State} {kind : AlarmKind} {side : Option Side} {named : Latches} {tag : Byte} {n : Nat}

/-! ## Latches (R130, R132) -/

theorem Latches.get_setOn (l : Latches) (kind : AlarmKind) : (l.setOn kind).get kind = true := by cases kind <;> rfl

theorem Latches.setOn_of_get {l : Latches} (set_ : l.get kind = true) : l.setOn kind = l := by
  cases kind <;> cases l <;> simp_all [Latches.get, Latches.setOn]

theorem Latches.get_clearing (l named : Latches) (kind : AlarmKind) :
    (l.clearing named).get kind = (l.get kind && !named.get kind) := by cases kind <;> rfl

/-! ## One alarm (R130, R131) -/

/-- An alarm is offered to the journal once, and to latch, latest alarm, sounder and host where its latch was clear; the
rest of the part is as before. -/
structure Raised (s t : State) (kind : AlarmKind) (side : Option Side) : Prop where
  rest : t = { s with passage := t.passage, journal := t.journal, host := t.host }
  aisle : t.passage =
    { s.passage with
      latches := s.passage.latches.setOn kind,
      lastAlarm := if s.passage.latches.get kind = true then s.passage.lastAlarm else some (kind, side),
      sounder := if s.passage.latches.get kind = true then s.passage.sounder else some s.clock }
  noticed : Noticed s t
  told : s.passage.latches.get kind = false → t.tells .alarm = true
  records : Journals s t [kind.noted side]

theorem append_rest (s : State) (b : RecBody) :
    s.append b = { s with journal := (s.append b).journal, host := (s.append b).host } := by
  have rest := (Queued.of_append s b).rest
  rwa [State.append_link] at rest

theorem alarm_raised (s : State) (kind : AlarmKind) (side : Option Side) : Raised s (s.alarm kind side) kind side := by
  unfold State.alarm
  cases set_ : s.passage.latches.get kind with
  | true =>
    have rest := append_rest s (alarmRecord kind side)
    have passage := s.append_passage (alarmRecord kind side)
    simp only [if_true]
    exact
      { rest := by rw [passage]; exact rest
        aisle := by simp only [passage, set_, if_true, Latches.setOn_of_get set_]
        noticed := .of_queued (Queued.of_append _ _)
        told := fun clear => nomatch set_.symm.trans clear
        records := Journals.of_append _ _ }
  | false =>
    simp only [Bool.false_eq_true, if_false]
    let v := s.onPassage fun g =>
      { g with
        latches := g.latches.setOn kind, lastAlarm := some (kind, side), sounder := some s.clock }
    have rest := append_rest v (alarmRecord kind side)
    have passage : ((v.append (alarmRecord kind side)).raise .alarm).passage = v.passage :=
      v.append_passage (alarmRecord kind side)
    show Raised s ((v.append (alarmRecord kind side)).raise .alarm) kind side
    exact
      { rest := by
          rw [passage]
          show (v.append (alarmRecord kind side)).onHost _ = _
          rw [rest]
          rfl
        aisle := by rw [passage]; simp [v, set_]
        noticed := ((Noticed.of_queued (.of_append v _)).trans (.of_raise _ _)).after rfl
        told := fun _ => State.raise_tells _ _
        records := Journals.of_eq (r := v) (.congr (Journals.of_append v (alarmRecord kind side)) rfl) rfl rfl rfl }

/-- An alarm as the statements put it, seen from a part in which at most pins, ports and the rest of the aisle were
others. -/
theorem Raised.alarmed (h : Raised v t kind side) (host : v.host = s.host) (journal : v.journal = s.journal)
    (time : v.time = s.time) (service : v.service = s.service) (clock : v.clock = s.clock)
    (latches : v.passage.latches = s.passage.latches) (lastAlarm : v.passage.lastAlarm = s.passage.lastAlarm)
    (sounder : v.passage.sounder = s.passage.sounder) : Alarmed s t.pump kind side := by
  have aisle := h.aisle
  rw [latches, lastAlarm, sounder, clock] at aisle
  have silent := (h.noticed.after host).silent
  refine
    { silent with
      latches := by rw [State.pump_passage, aisle]
      latching := fun clear => ⟨?_, ?_, ?_⟩
      repeated := fun set_ => ⟨?_, ?_⟩
      record := ?_ }
  · rw [State.pump_passage, aisle, clear]
    rfl
  · rw [State.pump_passage, aisle, clear]
    rfl
  · rw [State.pump_tells_eq]
    exact h.told (by rw [latches, clear])
  · rw [State.pump_passage, aisle, set_]
    rfl
  · rw [State.pump_passage, aisle, set_]
    rfl
  · rw [State.pump_journal]
    exact (h.records.of_eq journal time service).of_event rfl

/-! ## ALARM_CLEAR (R132) -/

theorem flagBit_flagsValue (bs : List Bool) (i : Nat) : flagBit (flagsValue bs) i = bs.getD i false := by
  induction bs generalizing i with
  | nil => simp [flagsValue, flagBit]
  | cons b bs ih =>
    cases i with
    | zero => cases b <;> simp [flagsValue, flagBit, Nat.add_mul_mod_self_left]
    | succ i =>
      have half : flagsValue (b :: bs) / 2 = flagsValue bs := by
        cases b <;> simp only [flagsValue, Bool.false_eq_true, if_false, if_true] <;> omega
      rw [List.getD_cons_succ, ← ih, flagBit, flagBit, pow_succ', ← Nat.div_div_eq_div_mul, half]

theorem flagsValue_lt (bs : List Bool) : flagsValue bs < 2 ^ bs.length := by
  induction bs with
  | nil => decide
  | cons b bs ih =>
    rw [List.length_cons, pow_succ]
    cases b <;> simp only [flagsValue, Bool.false_eq_true, if_false, if_true] <;> omega

theorem flagsValue_pos_iff (bs : List Bool) : 1 ≤ flagsValue bs ↔ true ∈ bs := by
  induction bs with
  | nil => simp [flagsValue]
  | cons b bs ih =>
    cases b
    · simp [flagsValue, ← ih]
      omega
    · simp [flagsValue]

/-- A set of flags of at most eight members is read back from its byte. -/
theorem fieldAt_flagSet {bs : List Bool} (few : bs.length ≤ 8) : fieldAt (flagSet bs) 0 1 = flagsValue bs :=
  fieldAt_whole ((flagsValue_lt bs).trans_le (Nat.pow_le_pow_right (by decide) few))

/-- The latches of an ALARM_CLEAR are read as they were written; none named is out of range (R132, R191). -/
theorem readLatches_field (named : Latches) :
    readLatches named.field = if named.any = true then .value named else .range 1 := by
  have read : fieldAt named.field 0 1 = flagsValue [named.tailgate, named.forced, named.reverse, named.intrusion] :=
    fieldAt_flagSet (Nat.le_of_ble_eq_true rfl)
  have below := flagsValue_lt [named.tailgate, named.forced, named.reverse, named.intrusion]
  have some_named : named.any = true ↔ 1 ≤ flagsValue [named.tailgate, named.forced, named.reverse, named.intrusion] := by
    rw [flagsValue_pos_iff]
    simp [Latches.any, eq_comm (a := true), or_assoc]
  have form : named.field.length = 1 := be_length ..
  unfold readLatches
  rw [if_pos form, read]
  simp only [flagBit_flagsValue]
  split
  · exact judged_value _ (by simpa using ⟨some_named.1 ‹_›, below⟩)
  · have failed : decide (1 ≤ flagsValue [named.tailgate, named.forced, named.reverse, named.intrusion] ∧
        flagsValue [named.tailgate, named.forced, named.reverse, named.intrusion] < 16) = false :=
      decide_eq_false fun low => ‹¬_› (some_named.2 low.1)
    rw [failed]
    rfl

/-- Settles O27: the latches named go, and with the last of them the sounder; an alarm finds its latch clear then. -/
theorem alarmClearClearsTheNamedLatches : Obligations.AlarmClearClearsTheNamedLatches := by
  refine fun s tag named admitted => ⟨fun none_ => ?_, fun some_ => ?_⟩
  · exact request_ranges _ admitted (by rw [readLatches_field, if_neg (by rw [none_]; exact Bool.false_ne_true)])
  · have run : exec (.alarmClear tag named.field) s = .next ((s.asked tag).alarmClear tag named).pump := by
      show request tag .alarmClear (readLatches named.field) (State.alarmClear tag) s = _
      rw [readLatches_field, if_pos some_]
      exact request_value named _ admitted
    obtain ⟨answered, notices, rest, passage⟩ := answered_onPassage admitted (Passage.clearLatches named)
      (.latches (s.passage.latches.clearing named))
    have path : (s.asked tag).alarmClear tag named =
        ((s.asked tag).onPassage (Passage.clearLatches named)).reply tag .alarmClear
          (.latches (s.passage.latches.clearing named)) := rfl
    rw [← path] at answered notices rest passage
    refine ⟨_, run, ?_⟩
    generalize ((s.asked tag).alarmClear tag named).pump = t at *
    have latches : t.passage.latches = s.passage.latches.clearing named := by rw [passage]; rfl
    have sounder : t.passage.sounder =
        if (s.passage.latches.clearing named).any = true then s.passage.sounder else none := by rw [passage]; rfl
    rw [latches]
    refine ⟨answered, notices, rest, ?_, Latches.get_clearing _ _, sounder, fun kind side mine => ?_⟩
    · rw [passage]
      rfl
    · have clear : t.passage.latches.get kind = false := by
        rw [latches, Latches.get_clearing, mine, Bool.not_true, Bool.and_false]
      have raised := alarm_raised t kind side
      refine ⟨?_, raised.told clear, ?_, fun open_ => ?_⟩
      · rw [raised.aisle]
        exact Latches.get_setOn _ _
      · rw [raised.aisle, clear]
        rfl
      · have grown := raised.records.of_event rfl
        rw [open_, if_neg Bool.false_ne_true] at grown
        exact grown

end Sys2Proof.Machine
end

section
/-! Occupants that come up to a mouth or into LEAF (R125 to R127, R130, R134). -/

namespace Sys2Proof.Machine

variable {s t u v : State} {d : Direction} {m : Side} {k : SlotId} {o : Occupant} {before after xs : List Occupant}
  {place : Option SlotId → List Occupant → List Occupant} {kind : AlarmKind} {side : Option Side}

/-! ## The first of a list that meets a test -/

section First

variable {α : Type} {p : α → Bool} {a : α} {as bs : List α}

theorem find?_first (passed : ∀ x ∈ as, p x = false) (here : p a = true) : (as ++ a :: bs).find? p = some a := by
  rw [List.find?_append, List.find?_eq_none.2 fun x mem => by simp [passed x mem], Option.none_or,
    List.find?_cons_of_pos here]

theorem changeFirst_first (f : α → α) (passed : ∀ x ∈ as, p x = false) (here : p a = true) :
    changeFirst p f (as ++ a :: bs) = as ++ f a :: bs := by
  induction as with
  | nil => simp [changeFirst, here]
  | cons x as ih =>
    have skipped : p x = false := passed x List.mem_cons_self
    simp [changeFirst, skipped, ih fun y mem => passed y (List.mem_cons_of_mem x mem)]

theorem dropFirst_first (passed : ∀ x ∈ as, p x = false) (here : p a = true) :
    dropFirst p (as ++ a :: bs) = as ++ bs := by
  rw [dropFirst_eq_eraseP, List.eraseP_append_right _ fun x mem => by simp [passed x mem],
    List.eraseP_cons_of_pos here]

end First

/-! ## A mouth becomes occupied (R125) -/

theorem leafTowards_iff : o.leafTowards m = true ↔ o.stage = .leaf ∧ farMouth o.direction = m := by
  simp [Occupant.leafTowards]

theorem leafTowards_eq_false : o.leafTowards m = false ↔ ¬(o.stage = .leaf ∧ farMouth o.direction = m) := by
  rw [← leafTowards_iff, Bool.not_eq_true]

theorem enterMouth_moves (occupants : s.passage.occupants = before ++ o :: after) (here : o.leafTowards m = true)
    (passed : ∀ x ∈ before, x.leafTowards m = false) :
    s.enterMouth m = s.onPassage fun g => { g with occupants := before ++ { o with stage := .far } :: after } := by
  have some_ : s.passage.occupants.any (Occupant.leafTowards m) = true :=
    List.any_eq_true.2 ⟨o, by rw [occupants]; exact List.mem_append_right _ List.mem_cons_self, here⟩
  rw [State.enterMouth, if_pos some_, State.onPassage, occupants, changeFirst_first _ passed here]
  rfl

theorem any_leafTowards_eq_false (none_ : ∀ x ∈ s.passage.occupants, x.leafTowards m = false) :
    s.passage.occupants.any (Occupant.leafTowards m) = false :=
  List.any_eq_false.2 fun x mem => by simp [none_ x mem]

theorem enterMouth_appends (none_ : ∀ x ∈ s.passage.occupants, x.leafTowards m = false)
    (room : s.passage.occupants.length < 3) :
    s.enterMouth m = s.onPassage fun g =>
      { g with occupants := g.occupants ++ [{ direction := dirOf m, stage := .mouth, credit := none }] } := by
  rw [State.enterMouth, any_leafTowards_eq_false none_, if_neg Bool.false_ne_true, if_pos room]

theorem enterMouth_intrudes (none_ : ∀ x ∈ s.passage.occupants, x.leafTowards m = false)
    (full : 3 ≤ s.passage.occupants.length) : s.enterMouth m = s.alarm .intrusion (some m) := by
  rw [State.enterMouth, any_leafTowards_eq_false none_, if_neg Bool.false_ne_true, if_neg (Nat.not_lt.2 full)]

/-- A command that changes pins and aisle alone. -/
theorem onPins_onPassage (s : State) (p : Pins → Pins) (f : Passage → Passage) :
    let t := ((s.onPins p).onPassage f).pump
    Told s t [] ∧ t = { s with pins := t.pins, passage := t.passage, host := t.host } ∧ t.passage = f s.passage := by
  refine ⟨.of_host rfl, ?_, State.pump_passage _⟩
  rw [State.pump_pins, State.pump_passage]
  exact State.pump_rest _

/-- An alarm and nothing else of the aisle, after pins and places have changed. -/
theorem Raised.pumped (h : Raised v t kind side) (rest : v = { s with pins := v.pins, passage := v.passage }) :
    t.pump = { s with pins := v.pins, passage := t.pump.passage, journal := t.pump.journal, host := t.pump.host } := by
  rw [State.pump_passage, State.pump_journal]
  refine t.pump_rest.trans ?_
  generalize t.pump.host = host
  have frame := h.rest
  generalize t.passage = aisle, t.journal = journal at *
  rw [frame, rest]

/-- Settles O30: of the three, one happens. -/
theorem mouthOccupiedMovesOrAppendsAnOccupant : Obligations.MouthOccupiedMovesOrAppendsAnOccupant := by
  refine fun s m => ⟨fun already => ⟨s.pump, if_pos already, .of_host rfl, s.pump_rest⟩, fun free => ?_⟩
  have run : exec (.mouthOccupied m) s = .next ((s.setMouth m true).enterMouth m).pump :=
    if_neg (by rw [free]; exact Bool.false_ne_true)
  have entered : ((s.setMouth m true).enterMouth m).pump.pins = (s.setMouth m true).pins := by
    rw [State.pump_pins, (enterMouth_inner m (Inner.refl _)).pins]
  refine ⟨_, run, entered.trans (by cases m <;> rfl), fun before o after occupants stage towards passed => ?_, fun none_ =>
    ⟨fun room => ?_, fun full => ?_⟩⟩
  · rw [enterMouth_moves (s := s.setMouth m true) occupants (leafTowards_iff.2 ⟨stage, towards⟩) fun x mem =>
      leafTowards_eq_false.2 (passed x mem)]
    exact onPins_onPassage s _ _
  · rw [enterMouth_appends (s := s.setMouth m true) (fun x mem => leafTowards_eq_false.2 (none_ x mem)) room]
    exact onPins_onPassage s _ _
  · rw [entered, enterMouth_intrudes (s := s.setMouth m true) (fun x mem => leafTowards_eq_false.2 (none_ x mem)) full]
    have raised := alarm_raised (s.setMouth m true) .intrusion (some m)
    refine ⟨raised.alarmed rfl rfl rfl rfl rfl rfl rfl rfl, raised.pumped rfl, ?_⟩
    rw [State.pump_passage, raised.aisle]
    rfl

/-! ## An occupant at LEAF is judged for a credit (R127) -/

theorem creditFor_here {earlier later : List Credit} {c : Credit} {g : Passage} (mine : g.claim.direction = some d)
    (credits : g.credits = earlier ++ c :: later) (assigned : ∀ x ∈ earlier, x.state = .assigned)
    (waiting : c.state ≠ .assigned) : g.creditFor d = some c.slot := by
  have oldest : g.oldestUnassigned = some c := by
    rw [Passage.oldestUnassigned, credits]
    exact find?_first (fun x mem => by simp [assigned x mem]) (by simpa using waiting)
  rw [Passage.creditFor, if_pos mine, oldest]
  rfl

theorem creditFor_none {g : Passage} (none_ : ¬(g.claim.direction = some d ∧ ∃ c ∈ g.credits, c.state ≠ .assigned)) :
    g.creditFor d = none := by
  unfold Passage.creditFor
  split
  · rename_i mine
    rw [Option.map_eq_none_iff]
    refine List.find?_eq_none.2 fun c mem waiting => none_ ⟨mine, c, mem, by simpa using waiting⟩
  · rfl

/-- The credit that is assigned is the only one on its slot (R127). -/
theorem assignCredit_here {earlier later : List Credit} {c : Credit}
    (apart : ((earlier ++ c :: later).map Credit.slot).Nodup) :
    assignCredit c.slot (earlier ++ c :: later) = earlier ++ { c with state := .assigned } :: later := by
  have others : ∀ x ∈ earlier ++ later, x.slot ≠ c.slot := by
    have perm : (earlier ++ c :: later).Perm (c :: (earlier ++ later)) := List.perm_middle
    have nodup := (perm.map Credit.slot).nodup_iff.1 apart
    rw [List.map_cons, List.nodup_cons] at nodup
    exact fun x mem same => nodup.1 (same ▸ List.mem_map_of_mem mem)
  have kept : ∀ ys : List Credit, (∀ x ∈ ys, x ∈ earlier ++ later) → assignCredit c.slot ys = ys := fun ys sub =>
    (List.map_congr_left fun x mem => if_neg (others x (sub x mem))).trans (List.map_id ys)
  have before := kept earlier fun x mem => List.mem_append_left _ mem
  have after := kept later fun x mem => List.mem_append_right _ mem
  unfold assignCredit at before after ⊢
  rw [List.map_append, List.map_cons, before, after, if_pos rfl]

/-- The alarm of an occupant that takes no credit (R127). -/
theorem advanceAlarm_eq (g : Passage) (d : Direction) :
    g.advanceAlarm d =
      if g.claim.direction = some (dirOf (farMouth d)) then .reverse
      else if g.leaf = .closed ∨ g.leaf = .fault then .forced else .tailgate := by
  unfold Passage.advanceAlarm
  cases claim : g.claim.direction with
  | none => cases g.leaf <;> rfl
  | some c => cases c <;> cases d <;> cases g.leaf <;> rfl

theorem advance_takes (credit : s.passage.creditFor d = some k) :
    s.advance d place =
      s.onPassage fun g =>
        { g with occupants := place (some k) g.occupants, credits := assignCredit k g.credits } := by
  rw [State.advance, credit]

/-- The aisle with an occupant placed at LEAF without a credit. -/
def State.placing (place : Option SlotId → List Occupant → List Occupant) (s : State) : State :=
  s.onPassage fun g => { g with occupants := place none g.occupants }

theorem advance_suppressed (credit : s.passage.creditFor d = none) (suppressed : s.alarmsSuppressed = true) :
    s.advance d place = s.placing place := by
  rw [State.advance, credit]
  exact if_pos suppressed

theorem advance_alarms (credit : s.passage.creditFor d = none) (free : s.alarmsSuppressed = false) :
    s.advance d place = (s.placing place).alarm (s.passage.advanceAlarm d) (some (sideOf d)) := by
  have free : ¬(s.placing place).alarmsSuppressed = true := by
    rw [Bool.not_eq_true]
    exact free
  rw [State.advance, credit]
  exact if_neg free

/-! ## What an entry can change (R126, R127) -/

/-- Occupants, credits, alarms, journal and notices may be others, and nothing else is. -/
structure Entered (s t : State) : Prop where
  rest : t = { s with passage := t.passage, journal := t.journal, host := t.host }
  aisle : t.passage =
    { s.passage with
      credits := t.passage.credits, occupants := t.passage.occupants, latches := t.passage.latches,
      lastAlarm := t.passage.lastAlarm, sounder := t.passage.sounder }

theorem Entered.of_raised (h : Raised s t kind side) : Entered s t := ⟨h.rest, by rw [h.aisle]⟩

theorem entered_advance (s : State) (d : Direction) (place : Option SlotId → List Occupant → List Occupant) :
    Entered s (s.advance d place) := by
  cases credit : s.passage.creditFor d with
  | some k =>
    rw [advance_takes credit]
    exact ⟨rfl, rfl⟩
  | none =>
    cases suppressed : s.alarmsSuppressed with
    | true =>
      rw [advance_suppressed credit suppressed]
      exact ⟨rfl, rfl⟩
    | false =>
      rw [advance_alarms credit suppressed]
      obtain ⟨rest, aisle, -, -, -⟩ := alarm_raised (s.placing place) (s.passage.advanceAlarm d) (some (sideOf d))
      exact ⟨rest, by rw [aisle]; rfl⟩

theorem entered_enterFrom (m : Side) (s : State) : Entered s (s.enterFrom m) := by
  unfold State.enterFrom
  split
  · exact .of_raised (alarm_raised ..)
  · exact entered_advance ..

theorem entered_enterLeaf (s : State) : Entered s s.enterLeaf := by
  unfold State.enterLeaf
  split
  · exact entered_advance ..
  · split
    · exact entered_enterFrom ..
    · exact entered_enterFrom ..
    · split
      · exact entered_enterFrom ..
      · exact .of_raised (alarm_raised ..)
    · exact .of_raised (alarm_raised ..)

/-! ## The body that entered (R126) -/

/-- A body that moves in a direction enters LEAF, to stand between these occupants: the oldest at MOUTH, or one more
that comes from its mouth. -/
def State.LetsIn (s : State) (d : Direction) (before after : List Occupant) : Prop :=
  (∃ o, s.passage.occupants = before ++ o :: after ∧ o.stage = .mouth ∧ o.direction = d ∧
      ∀ x ∈ before, x.stage ≠ .mouth) ∨
    (s.passage.occupants = before ∧ after = [] ∧ (∀ x ∈ before, x.stage ≠ .mouth) ∧ before.length < 3 ∧
      s.mouth (sideOf d) = true ∧ (s.mouth (farMouth d) = false ∨ s.passage.claim.direction = some d))

theorem no_mouth (none_ : ∀ x ∈ xs, x.stage ≠ .mouth) : xs.find? (fun o => o.stage == .mouth) = none :=
  List.find?_eq_none.2 fun x mem => by simpa using none_ x mem

@[simp] theorem dirOf_sideOf (d : Direction) : dirOf (sideOf d) = d := by cases d <;> rfl

/-- With no occupant at MOUTH the body comes from the one mouth that is occupied, of two from that of the claim's
direction (R126). -/
theorem enterLeaf_from (none_ : ∀ x ∈ s.passage.occupants, x.stage ≠ .mouth) (near : s.mouth m = true)
    (chosen : s.mouth (otherSide m) = false ∨ s.passage.claim.direction = some (dirOf m)) :
    s.enterLeaf = s.enterFrom m := by
  rw [State.enterLeaf, no_mouth none_]
  cases m <;> simp only [State.mouth, otherSide] at near chosen <;> simp only [near]
  · cases far : s.pins.mouthP with
    | false => rfl
    | true =>
      rw [chosen.resolve_left (by simp [far])]
      rfl
  · cases far : s.pins.mouthU with
    | false => rfl
    | true =>
      rw [chosen.resolve_left (by simp [far])]
      rfl

theorem enterLeaf_lets (lets : s.LetsIn d before after) :
    ∃ place, s.enterLeaf = s.advance d place ∧
      ∀ credit, place credit s.passage.occupants =
        before ++ { direction := d, stage := .leaf, credit := credit } :: after := by
  obtain ⟨o, occupants, stage, rfl, passed⟩ | ⟨rfl, rfl, none_, room, near, chosen⟩ := lets
  · have passed : ∀ x ∈ before, (x.stage == .mouth) = false := fun x mem => by simpa using passed x mem
    have here : (o.stage == .mouth) = true := by rw [stage]; rfl
    refine ⟨moveToLeaf fun x => x.stage == .mouth, ?_, fun credit => ?_⟩
    · rw [State.enterLeaf, occupants, find?_first (p := fun x : Occupant => x.stage == .mouth) passed here]
    · rw [occupants]
      exact changeFirst_first _ passed here
  · refine ⟨appendAtLeaf d, ?_, fun credit => rfl⟩
    rw [enterLeaf_from none_ near (by rwa [dirOf_sideOf]), State.enterFrom, if_neg (Nat.not_le.2 room), dirOf_sideOf]

/-! ## LEAF becomes occupied (R126, R127, R134) -/

/-- The part with LEAF occupied and closing leaves reopened, before the body that entered is judged. -/
def State.leafTaken (s : State) : State := (s.setLeafZone true).reopen

theorem leafTaken_rest (s : State) :
    s.leafTaken =
      { s with
        pins := { s.pins with leaf := true },
        passage :=
          { s.passage with
            leaf := if s.passage.leaf = .closing then .opening else s.passage.leaf,
            travel := if s.passage.leaf = .closing then some (s.clock + 1500) else s.passage.travel } } := by
  unfold State.leafTaken State.reopen
  by_cases closing : s.passage.leaf = .closing
  · rw [if_pos closing, if_pos closing]
    exact if_pos closing
  · rw [if_neg closing, if_neg closing]
    exact if_neg closing

/-- An alarm raised as a body enters, seen from before LEAF was occupied. -/
theorem Raised.afterLeafTaken {ys : List Occupant}
    (h : Raised (s.leafTaken.onPassage fun g => { g with occupants := ys }) t kind side) :
    Alarmed s t.pump kind side := by
  rw [leafTaken_rest] at h
  exact h.alarmed rfl rfl rfl rfl rfl rfl rfl rfl

/-- What every entry into LEAF leaves of the part. -/
theorem Entered.afterLeafTaken (h : Entered s.leafTaken u) :
    u.pump =
        { s with
          pins := { s.pins with leaf := true }, passage := u.pump.passage, journal := u.pump.journal,
          host := u.pump.host } ∧
      u.pump.passage.leaf = (if s.passage.leaf = .closing then .opening else s.passage.leaf) ∧
      u.pump.passage.travel = (if s.passage.leaf = .closing then some (s.clock + 1500) else s.passage.travel) ∧
      u.pump.passage.claim = s.passage.claim ∧ u.pump.passage.holdOpen = s.passage.holdOpen := by
  obtain ⟨rest, aisle⟩ := h
  rw [leafTaken_rest] at rest aisle
  rw [State.pump_passage, State.pump_journal]
  refine ⟨?_, ?_, ?_, ?_, ?_⟩
  · refine u.pump_rest.trans ?_
    generalize u.pump.host = host
    generalize u.passage = aisle, u.journal = journal at *
    rw [rest]
  all_goals rw [aisle]

/-- The occupant that takes a credit (R127). -/
theorem leafTaken_takes (credit : s.passage.creditFor d = some k)
    (run : s.leafTaken.enterLeaf = s.leafTaken.advance d place) :
    Told s s.leafTaken.enterLeaf.pump [] ∧ s.leafTaken.enterLeaf.pump.journal = s.journal ∧
      s.leafTaken.enterLeaf.pump.passage.latches = s.passage.latches ∧
      s.leafTaken.enterLeaf.pump.passage.occupants = place (some k) s.passage.occupants ∧
      s.leafTaken.enterLeaf.pump.passage.credits = assignCredit k s.passage.credits := by
  have credit : s.leafTaken.passage.creditFor d = some k := by
    rw [leafTaken_rest]
    exact credit
  rw [run, advance_takes credit, State.pump_journal, State.pump_passage, leafTaken_rest]
  exact ⟨.of_host rfl, rfl, rfl, rfl, rfl⟩

/-- The occupant that finds none: an alarm unless hold-open or the emergency suppresses it (R127, R130). -/
theorem leafTaken_lacks (credit : s.passage.creditFor d = none)
    (run : s.leafTaken.enterLeaf = s.leafTaken.advance d place) :
    s.leafTaken.enterLeaf.pump.passage.occupants = place none s.passage.occupants ∧
      s.leafTaken.enterLeaf.pump.passage.credits = s.passage.credits ∧
      (s.passage.holdOpen = true ∨ s.emergency.line = true →
        Told s s.leafTaken.enterLeaf.pump [] ∧ s.leafTaken.enterLeaf.pump.journal = s.journal ∧
          s.leafTaken.enterLeaf.pump.passage.latches = s.passage.latches) ∧
      (s.passage.holdOpen = false → s.emergency.line = false →
        Alarmed s s.leafTaken.enterLeaf.pump
          (if s.passage.claim.direction = some (dirOf (farMouth d)) then .reverse
          else if s.passage.leaf = .closed ∨ s.passage.leaf = .fault then .forced else .tailgate)
          (some (sideOf d))) := by
  have credit : s.leafTaken.passage.creditFor d = none := by
    rw [leafTaken_rest]
    exact credit
  have same : s.leafTaken.alarmsSuppressed = (s.passage.holdOpen || s.emergency.line) := by
    rw [leafTaken_rest]
    rfl
  have alarm : s.leafTaken.passage.advanceAlarm d =
      if s.passage.claim.direction = some (dirOf (farMouth d)) then .reverse
      else if s.passage.leaf = .closed ∨ s.passage.leaf = .fault then .forced else .tailgate := by
    rw [advanceAlarm_eq, leafTaken_rest]
    cases s.passage.leaf <;> rfl
  rw [run, State.pump_passage, State.pump_journal]
  cases suppressed : s.leafTaken.alarmsSuppressed with
  | true =>
    rw [advance_suppressed credit suppressed]
    rw [same, Bool.or_eq_true] at suppressed
    rw [State.placing, leafTaken_rest]
    refine ⟨rfl, rfl, fun _ => ⟨.of_host rfl, rfl, rfl⟩, fun free line => ?_⟩
    simp [free, line] at suppressed
  | false =>
    rw [advance_alarms credit suppressed, alarm]
    rw [same, Bool.or_eq_false_iff] at suppressed
    have raised := alarm_raised (s.leafTaken.placing place)
      (if s.passage.claim.direction = some (dirOf (farMouth d)) then .reverse
      else if s.passage.leaf = .closed ∨ s.passage.leaf = .fault then .forced else .tailgate) (some (sideOf d))
    refine ⟨?_, ?_, fun held => ?_, fun _ _ => raised.afterLeafTaken⟩
    · rw [raised.aisle, State.placing, leafTaken_rest]
      rfl
    · rw [raised.aisle, State.placing, leafTaken_rest]
      rfl
    · simp [suppressed] at held

/-- INTRUSION as LEAF becomes occupied: no occupant moves (R126). -/
theorem leafTaken_intrudes {side : Option Side} (run : s.leafTaken.enterLeaf = s.leafTaken.alarm .intrusion side) :
    Alarmed s s.leafTaken.enterLeaf.pump .intrusion side ∧
      s.leafTaken.enterLeaf.pump.passage.occupants = s.passage.occupants ∧
      s.leafTaken.enterLeaf.pump.passage.credits = s.passage.credits := by
  have raised := alarm_raised s.leafTaken .intrusion side
  rw [run, State.pump_passage, raised.aisle]
  refine ⟨Raised.afterLeafTaken (ys := s.leafTaken.passage.occupants) raised, ?_, ?_⟩ <;> rw [leafTaken_rest]

/-- With no occupant at MOUTH, and no mouth that a body can have come from (R126). -/
theorem enterLeaf_nowhere (none_ : ∀ x ∈ s.passage.occupants, x.stage ≠ .mouth)
    (nowhere : (s.pins.mouthU = false ∧ s.pins.mouthP = false) ∨
      (s.pins.mouthU = true ∧ s.pins.mouthP = true ∧ s.passage.claim.direction = none)) :
    s.enterLeaf = s.alarm .intrusion none := by
  rw [State.enterLeaf, no_mouth none_]
  obtain ⟨u, p⟩ | ⟨u, p, none_⟩ := nowhere
  · simp only [u, p]
  · simp only [u, p, none_]

/-- Settles O31: the body that entered is chosen, placed at LEAF and judged for a credit, or INTRUSION is raised. -/
theorem leafOccupiedAdvancesTheBodyThatEntered : Obligations.LeafOccupiedAdvancesTheBodyThatEntered := by
  intro s clear apart
  have run : exec .leafOccupied s = .next s.leafTaken.enterLeaf.pump := if_neg (by rw [clear]; exact Bool.false_ne_true)
  obtain ⟨rest, leaf, travel, claim, hold⟩ := (entered_enterLeaf s.leafTaken).afterLeafTaken
  have occupants : s.leafTaken.passage.occupants = s.passage.occupants := by rw [leafTaken_rest]
  have mouths (m : Side) : s.leafTaken.mouth m = s.mouth m := by
    rw [leafTaken_rest]
    cases m <;> rfl
  have direction : s.leafTaken.passage.claim = s.passage.claim := by rw [leafTaken_rest]
  refine ⟨_, run, rest, leaf, travel, claim, hold, fun d before after lets => ?_, fun none_ =>
    ⟨fun m full near chosen => ?_, fun nowhere => ?_⟩⟩
  · obtain ⟨place, path, placed⟩ := enterLeaf_lets (s := s.leafTaken) (d := d) (before := before) (after := after) (by
      unfold State.LetsIn
      rw [occupants, mouths, mouths, direction]
      exact lets)
    rw [occupants] at placed
    refine ⟨fun earlier c later mine credits assigned waiting => ?_, fun none_ => ?_⟩
    · obtain ⟨told, journal, latches, stand, taken⟩ :=
        leafTaken_takes (creditFor_here mine credits assigned waiting) path
      refine ⟨told, journal, latches, stand.trans (placed _), ?_⟩
      rw [taken, credits, assignCredit_here (by rwa [← credits])]
    · obtain ⟨stand, credits, suppressed, alarmed⟩ := leafTaken_lacks (creditFor_none none_) path
      exact ⟨stand.trans (placed _), credits, suppressed, alarmed⟩
  · refine leafTaken_intrudes ?_
    rw [enterLeaf_from (m := m) (by rwa [occupants]) (by rwa [mouths]) (by rwa [mouths, direction]), State.enterFrom,
      if_pos (by rwa [occupants])]
  · refine leafTaken_intrudes (enterLeaf_nowhere (by rwa [occupants]) ?_)
    rw [leafTaken_rest]
    exact nowhere

end Sys2Proof.Machine
end

section
/-! STAFF_PASS: a slot request of the staff, granted a credit at once or refused (R118, R121, R137). -/

namespace Sys2Proof.Machine

variable {s t u : State} {d : Direction} {k : SlotId} {tag : Byte} {origin : CreditOrigin}

/-! ## What is refused (R118, R137) -/

theorem readDirection_be (d : Direction) : readDirection (be 1 (directionCode d)) = .value d := by cases d <;> rfl

/-- The conditions of R118, one of them failing. -/
theorem grantable_eq_false
    (refused : s.passage.leaf = .fault ∨ (s.passage.claim.slot1.isSome = true ∧ s.passage.claim.slot2.isSome = true) ∨
      (∃ c, s.passage.claim.direction = some c ∧ c ≠ d) ∨ (∃ o ∈ s.passage.occupants, o.direction ≠ d)) :
    s.grantable d = false := by
  rw [← Bool.not_eq_true, State.grantable_iff]
  rintro ⟨claim, free, sound, same⟩
  obtain fault | ⟨first, second⟩ | ⟨c, taken, other⟩ | ⟨o, mem, other⟩ := refused
  · exact sound fault
  · obtain free | free := free
    · simp [free] at first
    · simp [free] at second
  · rw [taken] at claim
    exact other (Option.some.inj (claim.resolve_left nofun))
  · exact other (same o mem)

theorem staffPass_busy (calm : s.emergency.line = false) (refused : s.grantable d = false) :
    s.staffPass tag d = s.reply tag .staffPass (.refused .aisleBusy) := by
  rw [State.staffPass, if_neg (by rw [calm]; exact Bool.false_ne_true),
    if_neg (by rw [refused]; exact Bool.false_ne_true)]

/-! ## The credit (R118, R121, R134) -/

/-- Leaves that stood as they were asked open for a credit (R133, R134). -/
theorem settleLeaves_credited {g : Passage} (settled : s.leavesSettled) (leaf : g.leaf = s.passage.leaf)
    (hold : g.holdOpen = s.passage.holdOpen) (credits : g.credits ≠ []) :
    (s.onPassage fun _ => g).settleLeaves.passage.leaf =
      if s.passage.leaf = .closed ∨ s.passage.leaf = .closing then .opening else s.passage.leaf := by
  obtain ⟨-, opened, held⟩ := leavesSettled_iff.1 settled
  have command : (s.onPassage fun _ => g).commandOpen = true := by
    cases none_ : g.credits with
    | nil => exact absurd none_ credits
    | cons c cs => simp [State.commandOpen, none_]
  have suppressed : (s.onPassage fun _ => g).alarmsSuppressed = s.alarmsSuppressed := by
    simp [State.alarmsSuppressed, hold]
  unfold State.settleLeaves State.closeIfClear
  rw [suppressed, command, State.onPassage_passage, leaf]
  cases at_ : s.passage.leaf <;> simp_all [Passage.travelTo]

/-- The part with a slot given to a staff credit, before the credit stands. -/
def State.staffSlot (k : SlotId) (d : Direction) (s : State) : State := s.onClaim fun c => c.grant k d .credit

/-- The aisle with that credit, but for the leaves. -/
def State.staffed (k : SlotId) (d : Direction) (s : State) : Passage :=
  (s.staffSlot k d).passage.addCredit k d .staff s.creditUntil

/-- A staff credit that is formed: the credit on its slot, and the leaves commanded open. -/
theorem formCredit_staff (sound : s.passage.leaf ≠ .fault) :
    (s.staffSlot k d).formCredit k d .staff = (s.onPassage fun _ => s.staffed k d).settleLeaves := by
  unfold State.formCredit
  exact if_neg (by simpa [State.staffSlot, State.onClaim, Passage.addCredit] using sound)

theorem changeFirst_stage (p : Occupant → Bool) (k : SlotId) (xs : List Occupant) :
    (changeFirst p (fun o => { o with credit := some k }) xs).map Occupant.stage = xs.map Occupant.stage := by
  induction xs with
  | nil => rfl
  | cons x xs ih =>
    rw [changeFirst]
    split
    · rfl
    · rw [List.map_cons, ih, List.map_cons]

/-- The aisle with a staff credit: the claim of its direction, the credit last in the list, each occupant in its
place (R118, R121). -/
structure StaffCredited (s : State) (g : Passage) (k : SlotId) (d : Direction) : Prop where
  claim : g.claim = { s.passage.claim.setSlot k (some .credit) with direction := some d, lastGranted := d }
  credits : g.credits =
    s.passage.credits
      ++ [{ slot := k, direction := d, origin := .staff,
            state :=
              if s.passage.occupants.any fun o => o.stage == .leaf && o.credit.isNone then .assigned
              else .unassigned (s.clock + 1000 * s.service.params.creditLifetime) }]
  stages : g.occupants.map Occupant.stage = s.passage.occupants.map Occupant.stage
  latches : g.latches = s.passage.latches
  hold : g.holdOpen = s.passage.holdOpen
  leaf : g.leaf = s.passage.leaf

theorem staffed_credited (claim : s.passage.claim.direction = none ∨ s.passage.claim.direction = some d)
    (same : ∀ o ∈ s.passage.occupants, o.direction = d) (k : SlotId) : StaffCredited s (s.staffed k d) k d where
  claim := by
    show ((s.passage.claim.grant k d .credit).setSlot k (some .credit)) = _
    rw [Claim.grant_eq claim]
    cases k <;> rfl
  credits := by
    have takes : s.passage.occupants.any (Occupant.canTake d) =
        s.passage.occupants.any fun o => o.stage == .leaf && o.credit.isNone := by
      rw [Bool.eq_iff_iff, List.any_eq_true, List.any_eq_true]
      refine exists_congr fun o => and_congr_right fun mem => ?_
      rw [Occupant.canTake, same o mem, beq_self_eq_true, Bool.and_true]
    rw [← takes]
    rfl
  stages := changeFirst_stage _ _ _
  latches := rfl
  hold := rfl
  leaf := rfl

/-- A granted STAFF_PASS: the credit, its record and the reply, in this order (R137). -/
theorem staffPass_granted (calm : s.emergency.line = false) (granted : s.grantable d = true)
    (free : s.passage.claim.lowestFree = some k) :
    s.staffPass tag d =
      ((s.onPassage fun _ => s.staffed k d).settleLeaves.append (staffRecord d)).reply tag .staffPass .ok := by
  obtain ⟨-, -, sound, -⟩ := (State.grantable_iff d).1 granted
  rw [State.staffPass, if_neg (by rw [calm]; exact Bool.false_ne_true), if_pos granted, free,
    ← formCredit_staff sound]
  rfl

/-- Settles O24: what R118 grants to a request it grants to the staff, with a credit in place of a context. -/
theorem staffPassIsJudgedAtOnce : Obligations.StaffPassIsJudgedAtOnce := by
  refine fun s tag d admitted => ⟨fun line => ?_, fun calm refused => ?_, fun k calm sound claim same free settled => ?_⟩
  · exact request_replies admitted (readDirection_be d) (if_pos line)
  · exact request_replies admitted (readDirection_be d)
      (staffPass_busy (s := s.asked tag) calm (grantable_eq_false (s := s.asked tag) refused))
  have lower : if s.passage.claim.slot1 = none then k = .one else k = .two := by
    split at free
    · rwa [if_pos ‹_›]
    · rw [if_neg ‹_›]
      exact free.2
  have some_free : s.passage.claim.slot1 = none ∨ s.passage.claim.slot2 = none := by
    split at free
    · exact .inl ‹_›
    · exact .inr free.1
  have granted : s.grantable d = true := (State.grantable_iff d).2 ⟨claim, some_free, sound, same⟩
  have run : exec (.staffPass tag (be 1 (directionCode d))) s = .next ((s.asked tag).staffPass tag d).pump := by
    show request tag .staffPass (readDirection (be 1 (directionCode d))) (State.staffPass tag) s = _
    rw [readDirection_be]
    exact request_value d _ admitted
  have path := staffPass_granted (s := s.asked tag) (tag := tag) calm granted
    (State.grantable_lowestFree (s := s) granted lower)
  have credited := staffed_credited claim same k
  have leaf := settleLeaves_credited (s := s.asked tag) (g := s.staffed k d) (leavesSettled_asked tag settled) credited.leaf
    credited.hold (by rw [credited.credits]; simp)
  have moved := settleLeaves_rest ((s.asked tag).onPassage fun _ => s.staffed k d)
  have staffed : (s.asked tag).staffed k d = s.staffed k d := rfl
  rw [staffed] at path
  rw [path] at run
  generalize ((s.asked tag).onPassage fun _ => s.staffed k d).settleLeaves = v at *
  have record := Queued.of_append v (staffRecord d)
  have untaken := ((State.admits_iff s tag .staffPass).1 admitted).1
  have host : v.host = (s.asked tag).host := by rw [moved]; rfl
  have frame := append_rest v (staffRecord d)
  have passage : ((v.append (staffRecord d)).reply tag .staffPass .ok).pump.passage = v.passage := by simp
  have grown : s.journal.grownBy ((v.append (staffRecord d)).reply tag .staffPass .ok).pump.journal s.time.now
      (if s.journal.halted = true then [] else [staffRecord d]) := by
    have records := record.records.of_eq (s := s) (by rw [moved]; rfl) (by rw [moved]; rfl) (by rw [moved]; rfl)
    simpa using records.of_event rfl
  refine ⟨_, run, ?_, ?_, grown, ?_⟩
  · refine Replied.of_reply _ untaken ?_ ?_ ?_ ?_ ?_
    · rw [State.append_host_window, host]
      rfl
    · rw [State.append_formed, State.formed, host]
      rfl
    · rw [State.append_host_tx, host]
      rfl
    · rw [State.append_host_speed, host]
      rfl
    · rw [State.append_host_resetTaken, host]
      rfl
  · rw [passage, State.pump_journal, State.reply_journal]
    refine (reply_pump_rest ..).trans ?_
    generalize ((v.append (staffRecord d)).reply tag .staffPass .ok).pump.host = host
    rw [frame]
    generalize (v.append (staffRecord d)).journal = journal, v.passage = aisle at *
    rw [moved]
    rfl
  · rw [passage]
    have aisle : v.passage = { s.staffed k d with leaf := v.passage.leaf, travel := v.passage.travel } := by
      conv_lhs => rw [moved]
      rfl
    rw [leaf] at aisle
    rw [aisle]
    exact ⟨credited.claim, credited.credits, credited.stages, rfl, credited.latches, credited.hold⟩

end Sys2Proof.Machine
end

section
/-! SET_PARAMETERS: its body read back, the halt and the sounder judged anew, its answer; SOUNDER_EXPIRY (R131, R158, R169,
R174). -/

namespace Sys2Proof.Machine

variable {s t u v : State} {p : Params} {tag : Byte} {kind : ReqKind}

/-! ## The body of a SET_PARAMETERS (R174, R190) -/

/-- Of two-byte fields written one after the other, each is read where it stands. -/
theorem fieldAt_flatMap_be {xs : List Nat} (rest : List Byte) (small : ∀ x ∈ xs, x < 65536) {i : Nat}
    (inside : i < xs.length) : fieldAt (xs.flatMap (be 2) ++ rest) (2 * i) 2 = xs.getD i 0 := by
  induction xs generalizing i with
  | nil => cases inside
  | cons x xs ih =>
    rw [List.flatMap_cons, List.append_assoc]
    cases i with
    | zero => exact fieldAt_zero _ (small x List.mem_cons_self)
    | succ i =>
      rw [Nat.mul_succ, Nat.add_comm, fieldAt_past, List.getD_cons_succ]
      exact ih (fun y mem => small y (List.mem_cons_of_mem x mem)) (Nat.lt_of_succ_lt_succ inside)

theorem values_small (fits : p.inRange) : ∀ x ∈ p.values, x < 65536 := by
  unfold Params.inRange at fits
  simp only [Params.values, List.forall_mem_cons, List.not_mem_nil, false_imp_iff, implies_true, and_true]
  omega

/-- Parameters within their bounds are read as they were written. -/
theorem readParams_bytes (fits : p.inRange) : readParams p.bytes = .value p := by
  have values : ∀ i, i < 16 → fieldAt p.bytes (2 * i) 2 = p.values.getD i 0 := fun i inside =>
    fieldAt_flatMap_be _ (values_small fits) inside
  have mask : fieldAt p.bytes 32 1 =
      flagsValue
        [p.weekend.mon, p.weekend.tue, p.weekend.wed, p.weekend.thu, p.weekend.fri, p.weekend.sat, p.weekend.sun] := by
    have past : (p.values.flatMap (be 2)).length = 32 := length_flatMap_be 2 _
    exact (past ▸ fieldAt_skip (p.values.flatMap (be 2)) _ 0 1).trans (fieldAt_flagSet (Nat.le_of_ble_eq_true rfl))
  have days : flagsValue
      [p.weekend.mon, p.weekend.tue, p.weekend.wed, p.weekend.thu, p.weekend.fri, p.weekend.sat, p.weekend.sun] < 128 :=
    flagsValue_lt _
  have form : p.bytes.length = 33 := by
    rw [Params.bytes, List.length_append, length_flatMap_be, flagSet, b1, be_length]
    rfl
  unfold readParams
  rw [if_pos form]
  dsimp only
  simp only [values, mask, Nat.reduceLT, Params.values, List.getD_cons_zero, List.getD_cons_succ, flagBit_flagsValue]
  refine judged_value _ ?_
  unfold Params.inRange at fits
  simp only [List.forall_mem_cons, List.not_mem_nil, false_imp_iff, implies_true, and_true, decide_eq_true_eq]
  omega

/-! ## The halt against new levels (R155, R157, R158) -/

/-- Whether the journal is halted once its levels have been loaded (R158). -/
def State.haltJudged (s : State) : Bool :=
  if s.journal.halted = true then decide (s.service.params.resumeLevel < s.journal.records.length)
  else decide (s.service.params.haltLevel ≤ s.journal.records.length)

/-- The judging of loaded levels: the halt alone, with JOURNAL_HALT where it begins or ends. -/
structure HaltJudged (s t : State) : Prop where
  rest : t = { s with journal := { s.journal with halted := s.haltJudged }, host := t.host }
  noticed : Noticed s t
  tells : ∀ k, t.tells k = (s.tells k || (k == .journalHalt && s.haltJudged != s.journal.halted))

theorem HaltJudged.of_stays (stays : s.haltJudged = s.journal.halted) : HaltJudged s s :=
  ⟨by rw [stays], .of_host rfl, fun k => by simp [stays]⟩

theorem HaltJudged.of_turns (turns : s.haltJudged = !s.journal.halted) :
    HaltJudged s ((s.onJournal fun j => { j with halted := s.haltJudged }).raise .journalHalt) :=
  ⟨rfl, (Noticed.of_raise _ _).after rfl, fun k => by
    rw [State.raise_tells_eq, turns]
    cases s.journal.halted <;> simp [State.tells]⟩

theorem haltJudged_judgeLoadedLevels (s : State) : HaltJudged s s.judgeLoadedLevels := by
  unfold State.judgeLoadedLevels State.judgeResume State.judgeHalt
  cases halted : s.journal.halted with
  | true =>
    by_cases low : s.journal.records.length ≤ s.service.params.resumeLevel
    · have judged : s.haltJudged = false := by simp [State.haltJudged, halted, low]
      have turned := HaltJudged.of_turns (s := s) (by rw [judged, halted]; rfl)
      rw [judged] at turned
      simpa [low] using turned
    · have judged : s.haltJudged = true := by simpa [State.haltJudged, halted] using low
      simpa [low] using HaltJudged.of_stays (judged.trans halted.symm)
  | false =>
    by_cases high : s.service.params.haltLevel ≤ s.journal.records.length
    · have judged : s.haltJudged = true := by simp [State.haltJudged, halted, high]
      have turned := HaltJudged.of_turns (s := s) (by rw [judged, halted]; rfl)
      rw [judged] at turned
      simpa [high] using turned
    · have judged : s.haltJudged = false := by simpa [State.haltJudged, halted] using high
      simpa [high] using HaltJudged.of_stays (judged.trans halted.symm)

/-! ## The answer to a load, with all it tells (R169) -/

/-- The part as an applied load leaves the service state, before the reply (R169). -/
def State.settled (s : State) : State :=
  if s.service.state = .suspended ∧ s.missing.any = true then s.enterService .outOfService else s

theorem settled_noticed (s : State) : Noticed s s.settled := by
  unfold State.settled
  split
  · exact (Noticed.of_raise _ _).after rfl
  · exact .of_host rfl

theorem settled_tells (s : State) (k : NoticeKind) :
    s.settled.tells k = (s.tells k || (k == .serviceState && s.settled.service.state != s.service.state)) := by
  unfold State.settled
  split
  · rename_i falls
    have differs : (ServiceState.outOfService != ServiceState.suspended) = true := rfl
    rw [enterService_service, falls.1, State.enterService, State.raise_tells_eq]
    simp [State.tells, differs]
  · simp

/-- A load that raised at most notices is answered, and tells what it told and a change of the service state. -/
theorem loaded_answered (admitted : s.admits tag kind) (noticed : Noticed (s.asked tag) v) :
    Answered s (v.loaded tag kind).pump tag kind
        (.loaded (v.loaded tag kind).pump.service.state (v.loaded tag kind).pump.missing) ∧
      ∀ k, (v.loaded tag kind).pump.tells k =
        (v.tells k || (k == .serviceState && (v.loaded tag kind).pump.service.state != v.service.state)) := by
  have path : v.loaded tag kind =
      v.settled.reply tag kind (.loaded v.settled.service.state v.settled.missing) := rfl
  have service : (v.loaded tag kind).pump.service = v.settled.service := by
    rw [path, State.pump_service, State.reply_service]
  have missing : (v.loaded tag kind).pump.missing = v.settled.missing := by
    rw [State.missing, service, State.pump_time, path, State.reply_time]
    rfl
  rw [service, missing, path]
  obtain ⟨host, formed, -⟩ := noticed.trans (settled_noticed v)
  have untaken := ((State.admits_iff s tag kind).1 admitted).1
  refine ⟨.of_reply _ untaken ?_ formed ?_ ?_ ?_ ?_ ?_ ?_ ?_, fun k => ?_⟩
  case refine_6 => rw [host]; exact ⟨rfl, rfl⟩
  case refine_9 => rw [reply_pump_tells, settled_tells]
  all_goals
    rw [host]
    rfl

/-! ## The sounder under a new duration (R131) -/

/-- A run goes on under the shorter of two durations only (log 37). -/
theorem sounderUnder_runs (clock before after : Nat) (run : Option Nat) :
    (sounderUnder clock before after run).elim false (soundsFor clock after) =
      (run.elim false (soundsFor clock before) && run.elim false (soundsFor clock after)) := by
  cases run with
  | none => rfl
  | some t =>
    cases old : soundsFor clock before t <;> cases new : soundsFor clock after t <;>
      simp [sounderUnder, Option.filter, old, new]

/-! ## The load as a whole -/

/-- The part with the parameters and the sounder run replaced, before its halt is judged. -/
def State.withParams (p : Params) (tag : Byte) (s : State) : State :=
  { s.asked tag with
    service := { s.service with params := p },
    passage :=
      { s.passage with
        sounder := sounderUnder s.clock s.service.params.sounderDuration p.sounderDuration s.passage.sounder } }

theorem exec_setParameters (loads : s.service.pauses) (fits : p.inRange) (admitted : s.admits tag .setParameters) :
    exec (.setParameters tag p.bytes) s =
      .next ((s.withParams p tag).judgeLoadedLevels.loaded tag .setParameters).pump := by
  show loadRequest tag .setParameters (readParams p.bytes) State.applyParams s = _
  rw [readParams_bytes fits, loadRequest_value p _ admitted loads]
  rfl

theorem sounderExpiry_ends (s : State) :
    exec .sounderExpiry s = .next (s.onPassage fun g => { g with sounder := none }).pump := rfl

/-- Settles O18: the parameters and what is judged against them; the end of a sounder run leaves none to time. -/
theorem parametersAreReplacedTogether : Obligations.ParametersAreReplacedTogether := by
  refine ⟨fun s => ⟨_, sounderExpiry_ends s, .of_host rfl, ?_, State.pump_rest _⟩, fun s tag p loads fits admitted => ?_⟩
  · rw [State.sounderRuns, State.pump_passage]
    exact Bool.and_false _
  obtain ⟨rest, noticed, tells⟩ := haltJudged_judgeLoadedLevels (s.withParams p tag)
  refine ⟨_, exec_setParameters loads fits admitted, ?_⟩
  generalize (s.withParams p tag).judgeLoadedLevels = v at *
  have untaken : v.host.resetTaken = false := by
    rw [noticed.host]
    exact ((State.admits_iff s tag .setParameters).1 admitted).1
  obtain ⟨answered, told⟩ := loaded_answered admitted (noticed.after rfl : Noticed (s.asked tag) v)
  obtain ⟨frame, service, -, -, -⟩ := loadAnswered_loaded untaken tag .setParameters
  generalize (v.loaded tag .setParameters).pump = t at *
  have journal : t.journal = { s.journal with halted := (s.withParams p tag).haltJudged } := by
    rw [frame, rest]
    rfl
  have passage : t.passage = (s.withParams p tag).passage := by rw [frame, rest]
  have service : t.service =
      { s.service with
        params := p,
        state := if s.service.state = .suspended ∧ t.missing.any = true then .outOfService else s.service.state } := by
    rw [service, rest]
    rfl
  have clock : t.clock = s.clock := by
    rw [frame, rest]
    rfl
  have state : v.service.state = s.service.state := by
    rw [rest]
    rfl
  refine ⟨answered, ?_, service, journal, ?_, ?_, fun k => ?_⟩
  · rw [journal, passage]
    refine frame.trans ?_
    rw [rest]
    rfl
  · rw [passage]
    rfl
  · rw [State.sounderRuns, passage, clock, service]
    refine (congrArg (s.passage.latches.any && ·) (sounderUnder_runs ..)).trans ?_
    rw [← Bool.and_assoc]
    rfl
  · rw [told, tells, state, journal]
    rfl

end Sys2Proof.Machine
end

section
/-! Occupants leave the passage: what a settled place changes of the part, and settling occupant by occupant (R117 to
R120, R129, R134). -/

namespace Sys2Proof.Machine

variable {s t u v : State} {d : Direction} {m : Side} {k : SlotId} {o x : Occupant} {before after xs ys : List Occupant}
  {p q : Occupant → Bool}

/-! ## The claim as it is judged anew (R117 to R120) -/

theorem regranted_settleClaim (s : State) : Regranted s s.settleClaim :=
  regranted_judgeWaiting.of_claim fun d => Claim.release_waits _ _ d

/-- A grant keeps the direction, or takes that of the occupants (R118). -/
theorem judgeWaiting_direction (mem : o ∈ s.passage.occupants) :
    s.judgeWaiting.passage.claim.direction = s.passage.claim.direction ∨
      (s.passage.claim.direction = none ∧ s.judgeWaiting.passage.claim.direction = some o.direction) := by
  unfold State.judgeWaiting
  split
  · rename_i side chosen
    obtain ⟨claim, -, -, same⟩ := (State.grantable_iff _).1 (State.grantChoice_some chosen).2
    unfold State.grantPort
    split
    · rename_i j _
      rw [State.onPort_passage]
      have taken : ((s.passage.claim.setWait side false).grant j (dirOf side) (.context side)).direction =
          some (s.passage.claim.direction.getD (dirOf side)) := by cases side <;> rfl
      rw [State.onClaim, State.onPassage_passage, taken, same o mem]
      exact claim.symm.imp (fun had => by rw [had]; rfl) fun none_ => ⟨none_, by rw [none_]; rfl⟩
    · exact .inl rfl
  · exact .inl rfl

/-- While an occupant stands the direction stays, or becomes the occupants' (R117, R118). -/
theorem settleClaim_direction (mem : o ∈ s.passage.occupants) :
    s.settleClaim.passage.claim.direction = s.passage.claim.direction ∨
      (s.passage.claim.direction = none ∧ s.settleClaim.passage.claim.direction = some o.direction) := by
  have stands : s.passage.occupants.isEmpty = false := by
    rw [List.isEmpty_eq_false_iff]
    exact List.ne_nil_of_mem mem
  have keeps : s.passage.claim.release s.passage.occupants.isEmpty = s.passage.claim := by simp [Claim.release, stands]
  have same : s.settleClaim = s.judgeWaiting := by
    refine congrArg State.judgeWaiting ?_
    show { s with passage := { s.passage with claim := s.passage.claim.release s.passage.occupants.isEmpty } } = s
    rw [keeps]
  rw [same]
  exact judgeWaiting_direction mem

theorem removeCredit_direction (mem : o ∈ s.passage.occupants) :
    (s.removeCredit k).passage.claim.direction = s.passage.claim.direction ∨
      (s.passage.claim.direction = none ∧ (s.removeCredit k).passage.claim.direction = some o.direction) := by
  have kept : ∃ x ∈ (s.passage.dropCredit k).occupants, x.direction = o.direction :=
    ⟨_, List.mem_map_of_mem mem, by split <;> rfl⟩
  obtain ⟨x, mem, same⟩ := kept
  have judged := settleClaim_direction
    (s := (s.onPassage (Passage.dropCredit k)).onClaim fun c => c.setSlot k none) (o := x) mem
  rw [same] at judged
  cases k <;> exact judged

/-! ## What departures change of the part -/

theorem unwaited_of {g : Passage} (noU : g.claim.waitU = false) (noP : g.claim.waitP = false) : g.unwaited
  | .U => noU
  | .P => noP

/-- The leaves stand where nothing but an occupied LEAF can keep them from going on (R134). -/
def State.leavesReady (s : State) : Prop :=
  (s.passage.leaf = .closed ∨ s.passage.leaf = .closing → s.commandOpen = false) ∧
    (s.passage.leaf = .opened → s.alarmsSuppressed = false) ∧ (s.passage.leaf = .heldOpen → s.alarmsSuppressed = true)

theorem leavesReady_of_settled (settled : s.leavesSettled) : s.leavesReady := by
  obtain ⟨shut, opened, held⟩ := leavesSettled_iff.1 settled
  exact ⟨shut, fun at_ => (opened at_).1, held⟩

/-- Occupants have left or changed their places, and credits with them: claim and ports follow, the leaves may have
begun to close, no credit and no body has come, and nothing else is different. -/
structure Departed (s t : State) : Prop where
  rest : t = { s with portU := t.portU, portP := t.portP, passage := t.passage }
  aisle : t.passage =
    { s.passage with
      claim := t.passage.claim, credits := t.passage.credits, occupants := t.passage.occupants,
      leaf := t.passage.leaf, travel := t.passage.travel }
  fewer : s.passage.credits = [] → t.passage.credits = []
  bodies : ∀ o ∈ t.passage.occupants, ∃ x ∈ s.passage.occupants, x.direction = o.direction
  direction : ∀ o ∈ t.passage.occupants,
    t.passage.claim.direction = s.passage.claim.direction ∨
      (s.passage.claim.direction = none ∧ t.passage.claim.direction = some o.direction)
  leaves : s.leavesReady →
    t.passage.leaf = s.passage.leaf ∨
      (s.passage.leaf = .opened ∧ s.pins.leaf = false ∧ t.passage.leaf = .closing ∧ t.passage.credits = [])
  ports : s.passage.unwaited → t.portU = s.portU ∧ t.portP = s.portP ∧ t.passage.unwaited
  free : s.passage.unwaited → ∀ k, s.passage.claim.slot k = none → t.passage.claim.slot k = none
  freed : s.passage.unwaited → ∀ c ∈ s.passage.credits, (∀ x ∈ t.passage.credits, x.slot ≠ c.slot) →
    t.passage.claim.slot c.slot = none

theorem Departed.commandOpen (h : Departed s t) :
    t.commandOpen = (s.emergency.line || s.passage.holdOpen || !t.passage.credits.isEmpty) := by
  rw [State.commandOpen, h.rest, h.aisle]

theorem Departed.alarmsSuppressed (h : Departed s t) : t.alarmsSuppressed = s.alarmsSuppressed := by
  rw [State.alarmsSuppressed, h.rest, h.aisle]
  rfl

theorem Departed.mouth (h : Departed s t) : t.mouth = s.mouth := by
  rw [h.rest]
  rfl

theorem Departed.creditUntil (h : Departed s t) : t.creditUntil = s.creditUntil := by
  rw [h.rest]
  rfl

theorem Departed.ready (h : Departed s t) (ready : s.leavesReady) : t.leavesReady := by
  have moved := h.leaves ready
  obtain ⟨shut, opened, held⟩ := ready
  obtain same | ⟨from_, -, closing, none_⟩ := moved
  · refine ⟨fun at_ => ?_, fun at_ => ?_, fun at_ => ?_⟩
    · have closed := shut (same ▸ at_)
      simp only [State.commandOpen, Bool.or_eq_false_iff, Bool.not_eq_false', List.isEmpty_iff] at closed
      obtain ⟨⟨line, hold⟩, credits⟩ := closed
      rw [h.commandOpen, line, hold, h.fewer credits]
      rfl
    · rw [h.alarmsSuppressed]
      exact opened (same ▸ at_)
    · rw [h.alarmsSuppressed]
      exact held (same ▸ at_)
  · have free := opened from_
    rw [State.alarmsSuppressed, Bool.or_eq_false_iff] at free
    refine ⟨fun _ => ?_, fun at_ => ?_, fun at_ => ?_⟩
    · rw [h.commandOpen, free.1, free.2, none_]
      rfl
    · exact absurd (closing.symm.trans at_) nofun
    · exact absurd (closing.symm.trans at_) nofun

theorem Departed.refl (s : State) : Departed s s :=
  ⟨rfl, rfl, id, fun o mem => ⟨o, mem, rfl⟩, fun _ _ => .inl rfl, fun _ => .inl rfl, fun none_ => ⟨rfl, rfl, none_⟩,
    fun _ _ => id, fun _ c mem gone => absurd rfl (gone c mem)⟩

theorem Departed.trans (h : Departed s t) (j : Departed t u) : Departed s u where
  rest := by rw [j.rest, h.rest]
  aisle := by rw [j.aisle, h.aisle]
  fewer none_ := j.fewer (h.fewer none_)
  bodies o mem := by
    obtain ⟨x, mem, same⟩ := j.bodies o mem
    obtain ⟨y, mem, as⟩ := h.bodies x mem
    exact ⟨y, mem, as.trans same⟩
  direction o mem := by
    obtain ⟨x, there, same⟩ := j.bodies o mem
    have first := h.direction x there
    rw [same] at first
    obtain second | ⟨none_, taken⟩ := j.direction o mem
    · rwa [second]
    · exact .inr ⟨first.elim (fun kept => kept ▸ none_) And.left, taken⟩
  leaves ready := by
    have pins : t.pins = s.pins := by rw [h.rest]
    obtain second | ⟨from_, clear, closing, none_⟩ := j.leaves (h.ready ready)
    · obtain first | ⟨from_, clear, closing, none_⟩ := h.leaves ready
      · exact .inl (second.trans first)
      · exact .inr ⟨from_, clear, second.trans closing, j.fewer none_⟩
    · obtain first | ⟨-, -, shut, -⟩ := h.leaves ready
      · exact .inr ⟨first ▸ from_, pins ▸ clear, closing, none_⟩
      · exact nomatch shut.symm.trans from_
  ports none_ := by
    obtain ⟨portU, portP, none_⟩ := h.ports none_
    obtain ⟨atU, atP, none_⟩ := j.ports none_
    exact ⟨atU.trans portU, atP.trans portP, none_⟩
  free none_ k free := j.free (h.ports none_).2.2 k (h.free none_ k free)
  freed none_ c mem gone := by
    by_cases still : ∃ x ∈ t.passage.credits, x.slot = c.slot
    · obtain ⟨x, there, same⟩ := still
      exact same ▸ j.freed (h.ports none_).2.2 x there (same ▸ gone)
    · exact j.free (h.ports none_).2.2 _ (h.freed none_ c mem fun x there same => still ⟨x, there, same⟩)

/-- The part with other occupants in the passage, of the bodies it had, and credits in other states. -/
def State.standing (xs : List Occupant) (cs : List Credit) (s : State) : State :=
  s.onPassage fun g => { g with occupants := xs, credits := cs }

theorem departed_standing {cs : List Credit} (bodies : ∀ o ∈ xs, ∃ x ∈ s.passage.occupants, x.direction = o.direction)
    (slots : cs.map Credit.slot = s.passage.credits.map Credit.slot) : Departed s (s.standing xs cs) where
  rest := rfl
  aisle := rfl
  fewer none_ := by
    show cs = []
    simpa [none_] using slots
  bodies := bodies
  direction _ _ := .inl rfl
  leaves _ := .inl rfl
  ports none_ := ⟨rfl, rfl, none_⟩
  free _ _ := id
  freed _ c mem gone := by
    obtain ⟨x, there, same⟩ := List.mem_map.1 (slots ▸ List.mem_map_of_mem mem : c.slot ∈ cs.map Credit.slot)
    exact absurd same (gone x there)

theorem departed_settleClaim (s : State) : Departed s s.settleClaim := by
  have regranted := regranted_settleClaim s
  have aisle := regranted.passage
  have credits : s.settleClaim.passage.credits = s.passage.credits := by rw [aisle]
  have occupants : s.settleClaim.passage.occupants = s.passage.occupants := by rw [aisle]
  have unasked (none_ : s.passage.unwaited) :
      s.settleClaim = s.onClaim (Claim.release s.passage.occupants.isEmpty) :=
    judgeWaiting_unwaited fun d => (Claim.release_waits _ _ d).trans (none_ d)
  exact
    { rest := regranted.rest
      aisle := by rw [aisle]
      fewer := fun none_ => credits.trans none_
      bodies := fun o mem => ⟨o, occupants ▸ mem, rfl⟩
      direction := fun o mem => settleClaim_direction (occupants ▸ mem)
      leaves := fun _ => .inl (by rw [aisle])
      ports := fun none_ => by
        rw [unasked none_]
        exact ⟨rfl, rfl, fun d => (Claim.release_waits _ _ d).trans (none_ d)⟩
      free := fun none_ k free => by
        rw [unasked none_]
        exact (Claim.release_slot ..).trans free
      freed := fun _ c mem gone => absurd rfl (gone c (credits ▸ mem)) }

theorem departed_removeCredit (k : SlotId) (s : State) : Departed s (s.removeCredit k) := by
  obtain ⟨r, removed, regranted, credits⟩ := removeCredit_regranted k s
  have aisle := regranted.passage
  rw [← removed] at regranted aisle credits
  have occupants : (s.removeCredit k).passage.occupants = (s.passage.dropCredit k).occupants := by rw [aisle]; rfl
  have bodies : ∀ o ∈ (s.removeCredit k).passage.occupants, ∃ x ∈ s.passage.occupants, x.direction = o.direction := by
    intro o mem
    rw [occupants] at mem
    obtain ⟨x, there, rfl⟩ := List.mem_map.1 mem
    exact ⟨x, there, by split <;> rfl⟩
  exact
    { rest := regranted.rest
      aisle := by rw [aisle]; rfl
      fewer := fun none_ => by rw [credits, none_]; rfl
      bodies := bodies
      direction := fun o mem => by
        obtain ⟨x, there, same⟩ := bodies o mem
        exact same ▸ removeCredit_direction there
      leaves := fun _ => .inl (by rw [aisle]; rfl)
      ports := fun none_ => by
        rw [removeCredit_unwaited k none_]
        exact ⟨rfl, rfl, Passage.uncredit_unwaited k none_⟩
      free := fun none_ j free => by
        rw [removeCredit_unwaited k none_]
        refine (Passage.vacate_slot ..).trans ?_
        split
        · rfl
        · exact free
      freed := fun none_ c mem gone => by
        rw [removeCredit_unwaited k none_]
        refine (Passage.vacate_slot ..).trans (if_pos ?_)
        by_contra other
        refine gone c ?_ rfl
        rw [credits]
        exact List.mem_filter.2 ⟨mem, by simpa using Ne.symm other⟩ }

/-- Leaves that stand ready stay, or close where they were open and nothing commands them open (R134). -/
theorem settleLeaves_leaf (ready : s.leavesReady) :
    s.settleLeaves.passage.leaf =
      if s.passage.leaf = .opened ∧ s.commandOpen = false ∧ s.pins.leaf = false then .closing
      else s.passage.leaf := by
  obtain ⟨shut, opened, held⟩ := ready
  unfold State.settleLeaves State.closeIfClear
  cases leaf : s.passage.leaf with
  | opened =>
    rw [opened leaf]
    cases s.commandOpen <;> cases s.pins.leaf <;> simp [leaf, Passage.travelTo]
  | closed | closing => simp [leaf, shut]
  | heldOpen => simp [leaf, held]
  | opening | fault => simp [leaf]

theorem departed_settleLeaves (s : State) : Departed s s.settleLeaves := by
  have rest := settleLeaves_rest s
  have leaf := settleLeaves_leaf (s := s)
  generalize s.settleLeaves = t at *
  generalize t.passage.travel = travel at rest
  have at_ : t.passage.leaf = t.passage.leaf := rfl
  generalize shut : t.passage.leaf = l at rest leaf
  subst rest
  exact
    { rest := rfl
      aisle := rfl
      fewer := id
      bodies := fun o mem => ⟨o, mem, rfl⟩
      direction := fun _ _ => .inl rfl
      leaves := fun ready => by
        show l = _ ∨ _ ∧ _ ∧ l = _ ∧ s.passage.credits = []
        rw [leaf ready]
        split
        · rename_i closes
          obtain ⟨from_, command, clear⟩ := closes
          refine .inr ⟨from_, clear, rfl, ?_⟩
          simp only [State.commandOpen, Bool.or_eq_false_iff, Bool.not_eq_false', List.isEmpty_iff] at command
          exact command.2
        · exact .inl rfl
      ports := fun none_ => ⟨rfl, rfl, none_⟩
      free := fun _ _ => id
      freed := fun _ c mem gone => absurd rfl (gone c mem) }

/-! ## One occupant completes its passage (R129) -/

/-- An occupant without the credit that another held; one that holds none is as before. -/
def Occupant.without (credit : Option SlotId) (x : Occupant) : Occupant :=
  if x.credit = credit then { x with credit := none } else x

theorem without_none (x : Occupant) : x.without none = x := by
  unfold Occupant.without
  split
  · rename_i none_
    cases x
    exact congrArg _ none_.symm
  · rfl

/-- An observation of an occupant that does not look at its credit. -/
def CreditBlind {β : Type} (f : Occupant → β) : Prop := ∀ x credit, f { x with credit := credit } = f x

theorem CreditBlind.without {β : Type} {f : Occupant → β} (blind : CreditBlind f) (credit : Option SlotId)
    (x : Occupant) : f (x.without credit) = f x := by
  unfold Occupant.without
  split
  · exact blind x none
  · rfl

theorem exists_first {α : Type} {p : α → Bool} {a : α} {as : List α} (found : as.find? p = some a) :
    ∃ before after, as = before ++ a :: after ∧ (∀ x ∈ before, p x = false) ∧ p a = true := by
  obtain ⟨here, before, after, split_, passed⟩ := List.find?_eq_some_iff_append.1 found
  exact ⟨before, after, split_, fun x mem => by simpa using passed x mem, here⟩

theorem complete_none (none_ : s.passage.occupants.find? p = none) : s.complete p = s := by
  rw [State.complete, none_]

/-- The first occupant that meets the test goes; its credit is used. -/
theorem complete_first (occupants : s.passage.occupants = before ++ o :: after) (passed : ∀ x ∈ before, p x = false)
    (here : p o = true) :
    s.complete p =
      o.credit.elim (s.standing (before ++ after) s.passage.credits).settleClaim fun k =>
        ((s.standing (before ++ after) s.passage.credits).removeCredit k).settleLeaves := by
  unfold State.complete
  rw [occupants, find?_first passed here]
  have gone : (s.onPassage fun g => { g with occupants := dropFirst p g.occupants }) =
      s.standing (before ++ after) s.passage.credits := by
    show { s with passage := { s.passage with occupants := dropFirst p s.passage.occupants } } = _
    rw [occupants, dropFirst_first passed here]
    rfl
  simp only [gone]
  cases o.credit <;> rfl

theorem departed_complete (p : Occupant → Bool) (s : State) : Departed s (s.complete p) := by
  cases found : s.passage.occupants.find? p with
  | none =>
    rw [complete_none found]
    exact .refl s
  | some o =>
    obtain ⟨before, after, occupants, passed, here⟩ := exists_first found
    have gone : Departed s (s.standing (before ++ after) s.passage.credits) :=
      departed_standing (fun x mem => ⟨x, by rw [occupants]; grind, rfl⟩) rfl
    rw [complete_first occupants passed here]
    cases o.credit with
    | none => exact gone.trans (departed_settleClaim _)
    | some k => exact (gone.trans (departed_removeCredit k _)).trans (departed_settleLeaves _)

/-- Who is left, and with which credits. -/
theorem complete_left (occupants : s.passage.occupants = before ++ o :: after) (passed : ∀ x ∈ before, p x = false)
    (here : p o = true) :
    (s.complete p).passage.occupants = (before ++ after).map (Occupant.without o.credit) ∧
      (s.complete p).passage.credits = s.passage.credits.filter fun c => !(o.credit == some c.slot) := by
  rw [complete_first occupants passed here]
  cases o.credit with
  | none =>
    have aisle := (regranted_settleClaim (s.standing (before ++ after) s.passage.credits)).passage
    constructor
    · refine (congrArg Passage.occupants aisle).trans ?_
      exact ((List.map_congr_left fun x _ => without_none x).trans (List.map_id _)).symm
    · refine (congrArg Passage.credits aisle).trans ?_
      exact (List.filter_eq_self.2 fun _ _ => rfl).symm
  | some k =>
    obtain ⟨r, removed, regranted, credits⟩ := removeCredit_regranted k (s.standing (before ++ after) s.passage.credits)
    have aisle := regranted.passage
    rw [← removed] at aisle credits
    rw [Option.elim_some, settleLeaves_rest]
    refine ⟨(congrArg Passage.occupants aisle).trans rfl, credits.trans ?_⟩
    refine List.filter_congr fun c _ => ?_
    simp [bne, BEq.comm (a := k)]

/-! ## What the occupants hold (R121, R127) -/

/-- A slot is held by an occupant of a kind. -/
def slotHeld (q : Occupant → Bool) (xs : List Occupant) (k : SlotId) : Bool := xs.any fun o => o.credit == some k && q o

/-- The credits that no occupant of a kind holds. -/
def Passage.kept (q : Occupant → Bool) (g : Passage) : List Credit :=
  g.credits.filter fun c => !slotHeld q g.occupants c.slot

/-- The slots of the credits that a kind of occupants held stand free (R120). -/
theorem Departed.freed_of_kept (h : Departed s t) (none_ : s.passage.unwaited)
    (credits : t.passage.credits = s.passage.kept q) :
    ∀ c ∈ s.passage.credits, c ∉ s.passage.kept q → t.passage.claim.slot c.slot = none := by
  refine fun c mem gone => h.freed none_ c mem fun x there same => gone ?_
  rw [credits] at there
  exact List.mem_filter.2 ⟨mem, same ▸ (List.mem_filter.1 there).2⟩

theorem slotHeld_eq_false (none_ : ∀ x ∈ xs, q x = false) (k : SlotId) : slotHeld q xs k = false :=
  List.any_eq_false.2 fun x mem => by simp [none_ x mem]

theorem kept_eq_credits {g : Passage} (none_ : ∀ x ∈ g.occupants, q x = false) : g.kept q = g.credits :=
  List.filter_eq_self.2 fun c _ => by rw [slotHeld_eq_false none_]; rfl

theorem slotHeld_without (blind : CreditBlind q) {credit : Option SlotId} (other : credit ≠ some k) :
    slotHeld q (xs.map (Occupant.without credit)) k = slotHeld q xs k := by
  unfold slotHeld
  rw [List.any_map]
  refine congrArg (List.any xs) (funext fun x => ?_)
  have same : ((x.without credit).credit == some k) = (x.credit == some k) := by
    unfold Occupant.without
    split
    · rename_i held
      rw [held]
      exact (beq_eq_false_iff_ne.2 other).symm
    · rfl
  rw [Function.comp, blind.without, same]

theorem slotHeld_split (k : SlotId) :
    slotHeld q (before ++ o :: after) k = ((o.credit == some k && q o) || slotHeld q (before ++ after) k) := by
  unfold slotHeld
  rw [List.any_append, List.any_cons, List.any_append]
  exact Bool.or_left_comm ..

/-- The passage of one who holds a kept-out credit changes nothing of what is kept. -/
theorem complete_kept (blind : CreditBlind q) (occupants : s.passage.occupants = before ++ o :: after)
    (passed : ∀ x ∈ before, p x = false) (here : p o = true) (goes : q o = true) :
    (s.complete p).passage.kept q = s.passage.kept q := by
  obtain ⟨left, credits⟩ := complete_left occupants passed here
  unfold Passage.kept
  rw [left, credits, occupants, List.filter_filter]
  refine List.filter_congr fun c _ => ?_
  rw [slotHeld_split, goes, Bool.and_true]
  cases holds : o.credit == some c.slot with
  | true => simp
  | false => rw [slotHeld_without blind (beq_eq_false_iff_ne.1 holds)]; simp

/-- Each credit is held by one occupant at most. -/
def Passage.heldApart (g : Passage) : Prop := (g.occupants.filterMap Occupant.credit).Nodup

/-- The credit of one is no one else's. -/
theorem others_without (apart : ((before ++ o :: after).filterMap Occupant.credit).Nodup) :
    (before ++ after).map (Occupant.without o.credit) = before ++ after := by
  refine (List.map_congr_left fun x mem => ?_).trans (List.map_id _)
  cases holds : o.credit with
  | none => exact without_none x
  | some k =>
    refine if_neg fun same => ?_
    have perm : (before ++ o :: after).Perm (o :: (before ++ after)) := List.perm_middle
    have nodup := (perm.filterMap Occupant.credit).nodup_iff.1 apart
    rw [List.filterMap_cons_some holds, List.nodup_cons] at nodup
    exact nodup.1 (List.mem_filterMap.2 ⟨x, mem, same⟩)

/-- Occupants that keep their credits or lose them hold them apart. -/
theorem heldApart_replaced (apart : ((before ++ o :: after).filterMap Occupant.credit).Nodup)
    (sub : (ys.filterMap Occupant.credit).Sublist ([o].filterMap Occupant.credit)) :
    ((before ++ ys ++ after).filterMap Occupant.credit).Nodup := by
  refine apart.sublist ?_
  rw [List.append_assoc, List.filterMap_append, List.filterMap_append, ← List.singleton_append, List.filterMap_append,
    List.filterMap_append]
  exact (sub.append_right _).append_left _

/-! ## Occupant by occupant -/

/-- What each step keeps, and of which the value stays, holds at the end, with no occupant left that the steps are
for. -/
theorem forEachOccupant_settles {α : Type} {f : State → State} {keeps : State → Prop} {value : State → α}
    (step : ∀ u, keeps u →
      keeps (f u) ∧ value (f u) = value u ∧
        (f u).passage.occupants.countP p ≤ u.passage.occupants.countP p - 1)
    (start : keeps s) :
    keeps (s.forEachOccupant f) ∧ value (s.forEachOccupant f) = value s ∧
      ∀ x ∈ (s.forEachOccupant f).passage.occupants, p x = false := by
  have run : ∀ n (u : State), keeps u → u.passage.occupants.countP p ≤ n →
      keeps (f^[n] u) ∧ value (f^[n] u) = value u ∧ (f^[n] u).passage.occupants.countP p = 0 := by
    intro n
    induction n with
    | zero => exact fun u start few => ⟨start, rfl, Nat.le_zero.1 few⟩
    | succ n ih =>
      intro u start few
      obtain ⟨kept, same, fewer⟩ := step u start
      obtain ⟨kept, final, none_⟩ := ih (f u) kept (by omega)
      exact ⟨kept, final.trans same, none_⟩
  obtain ⟨kept, same, none_⟩ := run s.passage.occupants.length s start List.countP_le_length
  exact ⟨kept, same, fun x mem => by simpa using List.countP_eq_zero.1 none_ x mem⟩

theorem countP_replaced (here : p o = true) (none_ : ∀ x ∈ ys, p x = false) :
    (before ++ ys ++ after).countP p = (before ++ o :: after).countP p - 1 := by
  have gone : ys.countP p = 0 := List.countP_eq_zero.2 fun x mem => by simp [none_ x mem]
  rw [List.countP_append, List.countP_append, List.countP_append, List.countP_cons_of_pos here, gone, Nat.add_zero]
  rfl

theorem countP_without (blind : CreditBlind p) (credit : Option SlotId) :
    (xs.map (Occupant.without credit)).countP p = xs.countP p := by
  rw [List.countP_map]
  exact congrArg (List.countP · xs) (funext fun x => blind.without credit x)

theorem flatMap_without {β : Type} {f : Occupant → List β} (blind : CreditBlind f) (credit : Option SlotId) :
    (xs.map (Occupant.without credit)).flatMap f = xs.flatMap f := by
  rw [List.flatMap_map]
  exact congrArg (List.flatMap · xs) (funext fun x => blind.without credit x)

/-- One occupant fewer completes. -/
theorem complete_countP (blind : CreditBlind p) (s : State) :
    (s.complete p).passage.occupants.countP p ≤ s.passage.occupants.countP p - 1 := by
  cases found : s.passage.occupants.find? p with
  | none =>
    have none_ : s.passage.occupants.countP p = 0 := List.countP_eq_zero.2 (List.find?_eq_none.1 found)
    rw [complete_none found, none_]
  | some o =>
    obtain ⟨before, after, occupants, passed, here⟩ := exists_first found
    rw [(complete_left occupants passed here).1, countP_without blind, occupants]
    have one := countP_replaced (before := before) (after := after) (ys := []) here nofun
    rw [List.append_nil] at one
    exact one.le

/-- An observation that passes over those that complete stays. -/
theorem complete_flatMap {β : Type} {f : Occupant → List β} (blind : CreditBlind f) (skips : ∀ x, p x = true → f x = [])
    (s : State) : (s.complete p).passage.occupants.flatMap f = s.passage.occupants.flatMap f := by
  cases found : s.passage.occupants.find? p with
  | none => rw [complete_none found]
  | some o =>
    obtain ⟨before, after, occupants, passed, here⟩ := exists_first found
    rw [(complete_left occupants passed here).1, flatMap_without blind, occupants, List.flatMap_append,
      List.flatMap_append, List.flatMap_cons, skips o here, List.nil_append]

end Sys2Proof.Machine
end

section
/-! LEAF_CLEAR: each occupant at LEAF goes on, steps back or has passed (R128, R129, R134). -/

namespace Sys2Proof.Machine

variable {s t u v : State} {k : SlotId} {o x : Occupant} {before after xs : List Occupant} {mouth : Side → Bool}

/-! ## One occupant at LEAF (R128) -/

/-- Where an occupant stands and where it goes, whatever it holds. -/
def Occupant.place (o : Occupant) : Direction × Stage := (o.direction, o.stage)

/-- An occupant once LEAF is clear, by the mouths (R128). -/
def Occupant.cleared (mouth : Side → Bool) (o : Occupant) : List Occupant :=
  if o.stage ≠ .leaf then [o]
  else if mouth (farMouth o.direction) = true then [{ o with stage := .far }]
  else if mouth (sideOf o.direction) = true then [{ o with stage := .mouth, credit := none }]
  else []

/-- An occupant at LEAF that LEAF_CLEAR finds gone. -/
def Occupant.passes (mouth : Side → Bool) (o : Occupant) : Bool :=
  o.stage == .leaf && !mouth (farMouth o.direction) && !mouth (sideOf o.direction)

/-- An occupant at LEAF that LEAF_CLEAR finds back at its mouth. -/
def Occupant.stepsBack (mouth : Side → Bool) (o : Occupant) : Bool :=
  o.stage == .leaf && !mouth (farMouth o.direction) && mouth (sideOf o.direction)

theorem atLeaf_iff : o.atLeaf = true ↔ o.stage = .leaf := by simp [Occupant.atLeaf]

theorem atLeaf_blind : CreditBlind Occupant.atLeaf := fun _ _ => rfl

theorem passes_blind (mouth : Side → Bool) : CreditBlind (Occupant.passes mouth) := fun _ _ => rfl

theorem stepsBack_blind (mouth : Side → Bool) : CreditBlind (Occupant.stepsBack mouth) := fun _ _ => rfl

theorem cleared_places_blind (mouth : Side → Bool) :
    CreditBlind fun o => (o.cleared mouth).map Occupant.place := by
  intro x credit
  unfold Occupant.cleared
  dsimp only
  split
  · rfl
  · split
    · rfl
    · split <;> rfl

theorem cleared_off_leaf (o : Occupant) : ∀ x ∈ o.cleared mouth, x.stage ≠ .leaf := by
  intro x mem
  unfold Occupant.cleared at mem
  split at mem
  · obtain rfl := List.mem_singleton.1 mem
    assumption
  · split at mem
    · obtain rfl := List.mem_singleton.1 mem
      exact nofun
    · split at mem
      · obtain rfl := List.mem_singleton.1 mem
        exact nofun
      · exact absurd mem List.not_mem_nil

theorem flatMap_cleared (off : ∀ x ∈ xs, x.stage ≠ .leaf) : xs.flatMap (Occupant.cleared mouth) = xs := by
  induction xs with
  | nil => rfl
  | cons x xs ih =>
    rw [List.flatMap_cons, Occupant.cleared, if_pos (off x List.mem_cons_self),
      ih fun y mem => off y (List.mem_cons_of_mem x mem)]
    rfl

theorem cleared_direction (o : Occupant) : ∀ x ∈ o.cleared mouth, x.direction = o.direction := by
  unfold Occupant.cleared
  split
  · simp
  · split
    · simp
    · split <;> simp

theorem cleared_credits (o : Occupant) :
    ((o.cleared mouth).filterMap Occupant.credit).Sublist ([o].filterMap Occupant.credit) := by
  unfold Occupant.cleared
  split
  · exact .refl _
  · split
    · exact .refl _
    · split <;> exact List.nil_sublist _

/-! ## One step (R128, R129) -/

/-- The credits once one that an occupant held is returned (R128). -/
def returned (credit : Option SlotId) (until_ : Nat) (credits : List Credit) : List Credit :=
  credit.elim credits fun k => returnCredit k until_ credits

theorem returned_eq (credit : Option SlotId) (until_ : Nat) (credits : List Credit) :
    returned credit until_ credits =
      credits.map fun c => if credit = some c.slot then { c with state := .unassigned until_ } else c := by
  cases credit with
  | none => exact ((List.map_congr_left fun _ _ => if_neg nofun).trans (List.map_id _)).symm
  | some k =>
    refine List.map_congr_left fun c _ => ?_
    simp [eq_comm]

theorem returned_slots (credit : Option SlotId) (until_ : Nat) (credits : List Credit) :
    (returned credit until_ credits).map Credit.slot = credits.map Credit.slot := by
  rw [returned_eq, List.map_map]
  refine List.map_congr_left fun c _ => ?_
  rw [Function.comp]
  split <;> rfl

theorem settleLeafOne_none (none_ : s.passage.occupants.find? Occupant.atLeaf = none) : s.settleLeafOne = s := by
  rw [State.settleLeafOne, none_]

section Step

variable (occupants : s.passage.occupants = before ++ o :: after) (passed : ∀ x ∈ before, x.atLeaf = false)
  (here : o.atLeaf = true)
include occupants passed here

/-- The oldest occupant at LEAF goes on. -/
theorem settleLeafOne_on (far : s.mouth (farMouth o.direction) = true) :
    s.settleLeafOne = s.standing (before ++ o.cleared s.mouth ++ after) s.passage.credits := by
  have on : o.cleared s.mouth = [{ o with stage := .far }] := by
    rw [Occupant.cleared, if_neg (not_not.2 (atLeaf_iff.1 here)), if_pos far]
  unfold State.settleLeafOne
  rw [occupants, find?_first passed here, on, List.append_assoc]
  dsimp only
  rw [if_pos far]
  show { s with passage := { s.passage with occupants := changeFirst _ _ s.passage.occupants } } = _
  rw [occupants, changeFirst_first _ passed here]
  rfl

/-- The oldest occupant at LEAF steps back. -/
theorem settleLeafOne_back (far : s.mouth (farMouth o.direction) = false) (near : s.mouth (sideOf o.direction) = true) :
    s.settleLeafOne =
      s.standing (before ++ o.cleared s.mouth ++ after) (returned o.credit s.creditUntil s.passage.credits) := by
  have off : ¬s.mouth (farMouth o.direction) = true := by rw [far]; exact Bool.false_ne_true
  have back : o.cleared s.mouth = [{ o with stage := .mouth, credit := none }] := by
    rw [Occupant.cleared, if_neg (not_not.2 (atLeaf_iff.1 here)), if_neg off, if_pos near]
  unfold State.settleLeafOne
  rw [occupants, find?_first passed here, back, List.append_assoc]
  dsimp only
  rw [if_neg off, if_pos near]
  show { s with
    passage :=
      { s.passage with
        occupants := changeFirst _ _ s.passage.occupants,
        credits := returned o.credit s.creditUntil s.passage.credits } } = _
  rw [occupants, changeFirst_first _ passed here]
  rfl

/-- The oldest occupant at LEAF has passed. -/
theorem settleLeafOne_passed (gone : o.passes s.mouth = true) :
    s.settleLeafOne = s.complete Occupant.atLeaf ∧ o.cleared s.mouth = [] := by
  simp only [Occupant.passes, Bool.and_eq_true, Bool.not_eq_true'] at gone
  obtain ⟨⟨-, far⟩, near⟩ := gone
  have far : ¬s.mouth (farMouth o.direction) = true := by rw [far]; exact Bool.false_ne_true
  have near : ¬s.mouth (sideOf o.direction) = true := by rw [near]; exact Bool.false_ne_true
  refine ⟨?_, ?_⟩
  · unfold State.settleLeafOne
    rw [occupants, find?_first passed here]
    dsimp only
    rw [if_neg far, if_neg near]
  · rw [Occupant.cleared, if_neg (not_not.2 (atLeaf_iff.1 here)), if_neg far, if_neg near]

/-- One that has not passed stays in the passage; claim and ports do not notice. -/
theorem settleLeafOne_stays (stays : o.passes s.mouth = false) :
    ∃ back : Bool, (back = true → o.stepsBack s.mouth = true) ∧ (back = false → o.stepsBack s.mouth = false) ∧
      s.settleLeafOne =
        s.standing (before ++ o.cleared s.mouth ++ after)
          (if back = true then returned o.credit s.creditUntil s.passage.credits else s.passage.credits) := by
  have leaf : (o.stage == .leaf) = true := here
  simp only [Occupant.passes, leaf, Bool.true_and] at stays
  simp only [Occupant.stepsBack, leaf, Bool.true_and]
  cases far : s.mouth (farMouth o.direction) with
  | true => exact ⟨false, nofun, fun _ => rfl, settleLeafOne_on occupants passed here far⟩
  | false =>
    have near : s.mouth (sideOf o.direction) = true := by simpa [far] using stays
    exact ⟨true, fun _ => by rw [near]; rfl, nofun, settleLeafOne_back occupants passed here far near⟩

/-- The occupants after the step. -/
theorem settleLeafOne_occupants :
    (∃ credit, s.settleLeafOne.passage.occupants =
      (before ++ o.cleared s.mouth ++ after).map (Occupant.without credit)) ∧
      (s.passage.heldApart → s.settleLeafOne.passage.occupants = before ++ o.cleared s.mouth ++ after) := by
  cases gone : o.passes s.mouth with
  | true =>
    obtain ⟨run, cleared⟩ := settleLeafOne_passed occupants passed here gone
    rw [run, cleared, List.append_nil, (complete_left occupants passed here).1]
    refine ⟨⟨_, rfl⟩, fun apart => others_without ?_⟩
    rwa [Passage.heldApart, occupants] at apart
  | false =>
    obtain ⟨back, -, -, run⟩ := settleLeafOne_stays occupants passed here gone
    rw [run]
    exact ⟨⟨none, ((List.map_congr_left fun x _ => without_none x).trans (List.map_id _)).symm⟩, fun _ => rfl⟩

end Step

theorem departed_settleLeafOne (s : State) : Departed s s.settleLeafOne := by
  cases found : s.passage.occupants.find? Occupant.atLeaf with
  | none =>
    rw [settleLeafOne_none found]
    exact .refl s
  | some o =>
    obtain ⟨before, after, occupants, passed, here⟩ := exists_first found
    cases gone : o.passes s.mouth with
    | true =>
      rw [(settleLeafOne_passed occupants passed here gone).1]
      exact departed_complete _ s
    | false =>
      obtain ⟨back, -, -, run⟩ := settleLeafOne_stays occupants passed here gone
      rw [run]
      refine departed_standing (fun x mem => ?_) (by split <;> simp [returned_slots])
      simp only [List.append_assoc, List.mem_append] at mem
      rw [occupants]
      obtain mem | mem | mem := mem
      · exact ⟨x, List.mem_append_left _ mem, rfl⟩
      · exact ⟨o, List.mem_append_right _ List.mem_cons_self, (cleared_direction o x mem).symm⟩
      · exact ⟨x, List.mem_append_right _ (List.mem_cons_of_mem o mem), rfl⟩

/-! ## The credits (R120, R128, R129) -/

/-- The credits once LEAF is clear: those of the passed gone, those of the ones that step back UNASSIGNED again. -/
def Passage.creditsCleared (mouth : Side → Bool) (until_ : Nat) (g : Passage) : List Credit :=
  (g.kept (Occupant.passes mouth)).map fun c =>
    if slotHeld (Occupant.stepsBack mouth) g.occupants c.slot = true then { c with state := .unassigned until_ } else c

theorem creditsCleared_eq_credits {g : Passage} (until_ : Nat) (off : ∀ x ∈ g.occupants, x.stage ≠ .leaf) :
    g.creditsCleared mouth until_ = g.credits := by
  have passes : ∀ x ∈ g.occupants, x.passes mouth = false := fun x mem => by simp [Occupant.passes, off x mem]
  have backs : ∀ x ∈ g.occupants, x.stepsBack mouth = false := fun x mem => by simp [Occupant.stepsBack, off x mem]
  rw [Passage.creditsCleared, kept_eq_credits passes]
  exact (List.map_congr_left fun c _ => if_neg (by rw [slotHeld_eq_false backs]; exact Bool.false_ne_true)).trans
    (List.map_id _)

/-- Where an occupant not at LEAF takes the place of one that stays, those that hold a slot and are of a kind are the
others and that one. -/
theorem slotHeld_offLeaf {q : Occupant → Bool} (leaf : ∀ x, x.stage ≠ .leaf → q x = false) (k : SlotId) :
    slotHeld q (before ++ o.cleared mouth ++ after) k = slotHeld q (before ++ after) k := by
  have none_ : slotHeld q (o.cleared mouth) k = false :=
    slotHeld_eq_false (fun x mem => leaf x (cleared_off_leaf o x mem)) k
  unfold slotHeld at none_ ⊢
  rw [List.any_append, List.any_append, none_, Bool.or_false, List.any_append]

theorem passes_off_leaf (x : Occupant) (off : x.stage ≠ .leaf) : x.passes mouth = false := by
  simp [Occupant.passes, off]

theorem stepsBack_off_leaf (x : Occupant) (off : x.stage ≠ .leaf) : x.stepsBack mouth = false := by
  simp [Occupant.stepsBack, off]

theorem not_stepsBack_of_passes (gone : o.passes mouth = true) : o.stepsBack mouth = false := by
  simp only [Occupant.passes, Bool.and_eq_true, Bool.not_eq_true'] at gone
  rw [Occupant.stepsBack, gone.2, Bool.and_false]

/-- Each step leaves the credits on their way to where they end. -/
theorem settleLeafOne_creditsCleared (s : State) :
    s.settleLeafOne.passage.creditsCleared s.mouth s.creditUntil = s.passage.creditsCleared s.mouth s.creditUntil := by
  cases found : s.passage.occupants.find? Occupant.atLeaf with
  | none => rw [settleLeafOne_none found]
  | some o =>
    obtain ⟨before, after, occupants, passed, here⟩ := exists_first found
    cases gone : o.passes s.mouth with
    | true =>
      rw [(settleLeafOne_passed occupants passed here gone).1, Passage.creditsCleared, Passage.creditsCleared,
        complete_kept (passes_blind _) occupants passed here gone, (complete_left occupants passed here).1, occupants]
      refine List.map_congr_left fun c mem => ?_
      have other : o.credit ≠ some c.slot := fun holds => by
        have kept := (List.mem_filter.1 mem).2
        rw [occupants, slotHeld_split, gone, holds] at kept
        simp at kept
      rw [slotHeld_without (stepsBack_blind _) other, slotHeld_split, not_stepsBack_of_passes gone, Bool.and_false,
        Bool.false_or]
    | false =>
      obtain ⟨back, yes, no, run⟩ := settleLeafOne_stays occupants passed here gone
      rw [run]
      have kept (cs : List Credit) : (s.standing (before ++ o.cleared s.mouth ++ after) cs).passage.creditsCleared s.mouth
            s.creditUntil =
          (cs.filter fun c => !slotHeld (Occupant.passes s.mouth) s.passage.occupants c.slot).map fun c =>
            if slotHeld (Occupant.stepsBack s.mouth) (before ++ after) c.slot = true then
              { c with state := .unassigned s.creditUntil }
            else c := by
        unfold Passage.creditsCleared Passage.kept
        simp only [State.standing, State.onPassage_passage, slotHeld_offLeaf passes_off_leaf,
          slotHeld_offLeaf stepsBack_off_leaf]
        rw [occupants]
        simp only [slotHeld_split, gone, Bool.and_false, Bool.false_or]
      rw [kept, Passage.creditsCleared, Passage.kept, occupants]
      cases back with
      | false => simp only [Bool.false_eq_true, if_false, slotHeld_split, no rfl, Bool.and_false, Bool.false_or]
      | true =>
        rw [if_pos rfl, returned_eq, List.filter_map, List.map_map]
        have slots : ((fun c => !slotHeld (Occupant.passes s.mouth) (before ++ o :: after) c.slot) ∘ fun c : Credit =>
              if o.credit = some c.slot then { c with state := .unassigned s.creditUntil } else c) =
            fun c => !slotHeld (Occupant.passes s.mouth) (before ++ o :: after) c.slot := by
          funext c
          rw [Function.comp]
          split <;> rfl
        rw [slots]
        refine List.map_congr_left fun c _ => ?_
        rw [Function.comp, slotHeld_split, yes rfl, Bool.and_true]
        by_cases holds : o.credit = some c.slot
        · simp [holds]
        · simp [holds]

/-! ## All of them -/

theorem settleLeafOne_countP (s : State) :
    s.settleLeafOne.passage.occupants.countP Occupant.atLeaf ≤ s.passage.occupants.countP Occupant.atLeaf - 1 := by
  cases found : s.passage.occupants.find? Occupant.atLeaf with
  | none =>
    have none_ : s.passage.occupants.countP Occupant.atLeaf = 0 := List.countP_eq_zero.2 (List.find?_eq_none.1 found)
    rw [settleLeafOne_none found, none_]
  | some o =>
    obtain ⟨before, after, occupants, passed, here⟩ := exists_first found
    obtain ⟨⟨credit, left⟩, -⟩ := settleLeafOne_occupants occupants passed here
    rw [left, countP_without atLeaf_blind, occupants]
    exact (countP_replaced here fun x mem => by simp [Occupant.atLeaf, cleared_off_leaf o x mem]).le

theorem settleLeafOne_places (s : State) :
    s.settleLeafOne.passage.occupants.flatMap (fun o => (o.cleared s.mouth).map Occupant.place) =
      s.passage.occupants.flatMap fun o => (o.cleared s.mouth).map Occupant.place := by
  cases found : s.passage.occupants.find? Occupant.atLeaf with
  | none => rw [settleLeafOne_none found]
  | some o =>
    obtain ⟨before, after, occupants, passed, here⟩ := exists_first found
    obtain ⟨⟨credit, left⟩, -⟩ := settleLeafOne_occupants occupants passed here
    rw [left, flatMap_without (cleared_places_blind _), occupants, List.flatMap_append, List.flatMap_append,
      List.flatMap_append, List.flatMap_cons, ← List.map_flatMap (l := o.cleared s.mouth),
      flatMap_cleared (cleared_off_leaf o), List.append_assoc]

theorem settleLeafOne_cleared (apart : s.passage.heldApart) :
    s.settleLeafOne.passage.heldApart ∧
      s.settleLeafOne.passage.occupants.flatMap (Occupant.cleared s.mouth) =
        s.passage.occupants.flatMap (Occupant.cleared s.mouth) := by
  cases found : s.passage.occupants.find? Occupant.atLeaf with
  | none =>
    rw [settleLeafOne_none found]
    exact ⟨apart, rfl⟩
  | some o =>
    obtain ⟨before, after, occupants, passed, here⟩ := exists_first found
    obtain ⟨-, left⟩ := settleLeafOne_occupants occupants passed here
    have left := left apart
    rw [Passage.heldApart, occupants] at apart
    rw [Passage.heldApart, left, occupants]
    refine ⟨heldApart_replaced apart (cleared_credits o), ?_⟩
    rw [List.flatMap_append, List.flatMap_append, List.flatMap_append, List.flatMap_cons,
      flatMap_cleared (cleared_off_leaf o), List.append_assoc]

/-- The part with LEAF clear and the occupants that were there settled, before a deferred closing (R128). -/
def State.leafLeft (s : State) : State := (s.setLeafZone false).forEachOccupant State.settleLeafOne

theorem leafLeft_off (s : State) :
    Departed (s.setLeafZone false) s.leafLeft ∧ (∀ x ∈ s.leafLeft.passage.occupants, x.stage ≠ .leaf) ∧
      s.leafLeft.passage.occupants.map Occupant.place =
        s.passage.occupants.flatMap (fun o => (o.cleared s.mouth).map Occupant.place) ∧
      s.leafLeft.passage.credits = s.passage.creditsCleared s.mouth s.creditUntil := by
  obtain ⟨departed, same, off⟩ := forEachOccupant_settles (p := Occupant.atLeaf)
    (keeps := Departed (s.setLeafZone false))
    (value := fun u => (u.passage.occupants.flatMap (fun o => (o.cleared s.mouth).map Occupant.place),
      u.passage.creditsCleared s.mouth s.creditUntil))
    (fun u departed => by
      have mouth : u.mouth = s.mouth := departed.mouth
      have places := settleLeafOne_places u
      have credits := settleLeafOne_creditsCleared u
      rw [mouth, departed.creditUntil] at credits
      rw [mouth] at places
      exact ⟨departed.trans (departed_settleLeafOne u), Prod.ext places credits, settleLeafOne_countP u⟩)
    (.refl (s.setLeafZone false))
  have off : ∀ x ∈ s.leafLeft.passage.occupants, x.stage ≠ .leaf := fun x mem => by
    simpa [Occupant.atLeaf] using off x mem
  obtain ⟨places, credits⟩ := Prod.mk.inj same
  refine ⟨departed, off, ?_, ?_⟩
  · rw [← flatMap_cleared (mouth := s.mouth) off, List.map_flatMap]
    exact places
  · rw [← creditsCleared_eq_credits (mouth := s.mouth) s.creditUntil off]
    exact credits

theorem leafLeft_occupants (apart : s.passage.heldApart) :
    s.leafLeft.passage.occupants = s.passage.occupants.flatMap (Occupant.cleared s.mouth) := by
  obtain ⟨-, same, -⟩ := forEachOccupant_settles (p := Occupant.atLeaf)
    (keeps := fun u => Departed (s.setLeafZone false) u ∧ u.passage.heldApart)
    (value := fun u => u.passage.occupants.flatMap (Occupant.cleared s.mouth))
    (fun u ⟨departed, apart⟩ => by
      have mouth : u.mouth = s.mouth := departed.mouth
      obtain ⟨apart, cleared⟩ := settleLeafOne_cleared apart
      rw [mouth] at cleared
      exact ⟨⟨departed.trans (departed_settleLeafOne u), apart⟩, cleared, settleLeafOne_countP u⟩)
    (s := s.setLeafZone false) ⟨.refl _, apart⟩
  obtain ⟨-, off, -, -⟩ := leafLeft_off s
  rw [← flatMap_cleared (mouth := s.mouth) off]
  exact same

/-- Where no occupant has passed, claim and ports do not notice. -/
theorem leafLeft_stays (none_ : ∀ x ∈ s.passage.occupants, x.passes s.mouth = false) :
    s.leafLeft.passage.claim = s.passage.claim ∧ s.leafLeft.portU = s.portU ∧ s.leafLeft.portP = s.portP := by
  have kept : (s.leafLeft.passage.claim = s.passage.claim ∧ s.leafLeft.portU = s.portU ∧
      s.leafLeft.portP = s.portP) ∧ s.leafLeft.mouth = s.mouth ∧
      ∀ x ∈ s.leafLeft.passage.occupants, x.passes s.mouth = false := by
    refine Function.Iterate.rec (f := State.settleLeafOne) (a := s.setLeafZone false)
      (fun u : State => (u.passage.claim = s.passage.claim ∧ u.portU = s.portU ∧ u.portP = s.portP) ∧
        u.mouth = s.mouth ∧ ∀ x ∈ u.passage.occupants, x.passes s.mouth = false)
      ⟨⟨rfl, rfl, rfl⟩, rfl, none_⟩ (fun u ⟨same, mouth, stay⟩ => ?_) _
    cases found : u.passage.occupants.find? Occupant.atLeaf with
    | none =>
      rw [settleLeafOne_none found]
      exact ⟨same, mouth, stay⟩
    | some o =>
      obtain ⟨before, after, occupants, passed, here⟩ := exists_first found
      rw [occupants, List.forall_mem_append, List.forall_mem_cons] at stay
      obtain ⟨early, this, late⟩ := stay
      obtain ⟨back, -, -, run⟩ := settleLeafOne_stays occupants passed here (by rwa [mouth])
      rw [run]
      refine ⟨same, mouth, ?_⟩
      show ∀ x ∈ before ++ o.cleared u.mouth ++ after, _
      rw [List.forall_mem_append, List.forall_mem_append]
      exact ⟨⟨early, fun x mem => passes_off_leaf x (cleared_off_leaf o x mem)⟩, late⟩
  exact kept.1

/-- The leaves close where they stood open with no hold, no emergency and no credit left (R134). -/
theorem leafLeft_leaf (settled : s.leavesSettled) :
    s.leafLeft.settleLeaves.passage.leaf =
      if s.passage.leaf = .opened ∧ s.emergency.line = false ∧ s.passage.holdOpen = false ∧
          s.leafLeft.passage.credits = [] then .closing
      else s.passage.leaf := by
  obtain ⟨departed, -, -, -⟩ := leafLeft_off s
  have ready : (s.setLeafZone false).leavesReady := (leavesReady_of_settled settled : s.leavesReady)
  have clear : s.leafLeft.pins.leaf = false := by rw [departed.rest]; rfl
  have command : s.leafLeft.commandOpen = false ↔
      s.emergency.line = false ∧ s.passage.holdOpen = false ∧ s.leafLeft.passage.credits = [] := by
    rw [departed.commandOpen]
    simp only [Bool.or_eq_false_iff, Bool.not_eq_false', List.isEmpty_iff, and_assoc]
    rfl
  rw [settleLeaves_leaf (departed.ready ready)]
  simp only [command]
  obtain same | ⟨from_, -, closing, none_⟩ := departed.leaves ready
  · rw [same]
    simp only [clear, and_true]
    rfl
  · have free := ready.2.1 from_
    rw [State.alarmsSuppressed, Bool.or_eq_false_iff] at free
    rw [closing, if_neg (fun h => nomatch h.1)]
    exact (if_pos ⟨from_, free.2, free.1, none_⟩).symm

/-- Settles O32: every occupant at LEAF is settled, then the leaves. -/
theorem leafClearSettlesTheOccupantsAtLeaf : Obligations.LeafClearSettlesTheOccupantsAtLeaf := by
  intro s occupied
  have run : exec .leafClear s = .next s.leafLeft.settleLeaves.pump := if_pos occupied
  obtain ⟨left, off, places, credits⟩ := leafLeft_off s
  have departed := left.trans (departed_settleLeaves s.leafLeft)
  have rest := settleLeaves_rest s.leafLeft
  have final : s.leafLeft.settleLeaves.passage.credits = s.leafLeft.passage.credits ∧
      s.leafLeft.settleLeaves.passage.occupants = s.leafLeft.passage.occupants ∧
      s.leafLeft.settleLeaves.passage.claim = s.leafLeft.passage.claim ∧
      s.leafLeft.settleLeaves.portU = s.leafLeft.portU ∧ s.leafLeft.settleLeaves.portP = s.leafLeft.portP := by
    rw [rest]
    exact ⟨rfl, rfl, rfl, rfl, rfl⟩
  obtain ⟨sameCredits, sameOccupants, sameClaim, sameU, sameP⟩ := final
  refine ⟨_, run, .of_host (by rw [departed.rest]; rfl), ?_, ?_, ?_, ?_, fun apart => ⟨?_, ?_⟩, fun settled => ?_,
    fun stay => ?_, fun noU noP => ?_⟩
  all_goals simp only [State.pump_passage, State.pump_portU, State.pump_portP]
  · refine (State.pump_rest _).trans ?_
    generalize s.leafLeft.settleLeaves.pump.host = host
    have frame := departed.rest
    generalize s.leafLeft.settleLeaves = w at *
    generalize w.portU = portU, w.portP = portP, w.passage = aisle at *
    rw [frame]
    rfl
  · rw [departed.aisle]
    rfl
  · rw [departed.aisle]
    rfl
  · rw [sameOccupants]
    refine places.trans (congrArg (List.flatMap · _) (funext fun o => ?_))
    unfold Occupant.cleared
    split
    · rfl
    · split
      · rfl
      · split <;> rfl
  · rw [sameCredits, credits]
    simp only [Passage.creditsCleared, Passage.kept, slotHeld, Occupant.passes, Occupant.stepsBack, Bool.and_assoc]
    rfl
  · rw [sameOccupants]
    exact leafLeft_occupants apart
  · rw [sameCredits]
    exact leafLeft_leaf settled
  · obtain ⟨claim, portU, portP⟩ := leafLeft_stays (s := s) fun x mem => by
      cases leaf : x.stage == .leaf with
      | false => simp [Occupant.passes, leaf]
      | true =>
        obtain near | near := stay x mem (by simpa using leaf)
        · simp [Occupant.passes, near]
        · simp [Occupant.passes, near]
    exact ⟨sameClaim.trans claim, sameU.trans portU, sameP.trans portP⟩
  · have none_ : (s.setLeafZone false).passage.unwaited := unwaited_of noU noP
    obtain ⟨portU, portP, -⟩ := departed.ports none_
    exact ⟨portU, portP, departed.freed none_⟩

end Sys2Proof.Machine
end

section
/-! MOUTH_CLEAR: those at FAR have passed, those at its MOUTH withdraw or advance into an occupied LEAF (R127, R129,
R130). -/

namespace Sys2Proof.Machine

variable {s t u v w : State} {d : Direction} {m : Side} {k : SlotId} {o x : Occupant}
  {before after xs : List Occupant} {p q : Occupant → Bool} {n : Nat} {kind : AlarmKind} {side : Option Side}
  {place : Option SlotId → List Occupant → List Occupant} {free : List SlotId}

/-! ## An alarm raised several times (R130, R131) -/

/-- No alarm was raised: latches, latest alarm, sounder, journal and host link are as before. -/
structure Unheard (s t : State) : Prop where
  host : t.host = s.host
  journal : t.journal = s.journal
  latches : t.passage.latches = s.passage.latches
  lastAlarm : t.passage.lastAlarm = s.passage.lastAlarm
  sounder : t.passage.sounder = s.passage.sounder

theorem Unheard.refl (s : State) : Unheard s s := ⟨rfl, rfl, rfl, rfl, rfl⟩

theorem Unheard.trans (h : Unheard s t) (j : Unheard t u) : Unheard s u :=
  ⟨j.host.trans h.host, j.journal.trans h.journal, j.latches.trans h.latches, j.lastAlarm.trans h.lastAlarm,
    j.sounder.trans h.sounder⟩

theorem Departed.unheard (h : Departed s t) : Unheard s t := by
  refine ⟨?_, ?_, ?_, ?_, ?_⟩
  · rw [h.rest]
  · rw [h.rest]
  all_goals rw [h.aisle]

/-- An alarm of one kind and side was raised so many times. -/
structure RaisedTimes (s t : State) (kind : AlarmKind) (side : Option Side) (n : Nat) : Prop where
  noticed : Noticed s t
  quiet : n = 0 → Unheard s t
  latches : 0 < n → t.passage.latches = s.passage.latches.setOn kind
  latching : 0 < n → s.passage.latches.get kind = false →
    t.passage.lastAlarm = some (kind, side) ∧ t.passage.sounder = some s.clock ∧ t.tells .alarm = true
  repeated : s.passage.latches.get kind = true →
    t.passage.lastAlarm = s.passage.lastAlarm ∧ t.passage.sounder = s.passage.sounder
  records : Journals s t (List.replicate n (kind.noted side))

theorem RaisedTimes.zero (h : Unheard s t) : RaisedTimes s t kind side 0 :=
  ⟨.of_host h.host, fun _ => h, nofun, nofun, fun _ => ⟨h.lastAlarm, h.sounder⟩, .of_same h.journal⟩

theorem RaisedTimes.unheard (h : RaisedTimes s t kind side n) (j : Unheard t u) : RaisedTimes s u kind side n where
  noticed := h.noticed.trans (.of_host j.host)
  quiet none_ := (h.quiet none_).trans j
  latches some_ := j.latches.trans (h.latches some_)
  latching some_ clear := by
    rw [j.lastAlarm, j.sounder, State.tells, j.host]
    exact h.latching some_ clear
  repeated set_ := by
    rw [j.lastAlarm, j.sounder]
    exact h.repeated set_
  records := h.records.congr j.journal

/-- One alarm more, as an occupant is placed. -/
theorem RaisedTimes.more (h : RaisedTimes s t kind side n) (raised : Raised (t.placing place) u kind side)
    (clock : t.clock = s.clock) (time : t.time = s.time) (service : t.service = s.service) :
    RaisedTimes s u kind side (n + 1) := by
  have lastAlarm : u.passage.lastAlarm =
      if t.passage.latches.get kind = true then t.passage.lastAlarm else some (kind, side) := by
    rw [raised.aisle]
    rfl
  have sounder : u.passage.sounder =
      if t.passage.latches.get kind = true then t.passage.sounder else some t.clock := by
    rw [raised.aisle]
    rfl
  have latches : u.passage.latches = t.passage.latches.setOn kind := by
    rw [raised.aisle]
    rfl
  have told : t.passage.latches.get kind = false → u.tells .alarm = true := raised.told
  have still : t.tells .alarm = true → u.tells .alarm = true := raised.noticed.told .alarm
  have records : Journals t u [kind.noted side] := raised.records.of_eq rfl rfl rfl
  refine
    { noticed := h.noticed.trans (raised.noticed.after rfl)
      quiet := nofun
      latches := fun _ => ?_
      latching := fun _ clear => ?_
      repeated := fun set_ => ?_
      records := ?_ }
  · rw [latches]
    obtain rfl | some_ := Nat.eq_zero_or_pos n
    · rw [(h.quiet rfl).latches]
    · rw [h.latches some_, Latches.setOn_of_get (Latches.get_setOn ..)]
  · obtain rfl | some_ := Nat.eq_zero_or_pos n
    · have first : t.passage.latches.get kind = false := by rw [(h.quiet rfl).latches, clear]
      rw [lastAlarm, sounder, first, clock]
      exact ⟨rfl, rfl, told first⟩
    · obtain ⟨latest, sounds, told⟩ := h.latching some_ clear
      rw [lastAlarm, sounder, h.latches some_, Latches.get_setOn]
      exact ⟨latest, sounds, still told⟩
  · have set_t : t.passage.latches.get kind = true := by
      obtain rfl | some_ := Nat.eq_zero_or_pos n
      · rw [(h.quiet rfl).latches, set_]
      · rw [h.latches some_, Latches.get_setOn]
    rw [lastAlarm, sounder, set_t]
    exact h.repeated set_
  · rw [List.replicate_succ']
    exact h.records.append records time (by rw [service])

theorem RaisedTimes.latched (h : RaisedTimes s t kind side n) (some_ : 0 < n) : Latched s t.pump kind side :=
  { h.noticed.silent with
    latches := by rw [State.pump_passage, h.latches some_]
    latching := fun clear => by
      rw [State.pump_passage, State.pump_tells_eq]
      exact h.latching some_ clear
    repeated := fun set_ => by
      rw [State.pump_passage]
      exact h.repeated set_ }

/-- With room for all of them, every one of equal records is taken (R155). -/
theorem takenFrom_room {level count : Nat} (b : RecBody) (room : count + n ≤ level) :
    takenFrom level false count (List.replicate n b) = List.replicate n b := by
  induction n generalizing count with
  | zero => rfl
  | succ n ih =>
    rw [List.replicate_succ, takenFrom, if_neg (fun h => Bool.false_ne_true h.1), Bool.false_or]
    cases n with
    | zero => rfl
    | succ n => rw [decide_eq_false (by omega), ih (by omega)]

theorem RaisedTimes.journal (h : RaisedTimes s t kind side n) :
    (s.journal.halted = true → t.journal = s.journal) ∧
      (s.journal.halted = false → s.roomFor n →
        s.journal.grownBy t.journal s.time.now (List.replicate n (kind.noted side))) := by
  refine ⟨h.records.skipped fun b mem => ?_, fun open_ room => ?_⟩
  · rw [List.eq_of_mem_replicate mem]
    rfl
  · have room : s.journal.records.length + n ≤ s.service.params.haltLevel :=
      room.resolve_left (by rw [open_]; exact Bool.false_ne_true)
    have grown := h.records.grown
    rwa [State.taken, open_, takenFrom_room _ room] at grown

/-! ## An advance (R127) -/

theorem Entered.refl (s : State) : Entered s s := ⟨rfl, rfl⟩

theorem Entered.trans (h : Entered s t) (j : Entered t u) : Entered s u :=
  ⟨by rw [j.rest, h.rest], by rw [j.aisle, h.aisle]⟩

/-- The occupant placed holds the credit it takes, which is ASSIGNED. -/
theorem advance_placed (s : State) (d : Direction) (place : Option SlotId → List Occupant → List Occupant) :
    (s.advance d place).passage.occupants = place (s.passage.creditFor d) s.passage.occupants ∧
      (s.advance d place).passage.credits =
        (s.passage.creditFor d).elim s.passage.credits fun k => assignCredit k s.passage.credits := by
  cases credit : s.passage.creditFor d with
  | some k =>
    rw [advance_takes credit]
    exact ⟨rfl, rfl⟩
  | none =>
    cases suppressed : s.alarmsSuppressed with
    | true =>
      rw [advance_suppressed credit suppressed]
      exact ⟨rfl, rfl⟩
    | false =>
      rw [advance_alarms credit suppressed,
        (alarm_raised (s.placing place) (s.passage.advanceAlarm d) (some (sideOf d))).aisle]
      exact ⟨rfl, rfl⟩

theorem advance_unheard (h : s.passage.creditFor d ≠ none ∨ s.alarmsSuppressed = true) :
    Unheard s (s.advance d place) := by
  cases credit : s.passage.creditFor d with
  | some k =>
    rw [advance_takes credit]
    exact ⟨rfl, rfl, rfl, rfl, rfl⟩
  | none =>
    rw [advance_suppressed credit (h.resolve_left (not_not.2 credit))]
    exact ⟨rfl, rfl, rfl, rfl, rfl⟩

/-! ## Who is at FAR or at MOUTH (R129) -/

theorem farAt_blind (m : Side) : CreditBlind (Occupant.farAt m) := fun _ _ => rfl

theorem waitingAt_blind (m : Side) : CreditBlind (Occupant.waitingAt m) := fun _ _ => rfl

theorem farAt_iff : o.farAt m = true ↔ o.stage = .far ∧ farMouth o.direction = m := by simp [Occupant.farAt]

theorem waitingAt_iff : o.waitingAt m = true ↔ o.stage = .mouth ∧ sideOf o.direction = m := by
  simp [Occupant.waitingAt]

theorem not_farAt_of_waitingAt (here : o.waitingAt m = true) : o.farAt m = false := by
  simp [Occupant.farAt, (waitingAt_iff.1 here).1]

theorem not_far_of_waitingAt (here : o.waitingAt m = true) : ¬(o.stage = .far ∧ farMouth o.direction = m) := by
  rw [← farAt_iff, not_farAt_of_waitingAt here]
  exact Bool.false_ne_true

/-- An occupant that the clearing of a mouth concerns. -/
def Occupant.leaving (m : Side) (o : Occupant) : Bool := o.farAt m || o.waitingAt m

theorem leaving_blind (m : Side) : CreditBlind (Occupant.leaving m) := fun _ _ => rfl

/-- Where an occupant stands once a mouth is clear (R129). -/
def Occupant.placesLeft (m : Side) (leaf : Bool) (o : Occupant) : List (Direction × Stage) :=
  if o.stage = .far ∧ farMouth o.direction = m then []
  else if o.stage = .mouth ∧ sideOf o.direction = m then if leaf = true then [(o.direction, .leaf)] else []
  else [(o.direction, o.stage)]

theorem placesLeft_blind (m : Side) (leaf : Bool) : CreditBlind (Occupant.placesLeft m leaf) := fun _ _ => rfl

theorem placesLeft_farAt {leaf : Bool} (here : o.farAt m = true) : o.placesLeft m leaf = [] :=
  if_pos (farAt_iff.1 here)

theorem placesLeft_waitingAt {leaf : Bool} (here : o.waitingAt m = true) :
    o.placesLeft m leaf = if leaf = true then [(o.direction, .leaf)] else [] := by
  have near := waitingAt_iff.1 here
  rw [Occupant.placesLeft, if_neg (not_far_of_waitingAt here), if_pos near]

theorem flatMap_placesLeft {leaf : Bool} (none_ : ∀ x ∈ xs, x.leaving m = false) :
    xs.flatMap (Occupant.placesLeft m leaf) = xs.map Occupant.place := by
  induction xs with
  | nil => rfl
  | cons x xs ih =>
    have stays := none_ x List.mem_cons_self
    rw [Occupant.leaving, Bool.or_eq_false_iff, ← Bool.not_eq_true, ← Bool.not_eq_true, farAt_iff, waitingAt_iff] at stays
    rw [List.flatMap_cons, ih fun y mem => none_ y (List.mem_cons_of_mem x mem), Occupant.placesLeft, if_neg stays.1,
      if_neg stays.2]
    rfl

/-! ## Completions (R129) -/

theorem complete_kept_of (blind : CreditBlind q) (goes : ∀ x, p x = true → q x = true) (s : State) :
    (s.complete p).passage.kept q = s.passage.kept q := by
  cases found : s.passage.occupants.find? p with
  | none => rw [complete_none found]
  | some o =>
    obtain ⟨before, after, occupants, passed, here⟩ := exists_first found
    exact complete_kept blind occupants passed here (goes o here)

theorem complete_none_of (blind : CreditBlind q) (none_ : ∀ x ∈ s.passage.occupants, q x = false) :
    ∀ x ∈ (s.complete p).passage.occupants, q x = false := by
  cases found : s.passage.occupants.find? p with
  | none => rwa [complete_none found]
  | some o =>
    obtain ⟨before, after, occupants, passed, here⟩ := exists_first found
    rw [(complete_left occupants passed here).1]
    rw [occupants, List.forall_mem_append, List.forall_mem_cons] at none_
    intro x mem
    obtain ⟨y, there, rfl⟩ := List.mem_map.1 mem
    rw [blind.without]
    exact (List.mem_append.1 there).elim (none_.1 y) (none_.2.2 y)

theorem complete_apart (apart : s.passage.heldApart) :
    (s.complete p).passage.heldApart ∧
      (s.complete p).passage.occupants.filter (fun x => !p x) = s.passage.occupants.filter fun x => !p x := by
  cases found : s.passage.occupants.find? p with
  | none =>
    rw [complete_none found]
    exact ⟨apart, rfl⟩
  | some o =>
    obtain ⟨before, after, occupants, passed, here⟩ := exists_first found
    rw [Passage.heldApart, occupants] at apart
    have left := (complete_left occupants passed here).1.trans (others_without apart)
    have thinned := heldApart_replaced (ys := []) apart (List.nil_sublist _)
    rw [List.append_nil] at thinned
    rw [Passage.heldApart, left, occupants]
    refine ⟨thinned, ?_⟩
    rw [List.filter_append, List.filter_append, List.filter_cons_of_neg (by simp [here])]

/-- The part with a mouth clear and those at FAR that head to it gone (R129). -/
def State.farLeft (m : Side) (s : State) : State := (s.setMouth m false).forEachOccupant (State.complete (Occupant.farAt m))

theorem farLeft_spec (m : Side) (leaf : Bool) (s : State) :
    Departed (s.setMouth m false) (s.farLeft m) ∧ (∀ x ∈ (s.farLeft m).passage.occupants, x.farAt m = false) ∧
      (s.farLeft m).passage.occupants.flatMap (Occupant.placesLeft m leaf) =
        s.passage.occupants.flatMap (Occupant.placesLeft m leaf) ∧
      (s.farLeft m).passage.kept (Occupant.leaving m) = s.passage.kept (Occupant.leaving m) ∧
      (s.farLeft m).passage.credits = s.passage.kept (Occupant.farAt m) := by
  obtain ⟨departed, same, gone⟩ := forEachOccupant_settles (p := Occupant.farAt m) (s := s.setMouth m false)
    (keeps := Departed (s.setMouth m false))
    (value := fun u => (u.passage.occupants.flatMap (Occupant.placesLeft m leaf),
      u.passage.kept (Occupant.leaving m), u.passage.kept (Occupant.farAt m)))
    (fun u departed => ⟨departed.trans (departed_complete _ u),
      congrArg₂ Prod.mk (complete_flatMap (placesLeft_blind m leaf) (fun _ => placesLeft_farAt) u)
        (congrArg₂ Prod.mk
          (complete_kept_of (leaving_blind m) (fun x here => by rw [Occupant.leaving, here]; rfl) u)
          (complete_kept_of (farAt_blind m) (fun _ => id) u)),
      complete_countP (farAt_blind m) u⟩)
    (.refl _)
  obtain ⟨places, same⟩ := Prod.mk.inj same
  obtain ⟨leaving, kept⟩ := Prod.mk.inj same
  exact ⟨departed, gone, places, leaving, (kept_eq_credits gone).symm.trans kept⟩

theorem farLeft_occupants (apart : s.passage.heldApart) :
    (s.farLeft m).passage.occupants = s.passage.occupants.filter fun x => !x.farAt m := by
  obtain ⟨-, same, gone⟩ := forEachOccupant_settles (p := Occupant.farAt m) (s := s.setMouth m false)
    (keeps := fun u => u.passage.heldApart)
    (value := fun u => u.passage.occupants.filter fun x => !x.farAt m)
    (fun u apart => ⟨(complete_apart apart).1, (complete_apart apart).2, complete_countP (farAt_blind m) u⟩) apart
  exact (List.filter_eq_self.2 fun x mem => by rw [gone x mem]; rfl).symm.trans same

/-! ## Those at the mouth (R129) -/

theorem leaveMouthOne_none (none_ : s.passage.occupants.find? (Occupant.waitingAt m) = none) :
    s.leaveMouthOne m = s := by
  rw [State.leaveMouthOne, none_]

theorem leaveMouthOne_clear (clear : s.pins.leaf = false) :
    s.leaveMouthOne m = s.complete (Occupant.waitingAt m) := by
  cases found : s.passage.occupants.find? (Occupant.waitingAt m) with
  | none => rw [leaveMouthOne_none found, complete_none found]
  | some o =>
    rw [State.leaveMouthOne, found]
    exact if_neg (by rw [clear]; exact Bool.false_ne_true)

section Advancing

variable (occupied : s.pins.leaf = true) (occupants : s.passage.occupants = before ++ o :: after)
  (passed : ∀ x ∈ before, x.waitingAt m = false) (here : o.waitingAt m = true)
include occupied occupants passed here

theorem leaveMouthOne_advances :
    s.leaveMouthOne m = s.advance (dirOf m) (moveToLeaf (Occupant.waitingAt m)) := by
  rw [State.leaveMouthOne, occupants, find?_first passed here]
  have from_ : o.direction = dirOf m := by rw [← (waitingAt_iff.1 here).2, dirOf_sideOf]
  dsimp only
  rw [if_pos occupied, from_]

/-- The oldest at the mouth stands at LEAF with the credit it takes. -/
theorem leaveMouthOne_placed :
    (s.leaveMouthOne m).passage.occupants =
        before ++ { o with stage := .leaf, credit := s.passage.creditFor (dirOf m) } :: after ∧
      (s.leaveMouthOne m).passage.credits =
        (s.passage.creditFor (dirOf m)).elim s.passage.credits fun k => assignCredit k s.passage.credits := by
  rw [leaveMouthOne_advances occupied occupants passed here]
  obtain ⟨placed, credits⟩ := advance_placed s (dirOf m) (moveToLeaf (Occupant.waitingAt m))
  refine ⟨placed.trans ?_, credits⟩
  rw [occupants]
  exact changeFirst_first _ passed here

end Advancing

theorem entered_leaveMouthOne (occupied : s.pins.leaf = true) : Entered s (s.leaveMouthOne m) := by
  cases found : s.passage.occupants.find? (Occupant.waitingAt m) with
  | none =>
    rw [leaveMouthOne_none found]
    exact .refl s
  | some o =>
    obtain ⟨before, after, occupants, passed, here⟩ := exists_first found
    rw [leaveMouthOne_advances occupied occupants passed here]
    exact entered_advance ..

theorem leaveMouthOne_countP (m : Side) (s : State) :
    (s.leaveMouthOne m).passage.occupants.countP (Occupant.waitingAt m) ≤
      s.passage.occupants.countP (Occupant.waitingAt m) - 1 := by
  cases occupied : s.pins.leaf with
  | false =>
    rw [leaveMouthOne_clear occupied]
    exact complete_countP (waitingAt_blind m) s
  | true =>
    cases found : s.passage.occupants.find? (Occupant.waitingAt m) with
    | none =>
      have none_ : s.passage.occupants.countP (Occupant.waitingAt m) = 0 :=
        List.countP_eq_zero.2 (List.find?_eq_none.1 found)
      rw [leaveMouthOne_none found, none_]
    | some o =>
      obtain ⟨before, after, occupants, passed, here⟩ := exists_first found
      rw [(leaveMouthOne_placed occupied occupants passed here).1, occupants, ← List.singleton_append,
        ← List.append_assoc]
      exact (countP_replaced here (by simp [Occupant.waitingAt])).le

/-- Nobody comes to FAR, and the places are on their way to where they end. -/
theorem leaveMouthOne_places {leaf : Bool} (pin : s.pins.leaf = leaf)
    (gone : ∀ x ∈ s.passage.occupants, x.farAt m = false) :
    (∀ x ∈ (s.leaveMouthOne m).passage.occupants, x.farAt m = false) ∧
      (s.leaveMouthOne m).passage.occupants.flatMap (Occupant.placesLeft m leaf) =
        s.passage.occupants.flatMap (Occupant.placesLeft m leaf) := by
  subst pin
  cases occupied : s.pins.leaf with
  | false =>
    rw [leaveMouthOne_clear occupied]
    exact ⟨complete_none_of (farAt_blind m) gone,
      complete_flatMap (placesLeft_blind m false) (fun x here => placesLeft_waitingAt here) s⟩
  | true =>
    cases found : s.passage.occupants.find? (Occupant.waitingAt m) with
    | none =>
      rw [leaveMouthOne_none found]
      exact ⟨gone, rfl⟩
    | some o =>
      obtain ⟨before, after, occupants, passed, here⟩ := exists_first found
      rw [(leaveMouthOne_placed occupied occupants passed here).1, occupants]
      rw [occupants, List.forall_mem_append, List.forall_mem_cons] at gone
      obtain ⟨early, -, late⟩ := gone
      refine ⟨?_, ?_⟩
      · rw [List.forall_mem_append, List.forall_mem_cons]
        exact ⟨early, rfl, late⟩
      · rw [List.flatMap_append, List.flatMap_append, List.flatMap_cons, List.flatMap_cons, placesLeft_waitingAt here]
        rfl

/-- The part once a mouth is clear and its occupants are settled (R129). -/
def State.mouthLeft (m : Side) (s : State) : State := (s.farLeft m).forEachOccupant (State.leaveMouthOne m)

theorem mouthLeft_run (near : s.mouth m = true) : exec (.mouthClear m) s = .next (s.mouthLeft m).pump := if_pos near

theorem setMouth_leaf (m : Side) (level : Bool) (s : State) : (s.setMouth m level).pins.leaf = s.pins.leaf := by
  cases m <;> rfl

theorem leaveMouthOne_pins (s : State) : (s.leaveMouthOne m).pins = s.pins := by
  cases occupied : s.pins.leaf with
  | false => rw [leaveMouthOne_clear occupied, (departed_complete _ s).rest]
  | true => rw [(entered_leaveMouthOne (m := m) occupied).rest]

theorem mouthLeft_places (m : Side) (s : State) :
    (s.mouthLeft m).pins = (s.setMouth m false).pins ∧
      (∀ x ∈ (s.mouthLeft m).passage.occupants, x.leaving m = false) ∧
      (s.mouthLeft m).passage.occupants.map Occupant.place =
        s.passage.occupants.flatMap (Occupant.placesLeft m s.pins.leaf) := by
  obtain ⟨departed, gone, first, -, -⟩ := farLeft_spec m s.pins.leaf s
  obtain ⟨⟨pins, gone⟩, second, none_⟩ := forEachOccupant_settles (p := Occupant.waitingAt m) (s := s.farLeft m)
    (keeps := fun u => u.pins = (s.setMouth m false).pins ∧ ∀ x ∈ u.passage.occupants, x.farAt m = false)
    (value := fun u => u.passage.occupants.flatMap (Occupant.placesLeft m s.pins.leaf))
    (fun u ⟨pins, gone⟩ => by
      have pin : u.pins.leaf = s.pins.leaf := by rw [pins, setMouth_leaf]
      obtain ⟨gone, places⟩ := leaveMouthOne_places pin gone
      exact ⟨⟨(leaveMouthOne_pins u).trans pins, gone⟩, places, leaveMouthOne_countP m u⟩)
    ⟨by rw [departed.rest], gone⟩
  have left : ∀ x ∈ (s.mouthLeft m).passage.occupants, x.leaving m = false := fun x mem => by
    rw [Occupant.leaving, gone x mem, none_ x mem]
    rfl
  refine ⟨pins, left, ?_⟩
  rw [← flatMap_placesLeft (leaf := s.pins.leaf) left]
  exact second.trans first

/-! ## LEAF clear: all withdraw (R129) -/

theorem mouthLeft_clear (clear : s.pins.leaf = false) :
    Departed (s.setMouth m false) (s.mouthLeft m) ∧
      (s.mouthLeft m).passage.credits = s.passage.kept (Occupant.leaving m) := by
  obtain ⟨first, -, -, kept, -⟩ := farLeft_spec m false s
  obtain ⟨departed, same, -⟩ := forEachOccupant_settles (p := Occupant.waitingAt m) (s := s.farLeft m)
    (f := State.leaveMouthOne m) (keeps := Departed (s.setMouth m false))
    (value := fun u => u.passage.kept (Occupant.leaving m))
    (fun u departed => by
      have pin : u.pins.leaf = false := by
        rw [departed.rest]
        exact (setMouth_leaf m false s).trans clear
      rw [leaveMouthOne_clear pin]
      exact ⟨departed.trans (departed_complete _ u),
        complete_kept_of (leaving_blind m) (fun x here => by rw [Occupant.leaving, here, Bool.or_true]) u,
        complete_countP (waitingAt_blind m) u⟩)
    first
  obtain ⟨-, left, -⟩ := mouthLeft_places m s
  exact ⟨departed, (kept_eq_credits left).symm.trans (same.trans kept)⟩

/-! ## LEAF occupied: those at the mouth advance (R127, R129) -/

/-- The UNASSIGNED credits that those at a mouth take, the oldest first (R127). -/
def Passage.freeFor (m : Side) (g : Passage) : List SlotId :=
  if g.claim.direction = some (dirOf m) then
    ((g.credits.filter fun c => c.state != .assigned).map Credit.slot).take (g.occupants.countP (Occupant.waitingAt m))
  else []

/-- How many of those at a mouth find no credit. -/
def Passage.lacking (m : Side) (g : Passage) : Nat := g.occupants.countP (Occupant.waitingAt m) - (g.freeFor m).length

/-- The credits once those at a mouth have taken theirs. -/
def Passage.creditsTaken (m : Side) (g : Passage) : List Credit :=
  g.credits.map fun c => if c.slot ∈ g.freeFor m then { c with state := .assigned } else c

theorem freeFor_nobody {g : Passage} (none_ : ∀ x ∈ g.occupants, x.waitingAt m = false) : g.freeFor m = [] := by
  have nobody : g.occupants.countP (Occupant.waitingAt m) = 0 :=
    List.countP_eq_zero.2 fun x mem => by rw [none_ x mem]; exact Bool.false_ne_true
  rw [Passage.freeFor, nobody]
  split <;> rfl

theorem lacking_nobody {g : Passage} (none_ : ∀ x ∈ g.occupants, x.waitingAt m = false) : g.lacking m = 0 := by
  have nobody : g.occupants.countP (Occupant.waitingAt m) = 0 :=
    List.countP_eq_zero.2 fun x mem => by rw [none_ x mem]; exact Bool.false_ne_true
  rw [Passage.lacking, nobody, Nat.zero_sub]

theorem creditsTaken_nobody {g : Passage} (none_ : ∀ x ∈ g.occupants, x.waitingAt m = false) :
    g.creditsTaken m = g.credits := by
  rw [Passage.creditsTaken, freeFor_nobody none_]
  exact (List.map_congr_left fun c _ => if_neg List.not_mem_nil).trans (List.map_id _)

theorem settledAtMouth_skips (passed : ∀ x ∈ before, x.leaving m = false) (free : List SlotId) :
    settledAtMouth m free (before ++ xs) = before ++ settledAtMouth m free xs := by
  induction before with
  | nil => rfl
  | cons x before ih =>
    have stays := passed x List.mem_cons_self
    rw [Occupant.leaving, Bool.or_eq_false_iff, ← Bool.not_eq_true, ← Bool.not_eq_true, farAt_iff, waitingAt_iff] at stays
    rw [List.cons_append, settledAtMouth, if_neg stays.1, if_neg stays.2,
      ih fun y mem => passed y (List.mem_cons_of_mem x mem)]
    rfl

theorem settledAtMouth_waiting (here : o.waitingAt m = true) (free : List SlotId) :
    settledAtMouth m free (o :: xs) =
      { o with stage := .leaf, credit := free.head? } :: settledAtMouth m free.tail xs := by
  have near := waitingAt_iff.1 here
  rw [settledAtMouth, if_neg (not_far_of_waitingAt here), if_pos near]

theorem settledAtMouth_filter (free : List SlotId) (xs : List Occupant) :
    settledAtMouth m free (xs.filter fun x => !x.farAt m) = settledAtMouth m free xs := by
  induction xs generalizing free with
  | nil => rfl
  | cons x xs ih =>
    by_cases far : x.farAt m = true
    · rw [List.filter_cons_of_neg (by simp [far]), settledAtMouth, if_pos (farAt_iff.1 far), ih]
    · rw [List.filter_cons_of_pos (by simpa using far)]
      have stays := fun h => far (farAt_iff.2 h)
      rw [settledAtMouth, settledAtMouth, if_neg stays, if_neg stays, ih, ih]

/-- Of the credits of the claim's direction the oldest UNASSIGNED is taken, and those after it are left. -/
theorem freeFor_advances {g h : Passage} (apart : (g.credits.map Credit.slot).Nodup) (claim : h.claim = g.claim)
    (credits : h.credits = (g.creditFor (dirOf m)).elim g.credits fun k => assignCredit k g.credits)
    (fewer : g.occupants.countP (Occupant.waitingAt m) = h.occupants.countP (Occupant.waitingAt m) + 1) :
    g.creditFor (dirOf m) = (g.freeFor m).head? ∧ h.freeFor m = (g.freeFor m).tail := by
  by_cases mine : g.claim.direction = some (dirOf m)
  · rw [Passage.creditFor, if_pos mine, Passage.oldestUnassigned] at credits ⊢
    rw [Passage.freeFor, Passage.freeFor, claim, if_pos mine, if_pos mine, fewer]
    cases found : g.credits.find? fun c => c.state != .assigned with
    | none =>
      have none_ : (g.credits.filter fun c => c.state != .assigned) = [] :=
        List.filter_eq_nil_iff.2 (List.find?_eq_none.1 found)
      rw [found] at credits
      have same : h.credits = g.credits := credits
      rw [same, none_, List.map_nil, List.take_nil, List.take_nil]
      exact ⟨rfl, rfl⟩
    | some c =>
      obtain ⟨earlier, later, split_, assigned, unassigned⟩ := exists_first found
      rw [found] at credits
      have taken : h.credits = earlier ++ { c with state := .assigned } :: later := by
        refine credits.trans ?_
        rw [split_] at apart ⊢
        exact assignCredit_here apart
      have none_ : (earlier.filter fun c => c.state != .assigned) = [] :=
        List.filter_eq_nil_iff.2 fun x mem => by rw [assigned x mem]; exact Bool.false_ne_true
      rw [taken, split_, List.filter_append, List.filter_append, none_, List.nil_append, List.nil_append,
        List.filter_cons_of_pos (p := fun c : Credit => c.state != .assigned) unassigned,
        List.filter_cons_of_neg (p := fun c : Credit => c.state != .assigned) (by simp)]
      exact ⟨rfl, rfl⟩
  · rw [Passage.creditFor, if_neg mine, Passage.freeFor, Passage.freeFor, claim, if_neg mine, if_neg mine]
    exact ⟨rfl, rfl⟩

theorem assignCredit_slots (k : SlotId) (cs : List Credit) : (assignCredit k cs).map Credit.slot = cs.map Credit.slot := by
  rw [assignCredit, List.map_map]
  refine List.map_congr_left fun c _ => ?_
  rw [Function.comp]
  split <;> rfl

/-- What one advance does to credits and occupants, against where they end. -/
structure AdvancedOne (m : Side) (g h : Passage) : Prop where
  slots : h.credits.map Credit.slot = g.credits.map Credit.slot
  credits : h.creditsTaken m = g.creditsTaken m
  occupants : settledAtMouth m (h.freeFor m) h.occupants = settledAtMouth m (g.freeFor m) g.occupants
  lacking : h.lacking m + (if g.creditFor (dirOf m) = none then 1 else 0) = g.lacking m

theorem leaveMouthOne_advancedOne (occupied : s.pins.leaf = true)
    (occupants : s.passage.occupants = before ++ o :: after) (passed : ∀ x ∈ before, x.waitingAt m = false)
    (here : o.waitingAt m = true) (gone : ∀ x ∈ s.passage.occupants, x.farAt m = false)
    (apart : (s.passage.credits.map Credit.slot).Nodup) :
    AdvancedOne m s.passage (s.leaveMouthOne m).passage := by
  obtain ⟨placed, credits⟩ := leaveMouthOne_placed occupied occupants passed here
  have claim : (s.leaveMouthOne m).passage.claim = s.passage.claim := by
    rw [(entered_leaveMouthOne (m := m) occupied).aisle]
  generalize (s.leaveMouthOne m).passage = h at *
  generalize s.passage = g at *
  have fewer : g.occupants.countP (Occupant.waitingAt m) = h.occupants.countP (Occupant.waitingAt m) + 1 := by
    rw [placed, occupants, List.countP_append, List.countP_append, List.countP_cons_of_pos here,
      List.countP_cons_of_neg (by simp [Occupant.waitingAt])]
    rfl
  obtain ⟨takes, left⟩ := freeFor_advances apart claim credits fewer
  rw [takes] at placed credits
  have early : ∀ x ∈ before, x.leaving m = false := fun x mem => by
    rw [Occupant.leaving, passed x mem, gone x (by rw [occupants]; exact List.mem_append_left _ mem)]
    rfl
  have there (credit : Option SlotId) (free : List SlotId) :
      settledAtMouth m free ({ o with stage := .leaf, credit := credit } :: after) =
        { o with stage := .leaf, credit := credit } :: settledAtMouth m free after :=
    settledAtMouth_skips (before := [{ o with stage := .leaf, credit := credit }])
      (fun x mem => by rw [List.mem_singleton.1 mem]; rfl) free
  refine ⟨?_, ?_, ?_, ?_⟩
  · rw [credits]
    cases (g.freeFor m).head? with
    | none => rfl
    | some k => exact assignCredit_slots k _
  · rw [Passage.creditsTaken, Passage.creditsTaken, left, credits]
    cases g.freeFor m with
    | nil => rfl
    | cons k free =>
      show List.map _ (List.map _ g.credits) = _
      rw [List.map_map]
      refine List.map_congr_left fun c _ => ?_
      rw [Function.comp, List.tail_cons]
      by_cases this : c.slot = k
      · simp [this]
      · simp [this]
  · rw [placed, occupants, settledAtMouth_skips early, settledAtMouth_skips early, settledAtMouth_waiting here, there, left]
  · rw [Passage.lacking, Passage.lacking, left, fewer, takes]
    cases g.freeFor m with
    | nil => rfl
    | cons k free => simp

/-- What those at a mouth have raised so far, where they raise this alarm, and what they are still to raise. -/
structure Advancing (s w u : State) (m : Side) (kind : AlarmKind) : Prop where
  entered : Entered w u
  slots : (u.passage.credits.map Credit.slot).Nodup
  gone : ∀ x ∈ u.passage.occupants, x.farAt m = false
  suppressed : w.alarmsSuppressed = true → Unheard s u
  raised : w.alarmsSuppressed = false →
    ∃ n, RaisedTimes s u kind (some m) n ∧ n + u.passage.lacking m = w.passage.lacking m

theorem Entered.alarmsSuppressed (h : Entered s t) : t.alarmsSuppressed = s.alarmsSuppressed := by
  rw [State.alarmsSuppressed, h.rest, h.aisle]
  rfl

theorem Entered.advanceAlarm (h : Entered s t) (d : Direction) : t.passage.advanceAlarm d = s.passage.advanceAlarm d := by
  rw [h.aisle]
  rfl

/-- One more advances. -/
theorem Advancing.step (h : Advancing s w u m (w.passage.advanceAlarm (dirOf m))) (occupied : w.pins.leaf = true)
    (clock : w.clock = s.clock) (time : w.time = s.time) (service : w.service = s.service)
    (occupants : u.passage.occupants = before ++ o :: after) (passed : ∀ x ∈ before, x.waitingAt m = false)
    (here : o.waitingAt m = true) :
    Advancing s w (u.leaveMouthOne m) m (w.passage.advanceAlarm (dirOf m)) := by
  obtain ⟨entered, slots, gone, suppressed, raised⟩ := h
  have occupied : u.pins.leaf = true := by
    rw [entered.rest]
    exact occupied
  have one := leaveMouthOne_advancedOne occupied occupants passed here gone slots
  have run := leaveMouthOne_advances occupied occupants passed here
  have alarm := entered.advanceAlarm (dirOf m)
  have hush := entered.alarmsSuppressed
  refine ⟨entered.trans (entered_leaveMouthOne occupied), by rwa [one.slots], (leaveMouthOne_places rfl gone).1,
    fun hushed => ?_, fun aloud => ?_⟩
  · rw [run]
    exact (suppressed hushed).trans (advance_unheard (.inr (hush.trans hushed)))
  · obtain ⟨n, times, total⟩ := raised aloud
    cases credit : u.passage.creditFor (dirOf m) with
    | some k =>
      refine ⟨n, ?_, ?_⟩
      · rw [run]
        exact times.unheard (advance_unheard (.inl (by rw [credit]; exact nofun)))
      · rw [← total, ← one.lacking, credit]
        rfl
    | none =>
      refine ⟨n + 1, ?_, ?_⟩
      · rw [run, advance_alarms credit (hush.trans aloud), alarm, sideOf_dirOf]
        refine times.more (alarm_raised ..) ?_ ?_ ?_
        · rw [entered.rest, ← clock]
        · rw [entered.rest, ← time]
        · rw [entered.rest, ← service]
      · rw [← total, ← one.lacking, credit, if_pos rfl]
        omega

/-- All at a mouth advance. -/
theorem advancing_all (occupied : w.pins.leaf = true) (start : Advancing s w w m (w.passage.advanceAlarm (dirOf m)))
    (clock : w.clock = s.clock) (time : w.time = s.time) (service : w.service = s.service) :
    Advancing s w (w.forEachOccupant (State.leaveMouthOne m)) m (w.passage.advanceAlarm (dirOf m)) ∧
      (w.forEachOccupant (State.leaveMouthOne m)).passage.lacking m = 0 ∧
      (w.forEachOccupant (State.leaveMouthOne m)).passage.credits = w.passage.creditsTaken m ∧
      (w.forEachOccupant (State.leaveMouthOne m)).passage.occupants =
        settledAtMouth m (w.passage.freeFor m) w.passage.occupants := by
  obtain ⟨advancing, same, none_⟩ := forEachOccupant_settles (p := Occupant.waitingAt m) (s := w)
    (f := State.leaveMouthOne m)
    (keeps := fun u => Advancing s w u m (w.passage.advanceAlarm (dirOf m)))
    (value := fun u => (u.passage.creditsTaken m, settledAtMouth m (u.passage.freeFor m) u.passage.occupants))
    (fun u advancing => by
      refine and_assoc.1 ⟨?_, leaveMouthOne_countP m u⟩
      cases found : u.passage.occupants.find? (Occupant.waitingAt m) with
      | none =>
        rw [leaveMouthOne_none found]
        exact ⟨advancing, rfl⟩
      | some o =>
        obtain ⟨before, after, occupants, passed, here⟩ := exists_first found
        have pin : u.pins.leaf = true := by rw [advancing.entered.rest]; exact occupied
        have one := leaveMouthOne_advancedOne pin occupants passed here advancing.gone advancing.slots
        exact ⟨advancing.step occupied clock time service occupants passed here, Prod.ext one.credits one.occupants⟩)
    start
  generalize w.forEachOccupant (State.leaveMouthOne m) = u at *
  obtain ⟨credits, occupants⟩ := Prod.mk.inj same
  have stays : ∀ x ∈ u.passage.occupants, x.leaving m = false := fun x mem => by
    rw [Occupant.leaving, advancing.gone x mem, none_ x mem]
    rfl
  have settled (free : List SlotId) : settledAtMouth m free u.passage.occupants = u.passage.occupants := by
    have skipped := settledAtMouth_skips (xs := []) stays free
    rwa [List.append_nil, settledAtMouth, List.append_nil] at skipped
  exact ⟨advancing, lacking_nobody none_, (creditsTaken_nobody none_).symm.trans credits, (settled _).symm.trans occupants⟩

end Sys2Proof.Machine
end

section
/-! MOUTH_CLEAR as a whole (R127, R129, R130). -/

namespace Sys2Proof.Machine

variable {s : State} {m : Side}

/-! ## What the passages leave to those that advance (R127, R129) -/

theorem kept_slots (q : Occupant → Bool) {g : Passage} (apart : (g.credits.map Credit.slot).Nodup) :
    ((g.kept q).map Credit.slot).Nodup :=
  apart.sublist (List.filter_sublist.map _)

/-- Passages leave those at the mouth where they were. -/
theorem farLeft_countP (apart : s.passage.heldApart) :
    (s.farLeft m).passage.occupants.countP (Occupant.waitingAt m) =
      s.passage.occupants.countP (Occupant.waitingAt m) := by
  rw [farLeft_occupants apart, List.countP_filter]
  refine List.countP_congr fun x _ => ?_
  rw [Bool.and_eq_true]
  exact and_iff_left_of_imp fun here => by rw [not_farAt_of_waitingAt here]; rfl

/-- While some are at the mouth, passages leave the claim its direction, or a grant gives it theirs (R117, R118). -/
theorem farLeft_direction (waiting : 0 < (s.farLeft m).passage.occupants.countP (Occupant.waitingAt m)) :
    (s.farLeft m).passage.claim.direction = s.passage.claim.direction ∨
      (s.passage.claim.direction = none ∧ (s.farLeft m).passage.claim.direction = some (dirOf m)) := by
  obtain ⟨x, mem, here⟩ := List.countP_pos_iff.1 waiting
  obtain ⟨departed, -, -, -, -⟩ := farLeft_spec m false s
  have judged := departed.direction x mem
  rwa [← dirOf_sideOf x.direction, (waitingAt_iff.1 here).2] at judged

/-- The credits that those at the mouth take are told before those at FAR have gone. -/
theorem farLeft_freeFor (apart : s.passage.heldApart) (claimed : s.passage.claim.direction = none → s.passage.credits = []) :
    (s.farLeft m).passage.freeFor m =
      if s.passage.claim.direction = some (dirOf m) then
        (((s.passage.kept (Occupant.farAt m)).filter fun c => c.state != .assigned).map Credit.slot).take
          (s.passage.occupants.countP (Occupant.waitingAt m))
      else [] := by
  have direction := farLeft_direction (s := s) (m := m)
  obtain ⟨-, -, -, -, credits⟩ := farLeft_spec m false s
  rw [Passage.freeFor, credits, farLeft_countP apart]
  rw [farLeft_countP apart] at direction
  obtain nobody | waiting := Nat.eq_zero_or_pos (s.passage.occupants.countP (Occupant.waitingAt m))
  · rw [nobody]
    split <;> split <;> rfl
  · obtain same | ⟨none_, taken⟩ := direction waiting
    · rw [same]
    · have bare : s.passage.kept (Occupant.farAt m) = [] := by rw [Passage.kept, claimed none_]; rfl
      rw [bare, none_, taken, if_pos rfl, if_neg nofun, List.filter_nil, List.map_nil, List.take_nil]

/-- LEAF occupied holds settled leaves where they are (R134). -/
theorem farLeft_leaf (occupied : s.pins.leaf = true) (settled : s.leavesSettled) :
    (s.farLeft m).passage.leaf = s.passage.leaf := by
  obtain ⟨departed, -, -, -, -⟩ := farLeft_spec m false s
  obtain same | ⟨-, clear, -, -⟩ := departed.leaves (leavesReady_of_settled settled : s.leavesReady)
  · exact same
  · rw [setMouth_leaf, occupied] at clear
    exact nomatch clear

theorem farLeft_unheard (m : Side) (s : State) : Unheard s (s.farLeft m) :=
  Unheard.trans (t := s.setMouth m false) ⟨rfl, rfl, rfl, rfl, rfl⟩ (farLeft_spec m false s).1.unheard

/-- The alarm of one that advances and finds no credit (R127). -/
theorem farLeft_alarm (occupied : s.pins.leaf = true) (settled : s.leavesSettled)
    (waiting : 0 < (s.farLeft m).passage.occupants.countP (Occupant.waitingAt m)) :
    (s.farLeft m).passage.advanceAlarm (dirOf m) =
      if s.passage.claim.direction = some (dirOf (otherSide m)) then .reverse
      else if s.passage.leaf = .closed ∨ s.passage.leaf = .fault then .forced else .tailgate := by
  have far : farMouth (dirOf m) = otherSide m := by rw [farMouth, sideOf_dirOf]
  rw [advanceAlarm_eq, farLeft_leaf occupied settled, far]
  obtain same | ⟨none_, taken⟩ := farLeft_direction waiting
  · rw [same]
  · have other : ¬some (dirOf m) = some (dirOf (otherSide m)) := fun same =>
      dirOf_other_ne m (Option.some.inj same).symm
    have nowhere : ¬(none : Option Direction) = some (dirOf (otherSide m)) := nofun
    rw [none_, taken, if_neg other, if_neg nowhere]

/-! ## The advances, from the command on -/

/-- What the command does while LEAF is occupied. -/
theorem mouthLeft_occupied (occupied : s.pins.leaf = true) (slots : (s.passage.credits.map Credit.slot).Nodup) :
    Advancing s (s.farLeft m) (s.mouthLeft m) m ((s.farLeft m).passage.advanceAlarm (dirOf m)) ∧
      (s.mouthLeft m).passage.lacking m = 0 ∧
      (s.mouthLeft m).passage.credits = (s.farLeft m).passage.creditsTaken m ∧
      (s.mouthLeft m).passage.occupants =
        settledAtMouth m ((s.farLeft m).passage.freeFor m) (s.farLeft m).passage.occupants := by
  obtain ⟨departed, gone, -, -, credits⟩ := farLeft_spec m false s
  have unheard := farLeft_unheard m s
  have still : (s.farLeft m).pins.leaf = true := by
    rw [departed.rest]
    exact (setMouth_leaf m false s).trans occupied
  refine advancing_all still ⟨.refl _, by rw [credits]; exact kept_slots _ slots, gone, fun _ => unheard,
    fun _ => ⟨0, .zero unheard, Nat.zero_add _⟩⟩ ?_ ?_ ?_
  all_goals
    rw [departed.rest]
    rfl

theorem farLeft_alarmsSuppressed (m : Side) (s : State) : (s.farLeft m).alarmsSuppressed = s.alarmsSuppressed :=
  (farLeft_spec m false s).1.alarmsSuppressed

/-- Settles O33: those at FAR have passed; those at the mouth withdraw, or advance with the credits that are free. -/
theorem mouthClearSettlesTheOccupantsOfTheMouth : Obligations.MouthClearSettlesTheOccupantsOfTheMouth := by
  intro s m near
  obtain ⟨pins, -, places⟩ := mouthLeft_places m s
  refine ⟨_, mouthLeft_run near, ?_, ?_, fun clear => ?_, fun occupied slots apart claimed settled kept free n kind
    keptIs nIs freeIs kindIs => ?_⟩
  · rw [State.pump_pins, pins]
    cases m <;> rfl
  · rw [State.pump_passage]
    exact places
  · obtain ⟨departed, credits⟩ := mouthLeft_clear (m := m) clear
    have aisle := departed.aisle
    rw [State.pump_passage, State.pump_portU, State.pump_portP, State.pump_pins]
    refine ⟨.of_host (by rw [departed.rest]; rfl), ?_, by rw [aisle]; rfl, by rw [aisle]; rfl, credits, fun noU noP => ?_⟩
    · refine (State.pump_rest _).trans ?_
      generalize (s.mouthLeft m).pump.host = host
      have rest := departed.rest
      generalize s.mouthLeft m = u at *
      generalize u.portU = portU, u.portP = portP, u.passage = aisle at *
      rw [rest]
      rfl
    · have none_ : (s.setMouth m false).passage.unwaited := unwaited_of noU noP
      obtain ⟨portU, portP, -⟩ := departed.ports none_
      rw [credits]
      exact ⟨portU, portP, departed.freed_of_kept none_ credits⟩
  · have keptIs : kept = s.passage.kept (Occupant.farAt m) := by
      rw [keptIs]
      simp only [Passage.kept, slotHeld, Occupant.farAt, Bool.and_assoc]
    have nIs : n = s.passage.occupants.countP (Occupant.waitingAt m) := nIs
    have freeIs : (s.farLeft m).passage.freeFor m = free := by
      rw [farLeft_freeFor apart claimed, freeIs, keptIs, nIs]
    have lacks : (s.farLeft m).passage.lacking m = n - free.length := by
      rw [Passage.lacking, freeIs, farLeft_countP apart, nIs]
    obtain ⟨departed, -, -, -, left⟩ := farLeft_spec m false s
    obtain ⟨advancing, done_, credits, occupants⟩ := mouthLeft_occupied (m := m) occupied slots
    have entered := advancing.entered
    have hush := farLeft_alarmsSuppressed m s
    have noticed : Noticed s (s.mouthLeft m) := by
      cases suppressed : (s.farLeft m).alarmsSuppressed with
      | true => exact .of_host (advancing.suppressed suppressed).host
      | false =>
        obtain ⟨k, times, -⟩ := advancing.raised suppressed
        exact times.noticed
    rw [State.pump_passage, State.pump_portU, State.pump_portP, State.pump_pins, State.pump_journal]
    refine ⟨noticed.silent, ?_, ?_, ?_, ?_, ?_, fun noU noP => ?_, fun quiet => ?_, fun short free_ line => ?_⟩
    · refine (State.pump_rest _).trans ?_
      generalize (s.mouthLeft m).pump.host = host
      have rest := entered.rest
      have first := departed.rest
      generalize s.mouthLeft m = u at *
      generalize u.passage = aisle, u.journal = journal at *
      rw [rest, first]
      rfl
    · rw [credits, Passage.creditsTaken, left, ← keptIs, freeIs]
    · rw [occupants, freeIs, farLeft_occupants apart, settledAtMouth_filter]
    · rw [entered.aisle, departed.aisle]
      rfl
    · rw [entered.aisle]
      exact farLeft_leaf occupied settled
    · have none_ : (s.setMouth m false).passage.unwaited := unwaited_of noU noP
      obtain ⟨portU, portP, -⟩ := departed.ports none_
      rw [entered.rest, entered.aisle, keptIs]
      exact ⟨portU, portP, departed.freed_of_kept none_ left⟩
    · have unheard : Unheard s (s.mouthLeft m) := by
        cases suppressed : (s.farLeft m).alarmsSuppressed with
        | true => exact advancing.suppressed suppressed
        | false =>
          obtain ⟨k, times, total⟩ := advancing.raised suppressed
          rw [hush, State.alarmsSuppressed, Bool.or_eq_false_iff] at suppressed
          have none_ : n - free.length = 0 := by
            obtain same | held | line := quiet
            · rw [same, Nat.sub_self]
            · exact nomatch held.symm.trans suppressed.1
            · exact nomatch line.symm.trans suppressed.2
          exact times.quiet (by rw [lacks, none_] at total; omega)
      exact ⟨.of_host unheard.host, unheard.journal, unheard.latches⟩
    · have aloud : (s.farLeft m).alarmsSuppressed = false := by
        rw [hush, State.alarmsSuppressed, free_, line]
        rfl
      obtain ⟨k, times, total⟩ := advancing.raised aloud
      have waiting : 0 < (s.farLeft m).passage.occupants.countP (Occupant.waitingAt m) := by
        rw [farLeft_countP apart, ← nIs]
        omega
      have count : k = n - free.length := by
        rw [done_, lacks] at total
        exact total
      rw [farLeft_alarm occupied settled waiting, ← kindIs, count] at times
      exact ⟨times.latched (by omega), times.journal⟩

end Sys2Proof.Machine
end
